-- ==== Sys2Proof/Word.lean ====
section
/-! DEFINITION. The word types of the BX-4 module and the plain type of a sparse table. The arithmetic on
them stands in the files under Machine. -/

namespace Sys2Proof

/-- One byte of module memory. -/
abbrev Byte := BitVec 8

/-- A 32-bit register, or the bits of one FP32 value (R97). -/
abbrev U32 := BitVec 32

/-- A 64-bit tick count (R251). -/
abbrev Tick := BitVec 64

/-- A 40-bit module address (R30). -/
abbrev Addr := BitVec 40

/-- A 128-bit plan word (R184). -/
abbrev PlanWord := BitVec 128

/-- A 26-bit agent identity (R226). -/
abbrev Agent := BitVec 26

/-- A 9-bit node address: group in bits 8:4, node in bits 3:0 (R441). -/
abbrev Node := BitVec 9

/-- One of the four Camia dies C0 to C3 (R3). -/
abbrev Die := Fin 4

/-- One of the five dies with a register space: 0 to 3 are C0 to C3, 4 is the Phievo die. -/
abbrev PDie := Fin 5

/-- A core of the module, 128 × die + core (R181). -/
abbrev Core := Fin 512

/-- A cluster of the module, 8 × die + cluster (R19). -/
abbrev Cluster := Fin 32

/-- A physical anvil of a core, 0 to 67 (R93). -/
abbrev Anvil := Fin 68

/-- A sync object (R223). -/
abbrev Obj := Fin 16384

/-- A request record (R314). -/
abbrev RecIx := Fin 8192

/-- A link port (R418). -/
abbrev Port := Fin 8

/-- A sparse table: pairs of a key and an entry, keys rising. -/
abbrev SMap (α : Type) := List (Nat × α)

end Sys2Proof
end

