-- ==== Sys2Proof/Syntax.lean ====
section
/-! DEFINITION. The commands of the module: the operand types, and Instr with one constructor for every row of
spec/opcode_table.json. A command is one of the part's whole steps (95_what_each_step_holds.md): a write to a
register with a behaviour, a frame or packet that arrives, an event on a land, or a step of one of the module's
own engines. -/

namespace Sys2Proof

/-- Where a parity mismatch is found (R401, R583): at an engine input of a core or of a cluster's bellows, or at a memory
encoder of a die. -/
inductive Detector where
  | core (c : Core)
  | bellows (k : Cluster)
  | encoder (d : PDie)
  deriving DecidableEq, Repr

/-- What is found of a word that is read: a correctable or an uncorrectable error of its codeword (R385), or a parity
mismatch on its way (R401). -/
inductive Ecc where
  | correctable
  | uncorrectable
  | parity (at_ : Detector)
  deriving DecidableEq, Repr

/-- Codeword errors that have arisen in the granules of these addresses before a read, and parity mismatches that their next
read meets (R385, R401). The environment makes them: no command of the module can (R413). -/
abbrev EccFaults := List (Addr × Ecc)

/-- A cell of a weight pair (R46). -/
inductive Polarity where
  | pos
  | neg
  deriving DecidableEq, Repr

/-- What the program engine's read-back finds in one row of one anvil (R84): the cell at a physical column that
stays at a level, pulsed or not. -/
structure StuckCell where
  anvil : Nat
  column : Nat
  cell : Polarity
  level : Nat
  deriving DecidableEq, Repr

/-- The Ethernet and Tchivin header of a mesh frame as the port receives it (R422 to R426). -/
structure MeshHdr where
  /-- The destination MAC address is the port's own (R423). -/
  toOwn : Bool
  /-- The destination MAC address is the broadcast address (R423). -/
  broadcast : Bool
  express : Bool
  dst : Node
  src : Node
  hops : BitVec 8
  seq : U32
  heat : U32
  /-- The frame check sequence is right (R426). -/
  fcsOk : Bool
  /-- The MACsec integrity check passes (R426). -/
  macsecOk : Bool
  /-- The codewords of the frame that the port's FEC corrected, and those it could not correct (R419, R458). -/
  fecCorrected : Nat := 0
  fecUncorrectable : Nat := 0
  deriving DecidableEq, Repr

/-- The marks of a HEAT_ARRIVE cell beside REPLAY and FAULT (R254, R424, R579) (readings: log entry 70). -/
structure ArriveMarks where
  unlock : Bool
  stress : Bool
  deriving DecidableEq, Repr

/-- The data header of a DATA frame (R425). -/
structure DataHdr where
  addr : Addr
  sched : Bool
  last : Bool
  sig : Bool
  defer : Bool
  bht : Bool
  len : Nat
  tenant : BitVec 8
  poison : BitVec 64
  agent : Agent
  obj : BitVec 14
  sop : BitVec 8
  value : U32
  opid : U32
  deriving DecidableEq, Repr

/-- A BHT DATA packet as it arrives on a session (R445, R450): the header, and whether its tag verifies. -/
structure BhtPacket where
  session : Nat
  pn : Nat
  tagOk : Bool
  /-- The packet carries the ECN mark CE (R452). -/
  ce : Bool
  deriving DecidableEq, Repr

/-- The message header and data of a DATA body (R446). -/
structure BhtMsg where
  first : Bool
  last : Bool
  sig : Bool
  ece : Bool
  status : BitVec 8
  node : BitVec 8
  msn : Nat
  opid : U32
  ackMsn : Nat
  sack : BitVec 64
  addr : BitVec 64
  len : Nat
  obj : BitVec 14
  sop : Nat
  value : U32
  data : List Byte
  deriving DecidableEq, Repr

/-- The reading a monitor converter makes of its channel (R467): the mean of its samples, in 1/128 of a code. -/
abbrev Reading := Int

/-- The commands of the module, one constructor for each row of spec/opcode_table.json, in the table's order. -/
inductive Instr where
  | nop (c : Core)
  | heat (c : Core)
  | pass (c : Core)
  | passStart (c : Core) (a : Anvil)
  | strike (c : Core) (a : Anvil)
  | passResult (c : Core) (a : Anvil)
  | joinPromote (c : Core)
  | drain (c : Core)
  | drainComplete (c : Core)
  | abort (c : Core)
  | abortComplete (c : Core) (a : Anvil)
  | full (c : Core)
  | fullOutlier (c : Core)
  | fullAdaptA (c : Core)
  | fullAdaptB (c : Core)
  | fullRung3 (c : Core)
  | fullRung4 (c : Core)
  | fullGradPrep (c : Core)
  | fullGradRows (c : Core)
  | fullGradAdapt (c : Core)
  | fullDone (c : Core)
  | vec (c : Core)
  | vecAdd (c : Core)
  | vecSub (c : Core)
  | vecMul (c : Core)
  | vecFma (c : Core)
  | vecMin (c : Core)
  | vecMax (c : Core)
  | vecAbs (c : Core)
  | vecNeg (c : Core)
  | vecCompare (c : Core)
  | vecSelect (c : Core)
  | vecInt32Add (c : Core)
  | vecAnd (c : Core)
  | vecOr (c : Core)
  | vecShift (c : Core)
  | vecRecip (c : Core)
  | vecDiv (c : Core)
  | vecSqrt (c : Core)
  | vecRsqrt (c : Core)
  | vecExp (c : Core)
  | vecLog (c : Core)
  | vecTanh (c : Core)
  | vecSin (c : Core)
  | vecCos (c : Core)
  | vecConvert (c : Core)
  | vecSum (c : Core)
  | vecReduceMax (c : Core)
  | vecReduceMin (c : Core)
  | vecArgmax (c : Core)
  | vecDone (c : Core)
  | xfer (c : Core)
  /-- The transfer is the one at this place among those in flight, oldest first. -/
  | transferDone (place : Nat)
  | treeSend (c : Core)
  | treeAdd (c : Core)
  | treeStepDone (c : Core)
  | epi (c : Core)
  | epilogueStart (c : Core)
  | epilogueDone (c : Core)
  | attn (c : Core)
  | walk (k : Cluster) (errors : EccFaults)
  | walkRetry (k : Cluster)
  | sample (c : Core)
  | signalCounterAdd (c : Core)
  | signalFlagSet (c : Core)
  | signalBarrierArrive (c : Core)
  | waitCounter (c : Core)
  | waitFlag (c : Core)
  | waitBarrier (c : Core)
  | waitOutcome (c : Core)
  | guardDeadline (c : Core)
  | window (c : Core)
  | reheat (c : Core)
  | bound (c : Core)
  | streamFetch (c : Core)
  | planLoad (agent : Agent)
  | planLoadDone
  | planStart (agent : Agent)
  | holdDone (agent : Agent)
  | dieArrive (d : Die)
  | boundaryTimeout
  | heatStart
  /-- The addresses are free memory the die control processor writes new lists into (R295). -/
  | admission (d : Die) (space : List Addr)
  | cowCopyDone (d : Die) (space : List Addr)
  | adapterStageDone (d : Die) (i : Fin 16)
  | shardAdmitNote (d : Die) (entry : Fin 4096) (kind : Fin 4) (ntok : BitVec 16) (pos : U32) (pages : Nat) (home : Node) (record : BitVec 16)
  | shardAdmitAck (d : Die) (entry : Fin 4096) (holder : Node) (starved : Bool)
  | submitNotify (d : Die) (o : Obj)
  | generateRecord (r : RecIx) (space : List Addr)
  | adapterLoadRecord (r : RecIx)
  | adapterLoadDone (r : RecIx)
  | adapterRetireRecord (r : RecIx)
  | grammarInstallRecord (r : RecIx)
  | grammarRemoveRecord (r : RecIx)
  | syncCounterAdd (o : Obj) (v : U32) (agent : Agent)
  | syncFlagSet (o : Obj) (agent : Agent)
  | syncBarrierArrive (o : Obj) (agent : Agent)
  | syncWaitEnter (o : Obj) (cond : Fin 3) (v : U32) (consume : Bool) (agent : Agent) (deadline : Tick)
  /-- The waiter at this place of the waiter table. -/
  | waitDeadline (place : Fin 4096)
  | parentRelease (o : Obj)
  | syncInitCounter (agent : Agent)
  | syncInitFlag (agent : Agent)
  | syncInitBarrier (agent : Agent)
  | syncFree (agent : Agent)
  | syncAdd (agent : Agent)
  | syncSet (agent : Agent)
  | syncClear (agent : Agent)
  | syncArrive (agent : Agent)
  | syncClrSticky (agent : Agent)
  | syncCmdReserved (code : BitVec 4) (agent : Agent)
  | dbgSelWrite (v : U32) (agent : Agent)
  | timingSend
  | timingSilence
  | tbNowLoRead (d : PDie)
  | dataFrame (p : Port) (f : MeshHdr) (h : DataHdr) (payload : List Byte)
  | signalCell (p : Port) (f : MeshHdr) (obj : BitVec 14) (sop : BitVec 8) (defer : Bool) (value : U32) (agent : Agent)
  | barArriveCell (p : Port) (f : MeshHdr) (obj : BitVec 14) (agent : Agent)
  | barReleaseCell (p : Port) (f : MeshHdr) (obj : BitVec 14)
  | barFaultCell (p : Port) (f : MeshHdr) (obj : BitVec 14)
  | heatArriveCell (p : Port) (f : MeshHdr) (heatNum : U32) (replay fault : Bool) (marks : ArriveMarks) (level : BitVec 8) (cls : BitVec 8) (missing : Node)
  | heatReleaseCell (p : Port) (f : MeshHdr) (heatNum : U32) (start : Tick) (level : BitVec 8) (replay fault : Bool) (classes : BitVec 128)
  | clockRelock
  | railRamp
  | timingRequest (p : Port) (f : MeshHdr) (t1 : Tick)
  | timingResponse (p : Port) (f : MeshHdr) (t1 t2 t3 t4 : Tick) (offMaster offGroup : BitVec 8)
  | trainCell (p : Port) (f : MeshHdr) (role : BitVec 8) (seq : U32) (sent : Tick) (turnaround : U32)
  | helloCell (p : Port) (f : MeshHdr) (nodeId groupId : BitVec 8) (port : BitVec 8) (serial : BitVec 64) (nodeValid groupValid report wiringOk : Bool)
  | ringDiscCell (p : Port) (f : MeshHdr) (origin smallest : BitVec 64) (groups : BitVec 8)
  | faultCell (p : Port) (f : MeshHdr) (node : Node) (evt : BitVec 16)
  | groupReset (p : Port) (f : MeshHdr)
  | doneFrame (p : Port) (f : MeshHdr) (opid : U32) (status : BitVec 8) (session : BitVec 16)
  /-- The port's lanes and FEC lock, its MACsec association starts, its 802.3br verification succeeds or not, its neighbour's rate. -/
  | portTraining (p : Port) (lock preempt : Bool) (rate : BitVec 2)
  /-- The round trips less turnarounds of the port's TRAIN cells, in half nanoseconds (R433). -/
  | trainingDone (p : Port) (figures : List Nat)
  | retrain (p : Port) (agent : Agent)
  | linkDown (p : Port)
  | enumStart
  | enumToken (value : BitVec 5)
  | enumReportTimeout
  | ringDiscTimeout
  /-- The role claimed, the source address, whether a cookie is present and right for it, and the host's nonce and key as one transcript. -/
  | bhtInit (role : BitVec 8) (source : BitVec 128) (cookie : Option (BitVec 256)) (second : Nat) (hostKey : List Byte) (hostNonce : BitVec 256)
  | bhtFinish (k : BhtPacket) (proof : BitVec 256)
  | bhtClose (k : BhtPacket)
  | bhtWrite (k : BhtPacket) (m : BhtMsg)
  | bhtRead (k : BhtPacket) (m : BhtMsg) (errors : EccFaults)
  | bhtAck (k : BhtPacket) (m : BhtMsg)
  | bhtSyncRead (k : BhtPacket) (m : BhtMsg)
  | bhtWatch (k : BhtPacket) (m : BhtMsg)
  | bhtNotify (session : Nat) (o : Obj)
  | bhtStoreData (k : BhtPacket) (m : BhtMsg)
  | bhtKeepalive (k : BhtPacket) (m : BhtMsg)
  | storeRead (node : BitVec 4) (object : BitVec 128) (offset : BitVec 64) (len : Nat)
  | bhtRetxTimeout (session : Nat) (msn : Nat)
  | bhtAckTimer (session : Nat)
  | handshakeTimeout (session : Nat)
  | sessionIdleTimeout (session : Nat)
  | cookieKeyChange
  | neighborSolicitation (p : Port) (source target : BitVec 128) (sourceMac : BitVec 48)
  | neighborAdvertisement (p : Port) (target : BitVec 128) (mac : BitVec 48)
  | gatewaySolicit (p : Port)
  | lldpSend (p : Port)
  | closeAll (agent : Agent)
  | billetFetch (agent : Agent)
  | fetchTimeout (request : Nat)
  | shardVerifyDone
  | abandon (agent : Agent)
  /-- The die's batch: for each anvil its physical index 68 × core + anvil in the module's numbering. -/
  | programBatchStart (d : Die) (anvils : List Nat)
  | programRowStep (d : Die) (stuck : List StuckCell)
  | programSettleEnd (d : Die)
  | programBatchDone (d : Die)
  | vmClear (d : Die) (agent : Agent)
  | vmClearGranule (d : Die)
  | dramScrubRead (d : Die) (stack : Fin 2) (error : Option Ecc)
  | coreStoreScrubRead (d : Die) (error : Option Ecc)
  | sramScrubRead (error : Option Ecc)
  /-- The oldest writeback waiting on the die's background class. -/
  | scrubWriteback (d : PDie)
  | repairCopyDone (d : Die)
  | converterStepDone (d : PDie) (reading : Reading)
  | injectTrigger (d : PDie) (bit : Fin 4)
  | droopTrip (d : PDie)
  | mcInject (d : PDie) (agent : Agent)
  | selfCal (d : PDie) (agent : Agent)
  | selfCalDone (d : PDie) (residual : Int) (gain offset : BitVec 16)
  | chMinmaxRead (d : PDie) (ch : Fin 16)
  /-- The module's measured input power in 0.1 W. -/
  | housekeepingRound (power : BitVec 16)
  | throttleRelease
  | quenchClr (agent : Agent)
  | temperBoundary (d : Die)
  | temperPassDone (d : Die)
  | refMeasure (errors : List Int)
  | idleS1Expire (d : Die)
  | idleS2Expire (d : Die)
  | idleS3Expire (d : Die)
  | s1SelfWake (d : Die)
  | dieWake (d : Die)
  | wake (agent : Agent)
  | wakeComplete (d : Die)
  | pwrOkRise
  | powerDetectorTrip
  | resetIn
  /-- Processor 0 security, 1 housekeeping, 2 management, 3 bridge, 4 die control of the die. -/
  | watchdogExpire (processor : Fin 5) (d : Die)
  | sysReset (agent : Agent)
  | resetStretchEnd
  | bootStepDone
  | coreRst (agent : Agent)
  | coreResetAct
  | coreResetDone
  | routerFault (c : Core)
  | fabricFault (unit : BitVec 32)
  | submit (agent : Agent)
  /-- The pages the set names and its apply tick (R487, R620). -/
  | hkCommitSubmit (pages : List U32) (apply : Tick) (temper : Bool)
  | commitCheckDone
  | commitApply (tag : BitVec 16)
  | withdraw (agent : Agent)
  | stagedImageWrite (off : U32) (v : U32) (agent : Agent)
  | stageDiscard (page : U32) (agent : Agent)
  | blkReset (page : U32) (key : U32) (agent : Agent)
  | blockReset (page : U32)
  | lockSet (page : U32) (agent : Agent)
  | capClear (page : U32) (agent : Agent)
  | evtClear (page : U32) (bits : U32) (agent : Agent)
  | accLogClear (agent : Agent)
  | cntClr (page : U32) (agent : Agent)
  /-- A write of a width in bytes at a register-space offset. -/
  | registerWrite (off : U32) (v : U32) (width : Nat) (agent : Agent)
  | rollbackAdv (agent : Agent)
  | fuseBlown
  | extend (agent : Agent)
  | quote (agent : Agent)
  | quoteDone
  | dbgChal (agent : Agent)
  | dbgUnlock (agent : Agent)
  | challengeExpire
  | keyLoad (agent : Agent)
  | keyLoadDone
  | keyErase (agent : Agent)
  | proofCompare (entry : Nat)
  | dump (agent : Agent)
  | dumpDone
  | entdaa (addr : BitVec 7)
  | i3cOffsetWrite (off : U32)
  | i3cRegisterRead
  | i3cRegisterWrite (off : U32) (v : U32)
  | pwrOkFall
  | resetInRelease
  | inputRestored
  | trstN
  /-- One TCK edge with the levels of TMS and TDI. -/
  | tapAccess (tms tdi : Bool)
  deriving DecidableEq, Repr

end Sys2Proof
end

