-- ==== Sys2Proof/Config.lean ====
section
/-! DEFINITION. The values that the spec leaves open: constants without a body, so that nothing can be proved of the
value they give. A value drawn once per event takes the state's count of draws as its first argument. -/

namespace Sys2Proof

/-- How far a converted segment lies from its sum under the trims latched, in 1/640,000 unit: what the array's own gain and
offset, noise and the choice at a midpoint bring about (R52, R612; log entry 3). -/
opaque Config.conversionError (draw slab column phase : Nat) : Int

/-- The slot-table entry whose token a token of a tile is, as 4,096 × die + entry: the plan's toolchain binds the tokens of a
tile, by plan, heat program, class, core, tile identity and token (R160, R162, R205; log entry 4). -/
opaque Config.tokenSlot (plan prog cls core tileId token : Nat) : Nat

/-- Whether a plan splits A·x of an adapter over several cores, so that ADAPT_A on a core leaves a partial u in FP32 at a
core-store granule (R161; log entry 67). -/
opaque Config.partialU (plan core granule : Nat) : Bool

/-- The FP32 value nearest to exp, log, tanh, sin or cos (0 to 4) of a value, where the model's interval for the exact
result holds a midpoint (R176; log entry 7). -/
opaque Config.roundedValue (op : Nat) (x : BitVec 32) : BitVec 32

/-- Whether min or max (VOP 4 or 5) gives its first operand where an operand is a NaN or both are zeros of different sign
(R175; log entry 5). -/
opaque Config.vectorOrder (vop : Nat) (a b : BitVec 32) : Bool

/-- The code of the mask element that compare makes of two values in a format, whether a mask element of a format selects the
first operand, and the result of a shift (R175; log entry 5). -/
opaque Config.vectorCompare (fmt : Nat) (a b : BitVec 32) : Nat
opaque Config.maskSet (fmt mask : Nat) : Bool
opaque Config.vectorShift (a b : BitVec 32) : BitVec 32

/-- Whether a conversion to INT4 or INT8 into a core-store granule takes a static scale (R165) and not the quantiser's (R103,
R175; log entry 5). -/
opaque Config.staticScale (core granule : Nat) : Bool

/-- The bytes that fill the last word of a reduction's output at a core-store granule behind its one element (R177, R387; log
entry 5). -/
opaque Config.reducePad (core granule i : Nat) : BitVec 8

/-- Whether a gradient tensor at a core-store granule is stored as INT8 with a scale per token, and not as FP8 E5M2 (R173;
log entry 9). -/
opaque Config.gradIsInt8 (core granule : Nat) : Bool

/-- Whether a plan is in compatibility mode (R137; log entry 8). -/
opaque Config.compatPlan (planId : Nat) : Bool

/-- The column scale of an anvil for which the resident billet carries no SCALES section (R163, R354; log entry 6). -/
opaque Config.missingScale (core anvil column : Nat) : BitVec 32

/-- The node address that a module other than the root captures for a domain fault: the release of R197 does not carry
it (R222; log entry 10). -/
opaque Config.missingNode (draw : Nat) : BitVec 9

/-- The object number in the identity that is captured with a fault that another module's barrier sends, and with a release (R226, R236, R265; log
entry 10). -/
opaque Config.faultIndex (draw : Nat) : BitVec 14

/-- Whether the time master has left service where no timing message comes (R256; log entry 44). -/
opaque Config.masterGone (draw : Nat) : Bool

/-- The amount of the rate steering in ppb that follows a timing message (R252, R266; log entry 11). -/
opaque Config.steering (draw : Nat) : Nat

/-- The ticks for which a port holds a TRAIN cell that it returns (R433; log entry 11). -/
opaque Config.turnaround (draw : Nat) : BitVec 32

/-- The lane of a port to which an event of the link belongs (R582, log entry 44). -/
opaque Config.faultLane : Nat → BitVec 2
/-- The eye height and width that a lane shows after a calibration (R458, R494; log entry 11). -/
opaque Config.laneEye (draw lane : Nat) : BitVec 32

/-- What the module takes in place of a field of a structure in memory that holds a value outside the field's range
(log entry 12). -/
opaque Config.outOfRange (value : Nat) : Nat

/-- The largest magnitude among new keys or values when one of them is a NaN (R289; log entry 13). -/
opaque Config.nanMagnitude (bits : Nat) : BitVec 32

/-- The elements of an overflow token's keys and values as its own step attends them (R298; log entry 13). -/
opaque Config.overflowElement (element : BitVec 16) : BitVec 32

/-- The token that a sampler takes where its kept weights are none or NaN, by seed and position (R334, R138; log entry 14). -/
opaque Config.sampledToken (seed pos : Nat) : BitVec 32

/-- The logits of the draft model that a plan runs, by slot entry and position (R344; log entry 69). -/
opaque Config.draftLogit (draw entry pos token : Nat) : BitVec 32

/-- The tenant and the SEQ_ID under which a holding module keeps its shard of a sequence (R330; log entry 15). -/
opaque Config.shardTenant (home record : Nat) : Fin 64
opaque Config.shardSeqId (home record : Nat) : BitVec 32

/-- What the 256 test passes on an anvil measure: gain in ppm, offset in 1/256 unit and residual in ppm; and how many
strikes they take (R363; log entry 16). -/
opaque Config.testGain (draw unit : Nat) : Int
opaque Config.testOffs (draw unit : Nat) : Int
opaque Config.testResid (draw unit : Nat) : Nat
opaque Config.testStrikes (draw unit : Nat) : Nat

/-- The soak duty that the housekeeping processor sets, in 1/256, and the strikes of soak passes on an anvil in a round (R580;
log entry 70). -/
opaque Config.soakDuty (draw die : Nat) : BitVec 8
opaque Config.soakStrikes (draw duty unit : Nat) : Nat

/-- Whether an SLH-DSA signature over a digest verifies against a key (R360, R561, R570; log entry 17). -/
opaque Config.signatureValid (key digest signature : List (BitVec 8)) : Bool

/-- The staging region of another module as the bridge knows it: the fetch request does not carry it (R457; log entry 18). -/
opaque Config.stageBase (node : Nat) : BitVec 40

/-- The junction temperature in 1/16 °C that a diode's result word gives with the diode's ideality factor and offset (R477;
log entry 19). -/
opaque Config.junction (word ideality : Nat) (offset : Int) : Int

/-- The class code under which the history takes a quench (0) or a reference failure (1): R583 lists none (R483, R493; log
entry 20). -/
opaque Config.historyClass (event : Nat) : BitVec 8

/-- The mask ROM version that MR0 is extended with (R563; log entry 21). -/
opaque Config.romVersion : BitVec 256

/-- The length of the history image in 4 KiB units by its summary records and log entries, and the bytes of the image as a
dump copies them (R589, R591; log entry 22). -/
opaque Config.historyLength (records entries : Nat) : BitVec 20
opaque Config.historyByte (draw offset : Nat) : BitVec 8

/-- The key of the cookies in force (R448; log entry 23). -/
opaque Config.cookieKey (count : Nat) : BitVec 256

/-- The transcript hash of a handshake, over the INIT and what the bridge's ACCEPT adds to it (R448; log entry 23). -/
opaque Config.transcript (draw : Nat) (init : List (BitVec 8)) : BitVec 256

/-- The MAC address of a host port (R444; log entry 23). -/
opaque Config.portMac (port : Nat) : BitVec 48

/-- Whether an object of another module lies in the range that it gives a session's tenant (R261; log entry 46). -/
opaque Config.remoteMay (draw : Nat) : Bool

/-- What a READ or a SYNC_READ that names another node of the group returns: no frame of the mesh reads (R455, R456; log
entry 24). -/
opaque Config.remoteByte (draw i : Nat) : BitVec 8
opaque Config.remoteValue (draw : Nat) : BitVec 32

/-- An SLH-DSA signature of a message with a private key: its bytes by index (R448, R559, R560, R565; log entry 17). -/
opaque Config.signature (draw : Nat) (secret msg : List Byte) (i : Nat) : BitVec 8

/-- The public key of an SLH-DSA private key, by its security parameter n (R559; log entry 17). -/
opaque Config.publicKey (n : Nat) (secret : List Byte) : List Byte

/-- The secret that an ML-KEM encapsulation to a host's key gives, its ciphertext, and the module's nonce (R448; log entry 45). -/
opaque Config.sharedSecret (draw : Nat) (hostKey : List Byte) : BitVec 256
opaque Config.ciphertext (draw : Nat) (hostKey : List Byte) : List Byte
opaque Config.moduleNonce (draw : Nat) : BitVec 256

/-- Nyavarin's MIPI manufacturer identity (R605; log entry 52). -/
opaque Config.mipiManufacturer : BitVec 15

/-- A fresh challenge, and the SHA-256 of the debug key in mask ROM (R559, R573; log entry 25). -/
opaque Config.challenge (draw : Nat) : BitVec 256
opaque Config.debugKey : BitVec 256

/-- Which of the free pages a die control processor draws (R279; log entry 59). -/
opaque Config.pageChoice (draw pages : Nat) : Nat

/-- An identity that the spec leaves to the module: the SEQ_ID of a sequence (R319; log entry 59), the number of a session and the OPID of
an operation that the bridge begins (R447, R446; log entry 45). The module takes the first one from here on that is not in use. -/
opaque Config.seqIdChoice (draw : Nat) : BitVec 32
opaque Config.sessionChoice (draw : Nat) : BitVec 12
opaque Config.opidChoice (draw : Nat) : BitVec 32

/-- LEN of a heat no stream of which holds a word (R188, R195; log entry 26). -/
opaque Config.heatLength (draw : Nat) : BitVec 20

/-- Which of the detours past a dead router a routing table names (R40; log entry 64). -/
opaque Config.detourChoice (draw cluster entry : Nat) : Nat

/-- The root's PLAN_ID as a module comes to know it before its own arrival (R218; log entry 68). -/
opaque Config.rootPlan (draw : Nat) : BitVec 64

/-- Whether another module of a shard set finds a prompt block in its prefix table (R305, R307; log entry 59). -/
opaque Config.remoteHit (draw : Nat) : Bool

/-- How a part of a split tile travels to another module: the offset in a part at which the address of a DATA frame stands, none for an
address of anything else, and what a part's bytes say (R167, R169; log entry 67). -/
opaque Config.partOffset (addr : Nat) : Option Nat
opaque Config.partNumbers (bytes : List (BitVec 8)) : List Nat

end Sys2Proof
end

