-- ==== Sys2Proof/Machine/Tables.lean ====
section
/-! DEFINITION. Operations on sparse tables, sorted sets and lists, and the byte-order helpers of R8, R9 and R98. -/

namespace Sys2Proof.Machine

/-- The entry of a sparse table at a key. -/
def smapFind {α : Type} : SMap α → Nat → Option α
  | [], _ => none
  | (k, v) :: m, i => if i = k then some v else smapFind m i

/-- The entry at a key, or what an unlisted key holds. -/
def smapGet {α : Type} (m : SMap α) (d : α) (i : Nat) : α := (smapFind m i).getD d

/-- The table with one entry written, keys kept rising. -/
def smapSet {α : Type} : SMap α → Nat → α → SMap α
  | [], i, v => [(i, v)]
  | (k, w) :: m, i, v =>
    if i < k then (i, v) :: (k, w) :: m
    else if i = k then (i, v) :: m
    else (k, w) :: smapSet m i v

/-- The table without one key. -/
def smapErase {α : Type} (m : SMap α) (i : Nat) : SMap α := m.filter (fun e => e.1 != i)

/-- The table with every key of a half-open range taken out. -/
def smapEraseRange {α : Type} (m : SMap α) (lo hi : Nat) : SMap α :=
  m.filter (fun e => !(decide (lo ≤ e.1) && decide (e.1 < hi)))

/-- A sorted set with one element added. -/
def setInsert : List Nat → Nat → List Nat
  | [], i => [i]
  | k :: m, i => if i < k then i :: k :: m else if i = k then k :: m else k :: setInsert m i

/-- A sorted set with one element taken out. -/
def setErase (m : List Nat) (i : Nat) : List Nat := m.filter (fun k => k != i)

/-- A sorted set with the elements of a half-open range taken out. -/
def setEraseRange (m : List Nat) (lo hi : Nat) : List Nat :=
  m.filter (fun k => !(decide (lo ≤ k) && decide (k < hi)))

/-- The first number from a start on that is not in use, below a bound and around from its top to 0 (readings: log entry 59). -/
def freshFrom (start size : Nat) (used : List Nat) : Option Nat :=
  ((List.range (Nat.min size (used.length + 1))).map (fun k => (start + k) % size)).find? (fun v => !(used.contains v))

/-- The list with the element at a place replaced. -/
def listSet {α : Type} : List α → Nat → α → List α
  | [], _, _ => []
  | _ :: l, 0, v => v :: l
  | w :: l, n + 1, v => w :: listSet l n v

/-- The list with the element at a place changed. -/
def listModify {α : Type} (l : List α) (i : Nat) (f : α → α) : List α :=
  match l[i]? with
  | some v => listSet l i (f v)
  | none => l

/-- The list without the element at a place. -/
def listDrop {α : Type} (l : List α) (i : Nat) : List α := l.take i ++ l.drop (i + 1)

/-- The list without its first element that passes a test. -/
def dropFirst {α : Type} (p : α → Bool) : List α → List α
  | [] => []
  | x :: l => if p x then l else x :: dropFirst p l

/-- A list put in order by a key, equal keys in their old order. -/
def insertByKey {α : Type} (key : α → Nat) (x : α) : List α → List α
  | [] => [x]
  | y :: l => if key x < key y then x :: y :: l else y :: insertByKey key x l

/-- A list in increasing order of a key, equal keys in their old order. -/
def sortByKey {α : Type} (key : α → Nat) (l : List α) : List α :=
  l.foldl (fun acc x => insertByKey key x acc) []

/-- A list without repeats, first places kept. -/
def dedup {α : Type} [BEq α] (l : List α) : List α :=
  l.foldl (fun acc x => if acc.contains x then acc else acc ++ [x]) []

/-- The bits hi down to lo of a number (R8). -/
def bits (w hi lo : Nat) : Nat := (w >>> lo) % 2 ^ (hi + 1 - lo)

/-- The bit i of a number (R8). -/
def bit (w i : Nat) : Bool := (w >>> i) % 2 == 1

/-- 1 for true, 0 for false. -/
def flag (b : Bool) : Nat := if b then 1 else 0

/-- The number that two's complement reads in the low n bits of w. -/
def signed (n w : Nat) : Int :=
  let v := w % 2 ^ n
  if v < 2 ^ (n - 1) then (v : Int) else (v : Int) - (2 : Int) ^ n

/-- The low n bits of the two's complement form of a number. -/
def toTwos (n : Nat) (x : Int) : Nat := (x % (2 : Int) ^ n).toNat

/-- A number limited to a range. -/
def clampInt (x lo hi : Int) : Int := if x < lo then lo else if hi < x then hi else x

/-- The greatest 32-bit count (R94). -/
def satMax : Nat := 0xFFFFFFFF

/-- A 32-bit count grown by n, saturating (R94). -/
def satAdd (x : Nat) (n : Nat) : Nat := Nat.min (x + n) satMax

/-- A 16-bit count grown by n, saturating (R124). -/
def satAdd16 (x n : Nat) : Nat := Nat.min (x + n) 0xFFFF

/-- The quotient rounded up. -/
def ceilDiv (a b : Nat) : Nat := (a + b - 1) / b

/-- A quotient of an integer by a positive number, rounded to the nearest integer with ties away from zero (R73, R486). -/
def roundAway (x : Int) (d : Nat) : Int :=
  let q : Int := ((2 * x.natAbs + d) / (2 * d) : Nat)
  if x < 0 then -q else q

/-- The number that little-endian bytes spell (R9). -/
def leNat : List Byte → Nat
  | [] => 0
  | b :: l => b.toNat + 256 * leNat l

/-- A number as n little-endian bytes (R9). -/
def leBytes : Nat → Nat → List Byte
  | 0, _ => []
  | n + 1, v => BitVec.ofNat 8 v :: leBytes n (v / 256)

/-- The number that big-endian bytes spell. -/
def beNat (l : List Byte) : Nat := l.foldl (fun a b => a * 256 + b.toNat) 0

/-- A number as n big-endian bytes. -/
def beBytes (n v : Nat) : List Byte := (leBytes n v).reverse

/-- The little-endian field of n bytes at an offset of a structure in memory (R9). -/
def field (s : List Byte) (off n : Nat) : Nat := leNat ((s.drop off).take n)

/-- A list cut or padded to a length. -/
def padTo {α : Type} (n : Nat) (d : α) (l : List α) : List α := l.take n ++ List.replicate (n - l.length) d

/-- A structure with n bytes at an offset replaced by a number's little-endian bytes (R9). -/
def setField (s : List Byte) (off n v : Nat) : List Byte :=
  s.take off ++ leBytes n v ++ s.drop (off + n)

/-- A list cut into pieces of n, by count. -/
def chunks {α : Type} (n : Nat) : Nat → List α → List (List α)
  | 0, _ => []
  | k + 1, l => l.take n :: chunks n k (l.drop n)

/-- The elements of packed INT4 bytes, low nibble first (R98). -/
def nibbles (l : List Byte) : List Nat := l.flatMap (fun b => [b.toNat % 16, b.toNat / 16])

/-- The sum of a list of integers. -/
def sumInt (l : List Int) : Int := l.foldl (· + ·) 0

/-- The sum of a list of numbers. -/
def sumNat (l : List Nat) : Nat := l.foldl (· + ·) 0

/-- Two lists added element by element, the longer list's rest kept. -/
def addLists : List Int → List Int → List Int
  | [], l => l
  | l, [] => l
  | a :: l, b :: m => (a + b) :: addLists l m

end Sys2Proof.Machine
end

