-- ==== Sys2Proof/Machine/RegTable.lean ====
section
/-! DEFINITION. The register space: the decode of an offset (R534, R537), the common page layout (R538), and every
page's registers with their access codes and reset values. -/

namespace Sys2Proof.Machine

/-- A kind of register page (R537). -/
inductive PageKind where
  | timeBase | numerics | pageStore | serving | program | memory | monitor | bellows | sequencer | accumulator
  | anvilMap | anvil | heatControl | sync | kvStore | adapter | billet | mesh | thermal | power | commit
  | security | tenant | history | board | port | bht
  deriving DecidableEq, Repr

/-- Words of one register row: the first offset, the number of words, the reset value, and the bits that take a
direct write (RW), a staged write (ST), and a direct write until the lock is set (RWL). Every other bit is read
only or reserved (R12). A write-only word reads zero. -/
structure Reg where
  off : Nat
  n : Nat := 1
  reset : Nat := 0
  rw : Nat := 0
  st : Nat := 0
  rwl : Nat := 0
  writeOnly : Bool := false
  deriving DecidableEq, Repr

/-- A page kind's own part of the common layout: ID.TYPE on a Camia die and on the Phievo die, the RW, RWL and
write-one bits of CTRL with its reset value, the EVT bits, and whether BLK_RESET acts (R537, R538). -/
structure PageInfo where
  typeCamia : Nat := 0
  typePhievo : Nat := 0
  ctrlReset : Nat := 0
  ctrlRw : Nat := 0
  ctrlRwl : Nat := 0
  ctrlWo : Nat := 1
  evt : Nat
  blkReset : Bool := false
  /-- The counters that CTRL.CNT_CLR clears: first and last offset. -/
  cntLo : Nat := 0
  cntHi : Nat := 0
  regs : List Reg
  deriving Repr

/-- A module address as a pair of registers: bits 31:0 and 39:32. -/
def addrRw (off : Nat) : List Reg := [{ off := off, rw := 0xFFFFFFFF }, { off := off + 4, rw := 0xFF }]
/-- A staged module address. -/
def addrSt (off : Nat) : List Reg := [{ off := off, st := 0xFFFFFFFF }, { off := off + 4, st := 0xFF }]
/-- Read-only words that reset to zero. -/
def ro (off n : Nat) : List Reg := [{ off := off, n := n }]

def anvilInfo : PageInfo :=
  { typeCamia := 0x0A40, ctrlReset := 3, ctrlRw := 1, ctrlRwl := 2, ctrlWo := 4, evt := 0xFF, blkReset := true,
    cntLo := 0x110, cntHi := 0x124
    regs := [{ off := 0x100, reset := 0x800, st := 0xFF0FFF }, { off := 0x104, reset := 0x800, st := 0xFFFFF },
      { off := 0x108, n := 10 }, { off := 0x140, n := 26 }, { off := 0x200, n := 32 },
      { off := 0x300, n := 32, st := 0xFFFFFFFF }] }

def anvilMapInfo : PageInfo :=
  { typeCamia := 0x0A3F, ctrlWo := 0, evt := 0
    regs := [{ off := 0x100, n := 16, st := 0xFFFFFFFF }, { off := 0x150, n := 3 }, { off := 0x160, n := 3 },
      { off := 0x180 }] }

def numericsInfo : PageInfo :=
  { typeCamia := 0x0B0E, evt := 0x1F, cntLo := 0x110, cntHi := 0x134
    regs := [{ off := 0x100 }, { off := 0x104, reset := 0x40BB8, st := 0xFFFFFF }, { off := 0x110, n := 10 },
      { off := 0x140, n := 8, reset := 0x10FF2000, st := 0x37FFFFFF }] }

def accumulatorInfo : PageInfo :=
  { typeCamia := 0x0A3C, evt := 7, blkReset := true, cntLo := 0x108, cntHi := 0x120, regs := ro 0x100 9 }

def sequencerInfo : PageInfo :=
  { typeCamia := 0x0A30, evt := 0x1F, blkReset := true, cntLo := 0x114, cntHi := 0x124
    regs := [{ off := 0x100, n := 11 }, { off := 0x130, st := 0x1FFFF }] }

def heatControlInfo : PageInfo :=
  { typePhievo := 0x0C20, ctrlWo := 0xF, evt := 0x7F, cntLo := 0x11C, cntHi := 0x12C
    regs := [{ off := 0x100, n := 12 }, { off := 0x130, reset := 0xF4240, rw := 0xFFFFFFFF },
      { off := 0x134, reset := 1, rw := 0xF }, { off := 0x138, rw := 7 }, { off := 0x140, n := 2, rw := 0xFFFFFFFF },
      { off := 0x150, n := 2 }] ++ addrRw 0x160 }

def syncInfo : PageInfo :=
  { typePhievo := 0x0C21, evt := 0x1F, cntLo := 0x10C, cntHi := 0x12C
    regs := [{ off := 0x100, n := 12 }, { off := 0x140, rw := 0x3FFF }, { off := 0x144, n := 2, rw := 0xFFFFFFFF },
      { off := 0x14C, rw := 0xF, writeOnly := true }, { off := 0x150 }, { off := 0x160, rw := 0x3FFF },
      { off := 0x164, n := 11 }, { off := 0x200, n := 64, st := 0x7FFF3FFF }] }

def timeBaseInfo : PageInfo :=
  { typeCamia := 0x0B02, typePhievo := 0x0C02, evt := 3, cntLo := 0x110, cntHi := 0x118, regs := ro 0x100 7 }

def bellowsInfo : PageInfo :=
  { typeCamia := 0x0D50, evt := 0x1F, blkReset := true, cntLo := 0x104, cntHi := 0x134, regs := ro 0x100 14 }

def poolRegs (p : Nat) : List Reg :=
  [{ off := 0x100 + 16 * p, st := 0xFFFFFFFF }, { off := 0x104 + 16 * p, st := 0xFF },
    { off := 0x108 + 16 * p, st := 0x1FFFFF }, { off := 0x10C + 16 * p, st := 0x80000003 }]

def pageStoreInfo : PageInfo :=
  { typeCamia := 0x0B10, evt := 0xF, cntLo := 0x158, cntHi := 0x174
    regs := poolRegs 0 ++ poolRegs 1 ++ poolRegs 2 ++ poolRegs 3 ++
      [{ off := 0x140, n := 4 }, { off := 0x150, reset := 0x400, st := 0x1FFFFF }, { off := 0x154, n := 9 }] }

def kvStoreInfo : PageInfo :=
  { typePhievo := 0x0C22, evt := 3, cntLo := 0x12C, cntHi := 0x144
    regs := addrSt 0x100 ++ [{ off := 0x108, reset := 0x40000000, st := 0xFFFFFFFF }, { off := 0x10C, reset := 1, st := 0x1F }]
      ++ addrSt 0x110 ++ [{ off := 0x118, st := 0x8000001F }, { off := 0x120, n := 10 }] }

def servingInfo : PageInfo :=
  { typeCamia := 0x0B11, evt := 0x3F, cntLo := 0x124, cntHi := 0x160
    regs := [{ off := 0x100, st := 0x1FFFFFFF }] ++ addrSt 0x104 ++ [{ off := 0x10C, reset := 0x30D40, st := 0xFFFFFFFF }]
      ++ addrSt 0x110 ++ [{ off := 0x118, reset := 1, st := 0xFFFF }, { off := 0x120, n := 18 }] }

def adapterInfo : PageInfo :=
  { typePhievo := 0x0C23, evt := 3, cntLo := 0x138, cntHi := 0x13C
    regs := addrSt 0x100 ++ addrSt 0x108 ++ addrSt 0x110 ++ addrSt 0x118 ++ [{ off := 0x120, reset := 1, st := 0xFFFF }]
      ++ addrSt 0x124 ++ [{ off := 0x12C, reset := 0x40000, st := 0x7FFFF }, { off := 0x130, n := 5 }] }

def programInfo : PageInfo :=
  { typeCamia := 0x0B12, evt := 0x3F, cntLo := 0x120, cntHi := 0x13C
    regs := [{ off := 0x100 }, { off := 0x104, reset := 0x400, st := 0x7FF }, { off := 0x108, reset := 0x10, st := 0x7F },
      { off := 0x10C, reset := 0xC, st := 0xF }, { off := 0x110, reset := 0x895440, st := 0xFFFFFFFF },
      { off := 0x114, reset := 0x989680, st := 0xFFFFFFFF }, { off := 0x120, n := 8 }] }

def billetInfo : PageInfo :=
  { typePhievo := 0x0C24, ctrlWo := 7, evt := 0x1F, cntLo := 0x134, cntHi := 0x144
    regs := [{ off := 0x100 }] ++ addrSt 0x104 ++ addrSt 0x10C ++ [{ off := 0x114, st := 0xFFFFF }] ++ addrRw 0x118
      ++ [{ off := 0x120, st := 1 }, { off := 0x124, st := 0x8000FFFF }, { off := 0x128, n := 9 }] }

def memoryInfo : PageInfo :=
  { typeCamia := 0x0B13, typePhievo := 0x0C13, ctrlReset := 2, ctrlRw := 2, ctrlWo := 5, evt := 0xFF,
    cntLo := 0x118, cntHi := 0x13C
    regs := [{ off := 0x100, reset := 0x1A318, st := 0xFFFFFF }, { off := 0x104, reset := 0x186A0, st := 0xFFFFFF },
      { off := 0x108, n := 15 }, { off := 0x144, st := 0xC1FFFFFF }, { off := 0x148, rw := 0xFFFFFFC0 },
      { off := 0x14C, rw := 0xFFFFF0FF }, { off := 0x150, reset := 0x80000000 }] }

def portInfo : PageInfo :=
  { typePhievo := 0x0C40, ctrlWo := 3, evt := 0x7F, cntLo := 0x120, cntHi := 0x16C
    regs := [{ off := 0x100, st := 0x80001173 }, { off := 0x104, reset := 0x10 }, { off := 0x108, n := 26 }] }

def meshInfo : PageInfo :=
  { typePhievo := 0x0C25, evt := 7, cntLo := 0x118, cntHi := 0x11C
    regs := [{ off := 0x100, n := 5 }, { off := 0x114, reset := 0x2710, st := 0xFFFFF }, { off := 0x118, n := 2 }] }

def bhtInfo : PageInfo :=
  { typePhievo := 0x0C48, ctrlWo := 3, evt := 0x1F, cntLo := 0x134, cntHi := 0x154
    regs := [{ off := 0x100, n := 8, st := 0xFFFFFFFF }, { off := 0x120, reset := 0xBBE4, st := 0xFFFF },
      { off := 0x124, reset := 0x190002, st := 0x80FF00FF }, { off := 0x128, reset := 0x400, st := 0x7FF },
      { off := 0x12C, n := 11 }] }

def monitorInfo : PageInfo :=
  { typeCamia := 0x0B14, typePhievo := 0x0C14, ctrlWo := 7, evt := 0xF, cntLo := 0x130, cntHi := 0x144
    regs := [{ off := 0x100, st := 0x3F1F03 }, { off := 0x104, n := 5 }, { off := 0x118, rw := 0xBFFF },
      { off := 0x11C, rwl := 0x1FFFF }, { off := 0x120, st := 0xFFFFFFFF }, { off := 0x124, st := 0xFF },
      { off := 0x128, reset := 0x100, st := 0x1FFFFF }, { off := 0x12C, n := 7 }, { off := 0x148, st := 0xFFF },
      { off := 0x180, reset := 0x3FF0, st := 0x3FFF }, { off := 0x184, n := 31, st := 0x3FFF },
      { off := 0x200, n := 4, st := 0x3FFF }, { off := 0x240, n := 16 },
      { off := 0x280, n := 16, reset := 0xFFFF, st := 0xFFFFFFFF }] }

def thermalInfo : PageInfo :=
  { typePhievo := 0x0C26, ctrlWo := 3, evt := 0x3F, cntLo := 0x168, cntHi := 0x180
    regs := [{ off := 0x100, n := 11 }, { off := 0x12C, reset := 0x640, st := 0xFFFF },
      { off := 0x130, reset := 0x64, st := 0xFFFF }, { off := 0x134, reset := 0x5A0, st := 0xFFFF },
      { off := 0x138, reset := 0x2710, st := 0x1FFFF }, { off := 0x13C, reset := 0xF4240, st := 0xFFFFFF },
      { off := 0x140, reset := 0x400, st := 0xFFFFFFFF }, { off := 0x144, n := 4 },
      { off := 0x154, reset := 0x3C, st := 0xFFFF }, { off := 0x158, n := 21 }, { off := 0x1B0, n := 10 },
      { off := 0x200, n := 96 }] }

def powerInfo : PageInfo :=
  { typePhievo := 0x0C27, ctrlWo := 0xF, evt := 0x1F, cntLo := 0x114, cntHi := 0x12C
    regs := [{ off := 0x100, reset := 0x515 }, { off := 0x104 }, { off := 0x108, reset := 0x32, st := 0xFFFF },
      { off := 0x10C, reset := 0x14, st := 0xFFFF }, { off := 0x110, reset := 0x3C, st := 0x8000FFFF },
      { off := 0x114, n := 4 }, { off := 0x124, reset := 0x2710, st := 0xFFFF }, { off := 0x128, reset := 4, st := 0xFF },
      { off := 0x12C }, { off := 0x140 }, { off := 0x144, reset := 1, rwl := 1 }, { off := 0x148, reset := 0x3E8, rwl := 0xFFFF },
      { off := 0x150, rw := 0x7F33 }, { off := 0x154, n := 2, rw := 0xFFFFFFFF }, { off := 0x160, n := 3 }] }

def commitInfo : PageInfo :=
  { typePhievo := 0x0C28, ctrlWo := 7, evt := 0xF, cntLo := 0x130, cntHi := 0x13C
    regs := addrRw 0x100 ++ [{ off := 0x108, rw := 0x101FF }, { off := 0x10C, n := 2, rw := 0xFFFFFFFF }, { off := 0x114, n := 3 },
      { off := 0x120, reset := 0x2710, rw := 0xFFFFFFFF }, { off := 0x124, rw := 0xFFFF }, { off := 0x130, n := 10 }] }

def securityInfo : PageInfo :=
  { typePhievo := 0x0C30, ctrlWo := 0x3F, evt := 0xF, cntLo := 0x188, cntHi := 0x18C
    regs := [{ off := 0x100 }, { off := 0x110, rw := 7 }, { off := 0x114, n := 8 }] ++ addrRw 0x138 ++ addrRw 0x140
      ++ addrRw 0x148 ++ [{ off := 0x150, reset := 0xFF, rw := 0xFF }, { off := 0x154 }, { off := 0x160, n := 8 }]
      ++ addrRw 0x180 ++ ro 0x188 2 }

/-- The region pairs TRB and TRS of the tenant page (R567). -/
def regionRegs : Nat → List Reg
  | 0 => []
  | n + 1 => regionRegs n ++ [{ off := 0x100 + 8 * n, st := 0xFF7FFFFF }, { off := 0x104 + 8 * n, st := 0x7FFFFF }]

def tenantInfo : PageInfo :=
  { typePhievo := 0x0C31, ctrlWo := 7, evt := 3, cntLo := 0x540, cntHi := 0x540
    regs := [{ off := 0x500, rw := 0x3FF }, { off := 0x504, n := 8, rw := 0xFFFFFFFF, writeOnly := true },
      { off := 0x524, n := 3 }, { off := 0x540 }] ++ regionRegs 128 }

def historyInfo : PageInfo :=
  { typePhievo := 0x0C32, ctrlRw := 4, ctrlWo := 3, evt := 0x1F, cntLo := 0x130, cntHi := 0x148
    regs := [{ off := 0x100, n := 3 }, { off := 0x10C, reset := 0x5F07, st := 0xFF07 }] ++ addrSt 0x110
      ++ [{ off := 0x118, st := 0x1FFF }] ++ addrRw 0x11C
      ++ [{ off := 0x124, rw := 0xFFFFF }, { off := 0x128, rw := 0x1FFF }, { off := 0x130, n := 7 }] }

def boardInfo : PageInfo :=
  { typePhievo := 0x0C33, evt := 3, cntLo := 0x108, cntHi := 0x10C
    regs := [{ off := 0x100, reset := 0x5A00, rwl := 0x7F01 }, { off := 0x104, n := 3 }] }

/-- The registers of a page kind. -/
def pageInfo : PageKind → PageInfo
  | .timeBase => timeBaseInfo | .numerics => numericsInfo | .pageStore => pageStoreInfo | .serving => servingInfo
  | .program => programInfo | .memory => memoryInfo | .monitor => monitorInfo | .bellows => bellowsInfo
  | .sequencer => sequencerInfo | .accumulator => accumulatorInfo | .anvilMap => anvilMapInfo | .anvil => anvilInfo
  | .heatControl => heatControlInfo | .sync => syncInfo | .kvStore => kvStoreInfo | .adapter => adapterInfo
  | .billet => billetInfo | .mesh => meshInfo | .thermal => thermalInfo | .power => powerInfo | .commit => commitInfo
  | .security => securityInfo | .tenant => tenantInfo | .history => historyInfo | .board => boardInfo
  | .port => portInfo | .bht => bhtInfo

/-- The die, unit, block and byte offset of a register-space offset (R534). -/
def offDie (off : Nat) : Nat := bits off 31 28
def offUnit (off : Nat) : Nat := bits off 27 20
def offBlock (off : Nat) : Nat := bits off 19 12
def offByte (off : Nat) : Nat := off % 0x1000
/-- The page an offset lies in. -/
def pageOf (off : Nat) : Nat := off - off % 0x1000

/-- The page kind of a die-wide Camia block (R537). -/
def camiaBlock : Nat → Option PageKind
  | 0x02 => some .timeBase | 0x0E => some .numerics | 0x10 => some .pageStore | 0x11 => some .serving
  | 0x12 => some .program | 0x13 => some .memory | 0x14 => some .monitor | _ => none

/-- The page kind of a core's block (R537). -/
def coreBlock (b : Nat) : Option PageKind :=
  if b = 0x30 then some .sequencer else if b = 0x3C then some .accumulator else if b = 0x3F then some .anvilMap
  else if 0x40 ≤ b ∧ b ≤ 0x83 then some .anvil else none

/-- The page kind of a Phievo block (R537). -/
def phievoBlock (b : Nat) : Option PageKind :=
  if 0x40 ≤ b ∧ b ≤ 0x47 then some .port else
  match b with
  | 0x02 => some .timeBase | 0x13 => some .memory | 0x14 => some .monitor | 0x20 => some .heatControl
  | 0x21 => some .sync | 0x22 => some .kvStore | 0x23 => some .adapter | 0x24 => some .billet | 0x25 => some .mesh
  | 0x26 => some .thermal | 0x27 => some .power | 0x28 => some .commit | 0x30 => some .security | 0x31 => some .tenant
  | 0x32 => some .history | 0x33 => some .board | 0x48 => some .bht | _ => none

/-- The page kind at a register-space offset, or none where no page is listed (R534, R537). -/
def pageKind (off : Nat) : Option PageKind :=
  let die := offDie off
  let unit := offUnit off
  let block := offBlock off
  if die < 4 then
    if unit = 0 then camiaBlock block
    else if 0x10 ≤ unit ∧ unit ≤ 0x17 then (if block = 0x50 then some .bellows else none)
    else if 0x80 ≤ unit then coreBlock block
    else none
  else if die = 8 ∧ unit = 0 then phievoBlock block
  else none

/-- The row of a page that holds a live offset. -/
def regRow (k : PageKind) (o : Nat) : Option Reg :=
  (pageInfo k).regs.find? (fun r => decide (r.off ≤ o) && decide (o < r.off + 4 * r.n) && decide (o % 4 = 0))

/-- ID.TYPE of a page (R537). -/
def idType (k : PageKind) (off : Nat) : Nat :=
  if offDie off = 8 then (pageInfo k).typePhievo else (pageInfo k).typeCamia

/-- ID.INSTANCE of a page, as each block's chapter gives it (R93, R139, R178, R219, R266, R308, R309, R347, R378,
R414, R458, R497; 0 on the single pages of the Phievo die). -/
def idInstance (k : PageKind) (off : Nat) : Nat :=
  match k with
  | .anvil => (offUnit off - 0x80) * 256 + (offBlock off - 0x40)
  | .anvilMap | .sequencer | .accumulator => (offUnit off - 0x80) * 256
  | .bellows => (offUnit off - 0x10) * 256
  | .port => offBlock off - 0x40
  | .numerics | .pageStore | .serving | .program | .memory | .monitor | .timeBase => offDie off
  | _ => 0

/-- MAP*j* at shipment: logical anvil L on physical anvil L, valid (R87, R96). -/
def mapReset (j : Nat) : Nat :=
  (0x80 + 4 * j) + (0x81 + 4 * j) * 0x100 + (0x82 + 4 * j) * 0x10000 + (0x83 + 4 * j) * 0x1000000

/-- The reset value of a live register of a page. -/
def liveReset (k : PageKind) (o : Nat) : Nat :=
  if k = .anvilMap ∧ 0x100 ≤ o ∧ o < 0x140 then mapReset ((o - 0x100) / 4)
  else if k = .anvilMap ∧ o = 0x168 then 0xF
  else match regRow k o with
    | some r => r.reset
    | none => 0

/-- The reset value of the word at a register-space offset (R538): a staged copy resets as its live field does (R546). -/
def resetValue (off : Nat) : Nat :=
  match pageKind off with
  | none => 0
  | some k =>
    let o := offByte off
    if o = 0 then idType k off * 0x10000 + idInstance k off
    else if o = 4 then 0x100
    else if o = 8 then (pageInfo k).ctrlReset
    else if o = 0x18 then 3
    else if 0x100 ≤ o ∧ o < 0x700 then liveReset k o
    else if 0x900 ≤ o ∧ o < 0xF00 then
      (match regRow k (o - 0x800) with
        | some r => Nat.land (liveReset k (o - 0x800)) r.st
        | none => 0)
    else 0

/-- The base of a core's register unit (R534). -/
def coreUnit (c : Nat) : Nat := c / 128 * 0x10000000 + (0x80 + c % 128) * 0x100000
/-- The sequencer page of a core (R219). -/
def pageSeq (c : Nat) : Nat := coreUnit c + 0x30000
/-- The accumulator path page of a core (R178). -/
def pageAcc (c : Nat) : Nat := coreUnit c + 0x3C000
/-- The anvil map page of a core (R93). -/
def pageMap (c : Nat) : Nat := coreUnit c + 0x3F000
/-- The control page of a physical anvil of a core (R93). -/
def pageAnvil (c a : Nat) : Nat := coreUnit c + 0x40000 + 0x1000 * a
/-- The bellows page of a cluster of the module (R308). -/
def pageBellows (k : Nat) : Nat := k / 8 * 0x10000000 + (0x10 + k % 8) * 0x100000 + 0x50000
/-- A die-wide page: die 0 to 3 is a Camia die, and 4 stands for the Phievo die (R534). -/
def pageDie (d block : Nat) : Nat := (if d = 4 then 8 else d) * 0x10000000 + block * 0x1000
/-- The time-base page (R266). -/
def pageTb (d : Nat) : Nat := pageDie d 0x02
/-- The numerics page (R139). -/
def pageNum (d : Nat) : Nat := pageDie d 0x0E
/-- The page-store page (R309). -/
def pagePst (d : Nat) : Nat := pageDie d 0x10
/-- The serving page (R347). -/
def pageSrv (d : Nat) : Nat := pageDie d 0x11
/-- The program page (R378). -/
def pagePrg (d : Nat) : Nat := pageDie d 0x12
/-- The memory page (R414). -/
def pageMem (d : Nat) : Nat := pageDie d 0x13
/-- The monitor page (R497). -/
def pageMon (d : Nat) : Nat := pageDie d 0x14
/-- The single pages of the Phievo die (R537). -/
def pageHeat : Nat := 0x80020000
def pageSync : Nat := 0x80021000
def pageKv : Nat := 0x80022000
def pageAdp : Nat := 0x80023000
def pageBlt : Nat := 0x80024000
def pageMesh : Nat := 0x80025000
def pageThm : Nat := 0x80026000
def pagePwr : Nat := 0x80027000
def pageCom : Nat := 0x80028000
def pageSec : Nat := 0x80030000
def pageTen : Nat := 0x80031000
def pageHis : Nat := 0x80032000
def pageBrd : Nat := 0x80033000
def pagePort (p : Nat) : Nat := 0x80040000 + 0x1000 * p
def pageBht : Nat := 0x80048000

end Sys2Proof.Machine
end

