-- ==== Sys2Proof/Machine/State.lean ====
section
/-! DEFINITION. The state of the module as plain data, and the state right after reset. -/

namespace Sys2Proof.Machine

/-- A writeback of a granule waiting on the background class (R405, R406): the memory page's die (4 for the Phievo
die), the granule, whether the scrubber posted it, and whether the memory has accepted a newer write of the
granule since (R407). -/
structure Writeback where
  page : Nat
  granule : Nat
  scrub : Bool
  stale : Bool
  deriving DecidableEq, Repr

/-- The module's memory: DRAM, core stores and Phievo SRAM (R30). A granule is an address divided by 64. -/
structure Memory where
  /-- The bytes that are not zero, addresses strictly rising. An unlisted byte reads zero (R390, R391). -/
  bytes : List Host.Cell := []
  /-- The DRAM granules whose valid bit is set, rising (R391). -/
  valid : List Nat := []
  /-- The granules stored as poisoned, rising (R386). -/
  poison : List Nat := []
  /-- The codewords that hold an error no read has met yet (R385): a codeword is named by the address of its first byte
  divided by 8. -/
  ecc : SMap Ecc := []
  writebacks : List Writeback := []
  deriving DecidableEq, Repr

/-- A class slot of a summary record (R584). -/
structure ClassSlot where
  cls : Nat
  /-- 0 transient, 1 permanent, 2 fenced. -/
  state : Nat
  count : Nat
  first : Nat
  last : Nat
  sec0 : Nat
  sec1 : Nat
  sec2 : Nat
  deriving DecidableEq, Repr

/-- A summary record of a unit (R584). -/
structure Summary where
  slots : List ClassSlot := []
  ovfClass : Nat := 0
  ovfCount : Nat := 0
  deriving DecidableEq, Repr

/-- An entry of the history log (R583). -/
structure LogEntry where
  tick : Nat
  unit : Nat
  cls : Nat
  status : Nat
  detail : List Nat
  /-- A PROOF mismatch under stress (R581). -/
  stressed : Bool := false
  deriving DecidableEq, Repr

/-- What flash keeps of a physical anvil (R94, R358): program operations, strikes, ledger entries, the model and
the CRC of the weights programmed, and whether it is retired. -/
structure AnvilFlash where
  progCnt : Nat := 0
  strikeCnt : Nat := 0
  ledger : List Nat := []
  modelId : Nat := 0
  weightsCrc : Nat := 0
  /-- The anvil holds the weights that modelId and weightsCrc name. -/
  programmed : Bool := false
  retired : Bool := false
  deriving DecidableEq, Repr

/-- A repair of the flash repair record (R410, R411): a DRAM block of a stack, or a core-store row of a core. -/
structure Repair where
  dram : Bool
  /-- Stack 0 to 7, or core 0 to 511. -/
  unit : Nat
  block : Nat
  deriving DecidableEq, Repr

/-- The flash history (R358, R582 to R585), which every reset keeps. -/
structure History where
  /-- HIST_SEC, and the nanoseconds of the second in progress (R585). -/
  sec : Nat := 0
  nanos : Nat := 0
  summaries : SMap Summary := []
  log : List LogEntry := []
  returned : Bool := false
  repairs : List Repair := []
  /-- The cores fenced in the field (R5, R588). -/
  fences : List Nat := []
  /-- The cores whose routers were fenced in the field (R42). -/
  dead : List Nat := []
  anvils : SMap AnvilFlash := []
  deriving DecidableEq, Repr

/-- What a sync object holds (R224). -/
inductive ObjVal where
  | counter (value : Nat)
  | flag (on : Bool)
  /-- PCOUNT, the sets CUR, NEXT and PREV, PARITY, ASCENDING, FAULT, and the parent's node and object. -/
  | barrier (pcount : Nat) (cur next prev : List Nat) (parity ascending fault : Bool) (parent : Option (Nat × Nat))
  deriving DecidableEq, Repr

/-- A sync object that is not free (R224, R263). -/
structure SyncObj where
  val : ObjVal
  overrun : Bool := false
  notify : Nat := 0
  /-- The last signaller and the tick of its signal. -/
  lastSig : Option (Nat × Nat) := none
  deriving DecidableEq, Repr

/-- An entry of the waiter table (R238): for a barrier wait, the releases still to come (R235). -/
structure Waiter where
  obj : Nat
  cond : Nat
  value : Nat
  consume : Bool
  agent : Nat
  deadline : Nat
  releases : Nat
  deriving DecidableEq, Repr

/-- An operation on its way to the sync unit (R241, R244). -/
inductive SyncMsg where
  | add (obj v agent : Nat)
  | set (obj agent : Nat)
  | arrive (obj agent : Nat)
  | wait (obj cond v : Nat) (consume : Bool) (agent deadline : Nat)
  | release (obj agent : Nat)
  deriving DecidableEq, Repr

/-- The outcome of a wait on its way to the waiting agent (R240). -/
structure WaitOutcome where
  agent : Nat
  obj : Nat
  cond : Nat
  value : Nat
  consume : Bool
  deadline : Nat
  status : Nat
  deriving DecidableEq, Repr

/-- The sync unit (R223). -/
structure SyncUnit where
  /-- The objects that are not free. -/
  objs : SMap SyncObj := []
  waiters : List Waiter := []
  /-- Operations in flight, oldest first. -/
  inFlight : List SyncMsg := []
  /-- Outcomes in flight to waiting agents (R240). -/
  outcomes : List WaitOutcome := []
  /-- Notify queues: die and object (R264). -/
  notify : List (Nat × Nat) := []
  deriving DecidableEq, Repr

/-! ### The compute core (chapters 02 to 05) -/

/-- The two levels of a pair's cells (R46). -/
structure Pair where
  pos : Nat
  neg : Nat
  deriving DecidableEq, Repr

/-- A pass issue that has reached an anvil (R58, R187): its join, and the codes of each token, rows of the row zero
mask at code 0. -/
structure PassIssue where
  serial : Nat
  entry : Nat
  join : Nat
  slot : Nat
  tileId : Nat
  mode : Nat
  split : Bool
  /-- The codes of one token: 1,024 rows, or 512 columns of a transposed pass. -/
  codes : List (List Int)
  deriving DecidableEq, Repr

/-- The pass that an anvil is striking (R54, R90): the token, the half of an A8W4 pass, the next plane, the trims
latched, and what the slab adder tree holds so far. -/
structure PassRun where
  issue : PassIssue
  token : Nat := 0
  half : Nat := 0
  plane : Nat := 0
  gain : Nat := 0
  offs : Nat := 0
  sums : List Int := []
  /-- The exact sums of the planes struck, and whether the conditions of R112 have held at every strike. -/
  exact : List Int := []
  ok : Bool := true
  heavy : Nat := 0
  clamps : Nat := 0
  deriving DecidableEq, Repr

/-- A pass whose last conversion has ended, in the slab adder tree (R56). -/
structure PassDone where
  issue : PassIssue
  token : Nat
  half : Nat
  sums : List Int
  /-- The exact result, the sum of the squares of the products of each output, and the conditions (R112). -/
  exact : List Int
  squares : List Nat
  ok : Bool
  heavy : Nat
  clamps : Nat
  deriving DecidableEq, Repr

/-- A physical anvil. -/
structure AnvilState where
  /-- The pairs whose cells are not both at level 0, by 544 × row + physical column (R46, R48). -/
  cells : SMap Pair := []
  /-- The stuck cells, by 2 × (544 × row + column), plus 1 for the negative cell, with their level (R84). -/
  stuck : SMap Nat := []
  /-- The witness accumulators W0 to W7, the sum of n and the segments sampled (R71). -/
  wit : List Int := [0, 0, 0, 0, 0, 0, 0, 0]
  nsum : Nat := 0
  conv : Nat := 0
  queue : Option PassIssue := none
  run : Option PassRun := none
  tree : List PassDone := []
  /-- The serial number of the next pass issue, which orders issues and drains (R80). -/
  serial : Nat := 0
  /-- Abort-drains that have reached the anvil and not completed, and the passes they discarded (R81). -/
  aborts : Nat := 0
  discarded : Nat := 0
  discardedId : Nat := 0
  /-- The program engine is programming the anvil in place (R91, R367). -/
  inPlace : Bool := false
  deriving DecidableEq, Repr

/-- The source of a tile's column scales (R163): a table of 512 FP32 values in memory, or 1.0. -/
inductive ColScale where
  | table (addr : Nat)
  | one
  /-- The resident billet holds no scales of the logical anvil of the core. -/
  | absent (core anvil : Nat)
  deriving DecidableEq, Repr

/-- A tile of the tile table (R150). -/
structure Tile where
  tileId : Nat
  region : Nat
  fmt : Nat
  shape : Nat
  transposed : Bool
  inFmt : Nat
  mode : Nat
  split : Bool
  rt : Nat
  /-- The threshold set as it stood when the tile opened (R141). -/
  thr : Nat
  /-- The plan word that opened the tile, and its first anvil. -/
  openIdx : Nat
  /-- The largest magnitude of each token's inputs as FP32 bits, a NaN where R105 applies. -/
  amax : List U32
  sx : List U32
  scol : ColScale
  clampN : Nat := 0
  zeroN : Nat := 0
  nzN : Nat := 0
  heavyN : Nat := 0
  chkN : Nat := 0
  kN : Nat := 0
  /-- The conditions that hold for the tile, by their status code (R15). -/
  conds : List Nat := []
  /-- The tokens that carry a poison mark. -/
  poison : List Nat := []
  lastTick : Nat := 0
  /-- Found due by the confidence check and not yet taken by the window or delivered (R125). -/
  due : Bool := false
  /-- The outcome of the tile's result: whether it holds a checksum failure and a heavy slab (R140). -/
  chk : Bool := false
  heavy : Bool := false
  /-- The tile's outcome is counted (R140). -/
  settled : Bool := false
  /-- By token: how far the promoted integers of each output lie from the exact product, and the sums of the squares of its
  products; and whether the conditions 2 to 5 of R112 have held throughout. -/
  devs : SMap (List Int) := []
  squares : SMap (List Nat) := []
  bounded : Bool := true
  deriving DecidableEq, Repr

/-- What the join adder knows of one slot of a join (R145, R149). -/
inductive SlotState where
  | waiting
  | issued
  | delivered
  /-- The pass does not deliver, for this status. -/
  | failed (status : Nat)
  deriving DecidableEq, Repr

/-- A join in flight (R145). -/
structure Join where
  entry : Nat
  join : Nat
  tileId : Nat
  /-- The plan word of the join's first pass. -/
  idx : Nat
  shape : Nat
  mode : Nat
  last : Bool
  /-- The tile was found under R154. -/
  found : Bool
  tick : Nat
  /-- The passes of the join, and the words of it that have come (R145). -/
  n : Nat
  seen : Nat
  /-- The state of each of the four join slots, and the slots in the order in which their words came (R170). -/
  slots : List SlotState
  order : List Nat := []
  /-- Per column results, by 256 × slot + 128 × half + token, and the exact ones beside them. -/
  results : SMap (List Int) := []
  exact : SMap (List Int) := []
  /-- Sums of the squares of the products, by 128 × slot + token (R112). -/
  squares : SMap (List Nat) := []
  /-- Ledger terms as column and value, by 128 × slot + token (R146). -/
  ledger : SMap (List (Nat × Int)) := []
  /-- The factor of a transposed pass, by 128 × slot + token (R170). -/
  factors : SMap U32 := []
  /-- The row zero mask of each slot's anvil in a transposed pass (R172). -/
  masks : SMap Nat := []
  /-- The loss is counted already. -/
  lost : Bool := false
  deriving DecidableEq, Repr

/-- A word in an engine's queue (R191). -/
structure Queued where
  idx : Nat
  word : Nat
  /-- The operation has begun. -/
  ran : Bool := false
  deriving DecidableEq, Repr

/-- A drain, or an abort-drain with its signal: the anvils still to complete, each with the first serial number that
is not before it (R80, R82). -/
structure Drain where
  obj : Nat
  sigen : Bool
  abort : Bool
  parts : List (Nat × Nat)
  /-- An abort-drain discarded passes of it (R82). -/
  discarded : Bool := false
  deriving DecidableEq, Repr

/-- The words that a WAIT holds (R193), and whether its condition is known. -/
structure Guard where
  obj : Nat
  cond : Nat
  value : Nat
  consume : Bool
  deadline : Nat
  lo : Nat
  hi : Nat
  /-- none while undecided. -/
  met : Option Bool
  deriving DecidableEq, Repr

/-- The reheat window of the heat (R195, R202). -/
structure Window where
  endTick : Nat
  left : Nat
  used : Nat
  mended : Nat
  unmended : Nat
  idx : Nat
  deriving DecidableEq, Repr

/-- A part of a split tile that has arrived from a peer (R167, R194). -/
structure TreePart where
  node : Nat
  core : Nat
  entry : Nat
  shape : Nat
  /-- The part that a word which found no tile sent (R615). -/
  absent : Bool
  main : List U32
  side : List U32
  clampN : Nat
  zeroN : Nat
  nzN : Nat
  heavyN : Nat
  chkN : Nat
  kN : Nat
  conds : List Nat
  poison : List Nat
  deriving DecidableEq, Repr

/-- A TREE word in the tree adder's queue (R191), with the peer's part that had arrived at its issue (R194). -/
structure TreeOp where
  idx : Nat
  word : Nat
  part : Option TreePart
  deriving DecidableEq, Repr

/-- An epilogue that has begun: the entries it frees, and its output with its status (R15, R164) and the granules that carry
marks (R166). -/
structure EpiOut where
  tiles : List Nat
  status : Nat
  dst : Nat
  data : List Byte
  poison : List Nat
  deriving DecidableEq, Repr

/-- A stream fetched ahead (R190). -/
structure Spare where
  program : Nat
  level : Nat
  /-- The stream's words, and those that were fetched poisoned (R617). -/
  words : List Nat
  poisoned : List Nat
  /-- The directory entry was fetched poisoned (R618). -/
  dead : Bool
  deriving DecidableEq, Repr

/-- An ATTN word on a bellows (R282): the slot-table entries of it that are done. -/
structure AttnOp where
  idx : Nat
  word : Nat
  done : Nat := 0
  deriving DecidableEq, Repr

/-- A walk that waits for the reheat window (R297): its ATTN word with its place in the stream, and its slot-table entry. -/
structure WalkRetry where
  idx : Nat
  word : Nat
  entry : Nat
  deriving DecidableEq, Repr

/-- A core: its sequencer, fuller, vector engine and accumulator path; core 0 of a cluster also holds the state of the
cluster's bellows (R282). -/
structure CoreState where
  stream : List Nat := []
  poisoned : List Nat := []
  spare : Option Spare := none
  /-- The directory entry of the heat's stream was fetched poisoned (R618). -/
  dead : Bool := false
  guards : List Guard := []
  /-- The stream places of the first issued words of the tile entries in this heat (R154). -/
  runs : SMap Nat := []
  window : Option Window := none
  /-- The BOUND word of the heat has issued (R196). -/
  bound : Bool := false
  tiles : SMap Tile := []
  /-- The accumulator store (R150), unlisted words 0. A tile's main, side and hold words follow from its region on, in
  that order, each by token and column. -/
  acc : SMap U32 := []
  joins : List Join := []
  fullQ : List Queued := []
  vecQ : List Queued := []
  treeQ : List TreeOp := []
  epiQ : List Queued := []
  epiOut : List EpiOut := []
  attnQ : List AttnOp := []
  retries : List WalkRetry := []
  /-- The pages that each ATTN word of the cluster has walked in this heat, by its place in the stream (R208). -/
  attnPages : SMap Nat := []
  parts : List TreePart := []
  drains : List Drain := []
  /-- What the drain that completed last reported: whether its passes were discarded (R82). -/
  drainReport : Option Bool := none
  /-- The status of each output that an epilogue has written and that still stands in core store, by its first granule: how many
  granules it takes, and the code (R164, R333). -/
  outputs : SMap (Nat × Nat) := []
  /-- The ticks at which the SAMPLE words in the cluster's sampler and its queue complete (R191, R337). -/
  sampling : List Nat := []
  deriving DecidableEq, Repr

/-- A transfer in flight (R191): the data was read at its issue. -/
structure Transfer where
  core : Nat
  /-- 4 × cluster + tongs, or 128 + core for the core router. -/
  engine : Nat
  node : Nat
  dst : Nat
  data : List Byte
  /-- The granules of the destination that arrive poisoned, by their place. -/
  poison : List Nat
  /-- The statuses of the outputs that it carries whole: the granule of each from the source's first on, how many, and the code. -/
  statuses : List (Nat × Nat × Nat) := []
  /-- Part of the source is absent (R31). -/
  absent : Bool
  obj : Nat
  sop : Nat
  defer : Bool
  idx : Nat
  deriving DecidableEq, Repr

/-- A signal with DEFER that waits for the commit of its heat (R199). -/
structure Deferred where
  die : Nat
  core : Nat
  idx : Nat
  msg : SyncMsg
  deriving DecidableEq, Repr


/-! ### The heat control logic (chapter 05) -/

/-- An entry of a plan's heat table (R181). -/
structure HeatEntry where
  next : Nat
  kind : Nat
  dir : Nat
  attPages : List Nat
  chunkSlots : List Nat
  deriving DecidableEq, Repr

/-- The header and heat table of a plan as it was loaded (R181, R182). Its streams stay in DRAM (R617). -/
structure Plan where
  addr : Nat
  planId : Nat
  hopNs : Nat
  bndGap : Nat
  relLead : Nat
  levels : Nat
  entry : Nat
  totalLen : Nat
  heats : List HeatEntry
  deriving DecidableEq, Repr

/-- An arrival at the boundary, of a module or of a group (R196, R197, R424). -/
structure Arrival where
  node : Nat
  heatNum : Nat
  replay : Bool
  fault : Bool
  unlock : Bool
  level : Nat
  cls : Nat
  missing : Nat
  /-- The next heat is a maintenance heat for which the module asks for voltage or frequency stress (R579). -/
  stress : Bool := false
  deriving DecidableEq, Repr

/-- A release of the boundary (R197, R424), with the class of every group. -/
structure Release where
  heatNum : Nat
  start : Nat
  level : Nat
  replay : Bool
  fault : Bool
  classes : List Nat
  deriving DecidableEq, Repr

/-- The heat control logic of the Phievo die (R182, R221). -/
structure HeatCtl where
  /-- The address of the image that a load in progress reads. -/
  loading : Option Nat := none
  plan : Option Plan := none
  /-- A plan is started: from CTRL.START until a domain fault. -/
  started : Bool := false
  /-- The arrival at the initial barrier waits for sleeping dies (R510). -/
  starting : Bool := false
  /-- The current heat: its program, KIND, LEN + 1, start tick and group class. -/
  prog : Nat := 0
  kind : Nat := 0
  len : Nat := 0
  start : Nat := 0
  cls : Nat := 0
  /-- The dies that have arrived, and those whose admission has finished with the class each proposes (R196, R209). -/
  dies : List Nat := []
  proposals : List (Nat × Nat) := []
  holdDone : Bool := false
  arrived : Bool := false
  /-- At node 0 of a group: the modules that have arrived. At the root: the groups. -/
  modules : List Arrival := []
  groups : List Arrival := []
  release : Option Release := none
  /-- The core set has changed since the plan was loaded (R588). -/
  stale : Bool := false
  /-- At the root: the heat in progress, and the one that comes, has the lead of a change of clock and rail for stress (R579). -/
  stressed : Bool := false
  stressNext : Bool := false
  /-- How many times in succession the heat program has been replayed (R207). -/
  replays : Nat := 0
  deriving DecidableEq, Repr

/-! ### Power, reset and boot (chapter 13) -/

/-- A core reset that waits for its tick or acts (R518, R519). -/
structure CoreReset where
  scope : Nat
  die : Nat
  /-- The core, or the cluster, of the die. -/
  unit : Nat
  tick : Nat
  acting : Bool
  deriving DecidableEq, Repr

/-- Power states, resets and the boot timeline (R505 to R530). -/
structure PowerCtl where
  /-- The dies whose wake is in progress (R511). -/
  waking : List Nat := []
  /-- The steps of the level change that have ended (R505). -/
  clockDone : Bool := true
  railDone : Bool := true
  /-- The lands PWR_OK and RESET_IN_N, and the 48 V input and internal rails in range (R514, R517). -/
  pwrOk : Bool := true
  resetIn : Bool := false
  inputOk : Bool := true
  /-- A management-class reset is held or stretches, and the powered nanoseconds at which its cause ended (R517). -/
  inReset : Bool := false
  causeEnd : Nat := 0
  /-- The boot step in progress, 0 when none is (R525). -/
  step : Nat := 1
  /-- The stress in force, as bits 2:0 of PROOF_CFG (R579). -/
  stress : Nat := 0
  /-- The input power of the last rounds, newest first (R504). -/
  rounds : List Nat := []
  coreResets : List CoreReset := []
  /-- The cores that issue no word until the next plan start (R520). -/
  blocked : List Nat := []
  /-- The Camia dies that are held in reset or powered off: all of them until boot step 7 (R525, R530). -/
  down : List Nat := [0, 1, 2, 3]
  /-- The powered nanoseconds at the last rise of PWR_OK (R525). -/
  origin : Nat := 0
  /-- The firmware has set the locks of the anvil control, monitor, power and board management pages (R545). -/
  locks : Bool := false
  /-- A module fault is raised on FAULT_N (R43, R377, R587). -/
  fault : Bool := false
  deriving DecidableEq, Repr

/-! ### The security processor (chapter 15) -/

/-- The attestation certificate: the attestation public key, MR0, MR1 and the boot count, signed by the identity key (R560). -/
structure AttCert where
  key : List Byte
  mr0 : List Byte
  mr1 : List Byte
  boots : Nat
  signature : List Byte
  deriving DecidableEq, Repr

/-- The security processor's keys, measurements and unlock state (R559 to R574). -/
structure Security where
  /-- The identity and the attestation key that this boot has derived, and the attestation certificate (R559, R560). -/
  identity : List Byte := []
  attestation : List Byte := []
  certificate : Option AttCert := none
  /-- MR0 to MR7 (R563). -/
  mrs : List (List Byte) := List.replicate 8 (List.replicate 32 0)
  /-- The installed keys, by 256 × kind + tenant: kind 0 access, 1 scope, 2 billet; tenants 0xFE and 0xFF of kind 0 are
  the storage and the operator access key (R571). -/
  keys : SMap (List Byte) := []
  deriving DecidableEq, Repr

/-! ### The mesh (chapter 11) -/

/-- What a port holds beside its page (R433, R439). -/
structure PortState where
  /-- The port trains, and the hop figures its TRAIN cells have given, in half nanoseconds (R433). -/
  training : Bool := false
  figures : List Nat := []
  /-- The check of its neighbour (R439): none before it. -/
  wired : Option Bool := none
  /-- The port has solicited its gateway (R443, R444). -/
  solicited : Bool := false
  deriving DecidableEq, Repr

/-- The mesh state of the module (R422 to R442). -/
structure MeshState where
  /-- The BRIDGE_SEL land is tied to ground (R437). -/
  bridgeSel : Bool := false
  ports : SMap PortState := []
  /-- The next SEQ, by 2 × port, plus 1 for express cells (R422). -/
  seqs : SMap Nat := []
  /-- The mesh ports with an installed secure association key (R420). -/
  keyed : List Nat := []
  /-- An enumeration token has been received, and the wiring report is sent (R438, R439). -/
  token : Bool := false
  reported : Bool := false
  /-- At the bridge: the wiring reports, by node (R439). -/
  reports : List (Nat × Bool) := []
  groupFailed : Bool := false
  /-- At the bridge: the distance of each other bridge seen on the ring, and what its own cell brought back (R440). -/
  ring : List (Nat × Nat) := []
  closed : Option (Nat × Nat) := none
  /-- The counter has been set in one step, and the timing messages in succession within the limits (R254). -/
  stepped : Bool := false
  inLimits : Nat := 0
  /-- Transfers whose earlier frames were not written whole: source and next address (R31, R241). -/
  broken : List (Nat × Nat) := []
  /-- The bytes so far of a part of a split tile on its way here, by source and agent (R169). -/
  parts : SMap (List Byte) := []
  deriving DecidableEq, Repr

/-! ### The page store and the requests (chapters 07 and 08) -/

/-- A page list of a sequence (R277): where its published version stands, that version's entries and LIST_GEN, and the
entries that the next commit publishes (R294, R295). -/
structure SeqList where
  addr : Nat
  gen : Nat
  pub : List Nat
  ents : List Nat
  deriving DecidableEq, Repr

/-- A page granted, with its layer slot and block, whose grant takes effect at the next commit (R199). -/
structure Grant where
  page : Nat
  lslot : Nat
  block : Nat
  deriving DecidableEq, Repr

/-- A sequence, or this module's shard of one (R276, R330). -/
structure Sequence where
  seqId : Nat
  tenant : Nat
  /-- The home die on this module. -/
  die : Nat
  dir : Nat
  ovf : Nat
  striped : Bool
  modelGen : Nat
  oldGen : Bool := false
  shard : Nat
  nshard : Nat
  /-- LENGTH as published. -/
  length : Nat := 0
  lists : List SeqList := []
  grants : List Grant := []
  /-- The prefix-table entries that the sequence holds (R304, R306). -/
  tree : List Nat := []
  /-- The digests of the prompt's whole blocks (R302), and the blocks whose digest collided. -/
  digests : List (List Byte) := []
  collided : List Nat := []
  /-- PAGE_STARVED, and whether an overflow token waits (R298, R299). -/
  starved : Bool := false
  overflow : Bool := false
  deriving DecidableEq, Repr

/-- A request as its die control processor holds it: granules 0 and 1 as copied at acceptance (R318), and what granule 2
of the record shows (R315). -/
structure Request where
  copy : List Byte
  tenant : Nat
  state : Nat
  status : Nat := 0
  endReason : Nat := 0
  oldGen : Bool := false
  ttftMiss : Bool := false
  tbtMiss : Bool := false
  seqId : Nat := 0
  emitted : Nat := 0
  modelGen : Nat := 0
  tArrive : Nat
  tFirst : Nat := 0
  tLast : Nat := 0
  maxGap : Nat := 0
  adpSlot : Nat := 0xFFFF
  draftProp : Nat := 0
  draftAcc : Nat := 0
  gstate : Nat := 0
  /-- DRAFT_K_NEXT (R344). -/
  draftNext : Nat := 0
  /-- The latest gap, and whether a miss of the gap now running is reported (R321). -/
  lastGap : Nat := 0
  gapMissed : Bool := false
  cancelled : Bool := false
  /-- Emitted tokens that a refill of the prompt carries (R376). -/
  refill : Nat := 0
  /-- The control processor's copy of the granule of OUT that it writes: its address and bytes (R332). -/
  outCopy : Option (Nat × List Byte) := none
  deriving DecidableEq, Repr

/-- A slot-table entry that a die control processor has filled (R324, R326, R330). The sequence is a record number, or
8,192 × (1 + home node) + record on a holding module. -/
structure SlotUse where
  entry : Nat
  kind : Nat
  seq : Nat
  home : Nat := 0x1FF
  ntok : Nat
  pos : Nat := 0
  last : Bool := false
  adp : Nat := 0xFFFF
  overflowIn : Bool := false
  overflow : Bool := false
  pinned : Bool := false
  /-- The holding modules whose acknowledgement is to come. -/
  awaited : List Nat := []
  deriving DecidableEq, Repr

/-- A copy-on-write copy in progress (R300). -/
structure PageCopy where
  seq : Nat
  lslot : Nat
  index : Nat
  source : Nat
  target : Nat
  deriving DecidableEq, Repr

/-- What one die control processor holds. -/
structure DieServing where
  /-- The slots of the current heat, and those filled for the next one. -/
  cur : List SlotUse := []
  next : List SlotUse := []
  /-- The adapter list of the current heat, that of the next one, and the places of it that are staged (R328). -/
  adpNow : List Nat := []
  adpNext : List Nat := []
  staged : List Nat := []
  /-- The class proposed for the next heat. -/
  cls : Nat := 0
  /-- The bank of the next heat is filled (R322, R323). -/
  filled : Bool := false
  /-- Records found submitted: record, tenant and T_ARRIVE (R317). -/
  found : List (Nat × Nat × Nat) := []
  /-- Free memory for lists and page sets (R295). -/
  space : List Nat := []
  copies : List PageCopy := []
  /-- The tick of the latest admission note for the next heat (R330). -/
  noted : Option Nat := none
  deriving DecidableEq, Repr

/-- The serving state of the module's die control processors. -/
structure Serving where
  dies : SMap DieServing := []
  /-- The requests in STATE 2 to 5, by record. -/
  reqs : SMap Request := []
  seqs : SMap Sequence := []
  /-- The pages held and by how many holders, and those held for another allocation die (R279). -/
  refs : SMap Nat := []
  remote : List Nat := []
  /-- Pages that no version holds any more, with the epoch of R296. -/
  retired : List (Nat × Nat) := []
  /-- The starved sequences, in the order in which they starved (R299). -/
  starved : List Nat := []
  /-- The pages of the valid prefix-table entries (R303). -/
  sets : SMap (List Nat) := []
  /-- The tenant of the session that last wrote a record (R318). -/
  writers : SMap Nat := []
  /-- The highest generation of each adapter identity (R341). -/
  adpGens : SMap Nat := []
  /-- Loads in progress: record and slot; and slots that become ready at the next commit (R342). -/
  loads : List (Nat × Nat) := []
  ready : List (Nat × Nat) := []
  /-- The status codes of the walks of this heat by 4,096 × die + entry, and the entries whose request ends (R283). -/
  walked : SMap (List Nat) := []
  /-- The status codes of the outputs that held the logits of an entry, by the same number (R333). -/
  logits : SMap (List Nat) := []
  broken : List Nat := []
  deriving DecidableEq, Repr

/-! ### Staged commit (chapter 14) -/

/-- A commit that is being checked or is pending (R547 to R550, R620). -/
structure Commit where
  tag : Nat
  /-- The page list as submitted: its address and length, or on the housekeeping path the pages (R620). -/
  list : Nat := 0
  n : Nat := 0
  pages : List Nat := []
  maint : Bool := false
  apply : Nat := 0
  /-- The tick of the SUBMIT. -/
  submitted : Nat := 0
  hk : Bool := false
  /-- The commit is a temper set (R483, R487). -/
  temper : Bool := false
  /-- The check has passed: the commit is pending and holds its pages (R549). -/
  pending : Bool := false
  deriving DecidableEq, Repr

/-- The commit controller. -/
structure CommitCtl where
  commits : List Commit := []
  nextTag : Nat := 1
  /-- Block resets accepted and the ticks at which they act (R521). -/
  resets : List (Nat × Nat) := []
  deriving DecidableEq, Repr

/-! ### Memory pages (chapter 10) -/

/-- A range of granules whose valid bits are being cleared: how many of its map granules are clear, and whether it was
withdrawn from a tenant (R393, R576). -/
structure ClearRange where
  lo : Nat
  hi : Nat
  cleared : Nat := 0
  tenant : Bool := false
  deriving DecidableEq, Repr

/-- What a memory page has in hand. -/
structure MemCtl where
  /-- The VM_CLEAR in progress, and those that follow it. -/
  clears : List ClearRange := []
  /-- The DRAM block whose repair copies, as stack of the die and block (R410). -/
  copy : Option (Nat × Nat) := none
  deriving DecidableEq, Repr

/-! ### Billets and programming (chapter 09) -/

/-- A fetch request in progress: its place, the tick at which it was last sent, the bytes that have arrived and how often it was
sent again (R359). -/
structure FetchReq where
  index : Nat
  sent : Nat
  got : Nat := 0
  again : Nat := 0
  deriving DecidableEq, Repr

/-- An anvil in a batch of a program engine (R362). -/
structure BatchAnvil where
  anvil : Nat
  /-- The logical anvil whose weights it takes: 64 × core + anvil. -/
  logical : Nat
  /-- The anvil is a free spare, else it is programmed in place. -/
  spare : Bool
  /-- The base of the shard that holds the weights. -/
  shard : Nat
  /-- The program re-forges the anvil (R372). -/
  reforge : Bool := false
  /-- The layer of the weights (R382). -/
  layer : Nat := 0
  /-- The new ledger, and whether a pair cannot be mended (R84 to R86). -/
  ledger : List Nat := []
  unmendable : Bool := false
  /-- The measured gain in ppm, offset in 1/256 unit and residual in ppm of the test passes (R363). -/
  gain : Int := 0
  offs : Int := 0
  resid : Nat := 0
  deriving DecidableEq, Repr

/-- A batch of a die's program engine: the next row, and whether the test passes are struck. -/
structure Batch where
  anvils : List BatchAnvil
  row : Nat := 0
  settled : Bool := false
  deriving DecidableEq, Repr

/-- The billet controller and the program engines (R352 to R377). -/
structure BilletCtl where
  /-- The load descriptor as it was fetched: KIND, TENANT, LENGTH, OBJECT and SHA256. -/
  kind : Nat := 0
  tenant : Nat := 0xFF
  length : Nat := 0
  object : Nat := 0
  sha : List Byte := []
  reqs : List FetchReq := []
  /-- The place of the next request to send. -/
  nextReq : Nat := 0
  /-- The layers still to replace, the current one first, and its logical anvils still to program. -/
  layers : List Nat := []
  todo : List Nat := []
  /-- A replacement runs (R373), and has ended with settings that the next heat start applies (R374). -/
  replacing : Bool := false
  replaced : Bool := false
  /-- The program that a held heat displaced (R373). -/
  displaced : Option Nat := none
  batches : SMap Batch := []
  /-- The time at which a die's last batch ends, in tenths of a nanosecond (R363, R372). -/
  ends : SMap Nat := []
  /-- The layer of the weights that an anvil last took, since power-on (R382). -/
  layerOf : SMap Nat := []
  /-- Anvils to program once more (R364), and anvils whose retirement is requested (R87). -/
  again : List Nat := []
  retire : List Nat := []
  /-- Anvils that a re-forge is scheduled for (R74, R372, R486). -/
  reforge : List Nat := []
  /-- Anvil pages whose staged settings apply at the next heat start (R372, R374). -/
  staged : List Nat := []
  deriving DecidableEq, Repr

/-! ### Housekeeping (chapter 12) -/

/-- A monitor converter (R465 to R476). -/
structure Converter where
  /-- MC_CFG, the regular and the injected steps as the last start of step 0 found them (R471). -/
  cfg : Nat := 0
  steps : List Nat := []
  inj : List Nat := []
  /-- The injected step in progress. -/
  injStep : Nat := 0
  /-- The channels of CH_MINMAX that hold a result since they were last read (R473). -/
  held : List Nat := []
  /-- The last result of channel 0, with its tick (R477). -/
  diode : Option (Nat × Nat) := none
  /-- The tick of the last ring entry (R474). -/
  ringTick : Option Nat := none
  /-- The triggers that have occurred and not yet reached the sequencer: 0 witness, 1 rate of rise, 2 droop (R468). -/
  alarms : List Nat := []
  /-- The first anvil of the witness alarm: anvil in bits 6:0, core in bits 13:7; and whether it waits for the injected sequence
  that is pending (R469, R470). -/
  witness : Nat := 0
  witnessNext : Bool := false
  /-- The tick at which the self-calibration in progress began (R475). -/
  calSince : Nat := 0
  /-- Droop trips in this round (R504). -/
  droops : Nat := 0
  deriving DecidableEq, Repr

/-- The trim record of the module (R490): for each core G and F at the five temperatures, and for each die the diode's
ideality factor and offset, DROOP_THR and the reference trim, and the error of the bandgap. -/
structure TrimRecord where
  /-- The cores whose sets are not the mid-codes at every temperature. -/
  sets : SMap (List (Nat × Int)) := []
  diodes : SMap (Nat × Int) := []
  droop : List Nat := [0, 0, 0, 0, 0]
  /-- The reference trim of each die, and the factory error of the Phievo bandgap, in ppm (R490, R492). -/
  refs : List Int := [0, 0, 0, 0, 0]
  bandgap : Int := 0
  deriving DecidableEq, Repr

/-- The housekeeping processor and the drift engines (R477 to R493). -/
structure Housekeeping where
  converters : SMap Converter := []
  /-- The readings of the last 8 rounds of a die, newest first, in 1/16 °C. -/
  temps : SMap (List (Option Int)) := []
  /-- The tick of the last level step, and since when every die has been cool (R480). -/
  lastStep : Option Nat := none
  coolSince : Option Nat := none
  /-- Successive rounds in which every die read below QUENCH_CLR (R484). -/
  clearRounds : Nat := 0
  /-- Rounds in succession in which a die's reading was invalid, and the tick at which a die left WARN (R482, R486). -/
  invalid : SMap Nat := []
  warnLeft : SMap Nat := []
  /-- The dies that have had a valid reading since reset (R481). -/
  seen : List Nat := []
  /-- The Camia clocks are stopped by a quench (R483). -/
  stopped : Bool := false
  /-- The soak duty of the dies that soak, in 1/256 (R580). -/
  soak : SMap Nat := []
  /-- The learned corrections cg and cf of the anvils, those that are zero left out (R485). -/
  corr : SMap (Int × Int) := []
  /-- The base trims that a die's last pass used, by core, while they are not the mid-codes (R488). -/
  base : SMap (Nat × Int) := []
  /-- The dies whose temper pass is in progress, with the tick of its boundary (R486). -/
  passes : SMap Nat := []
  /-- Reference corrections staged with the next temper commit, and corrections in succession above 1,000 ppm (R493). -/
  refStaged : SMap Int := []
  /-- The reference trims in force that are not 0, in ppm (R490, R493). -/
  refTrim : SMap Int := []
  refHigh : SMap Nat := []
  /-- How often a die's temper interval is halved, and its successive snapshots within DRIFT_LIM since (R117). -/
  halved : SMap (Nat × Nat) := []
  deriving DecidableEq, Repr

/-! ### Flash, fuses and the security processor's work (chapters 13, 15) -/

/-- A copy of a record in flash: whether its CRC or signature passes, its security version, and its SHA-256. -/
structure FlashCopy where
  ok : Bool := true
  svn : Nat := 0
  /-- The firmware key that signed a firmware image (R559, R561). -/
  key : Nat := 0
  sha : List Byte := List.replicate 32 0
  deriving DecidableEq, Repr

/-- The fuse map as it left Nyavarin (R2, R3, R39, R409): the usable cores at shipment that the ordering part number names,
the cores fenced and those whose routers are dead, and the factory repairs. -/
structure FuseMap where
  grade : Nat := 512
  fenced : List Nat := []
  dead : List Nat := []
  repairs : List Repair := []
  deriving DecidableEq, Repr

/-- Flash and fuses apart from the history: the fuse map, copies A and B of the option record, the trim record and the
firmware image, the trim record's content, the fuses, and the module's identity (R3, R490, R527, R559 to R561). -/
structure Flash where
  fuses : FuseMap := {}
  option : List FlashCopy := [{}, {}]
  trim : List FlashCopy := [{}, {}]
  firmware : List FlashCopy := [{}, {}]
  record : TrimRecord := {}
  rbCount : Nat := 0
  /-- The fuses FW_REVOKE: bit i revokes firmware key i (R559). -/
  fwRevoke : Nat := 0
  /-- The fused seed, which only the key derivation reads; the identity certificate and its issuing chain; and the boot count
  (R559, R560). -/
  seed : List Byte := List.replicate 32 0
  idCert : List Byte := []
  idChain : List (List Byte) := []
  boots : Nat := 0
  deriving DecidableEq, Repr

/-- What the security processor has in hand. -/
structure SecWork where
  /-- The quote in progress: where it is written and its bytes (R565). -/
  quote : Option (Nat × List Byte) := none
  /-- Sequence numbers of quotes and challenges, and the tick of the open challenge (R573, R577). -/
  quotes : Nat := 0
  challenges : Nat := 0
  challenge : Option Nat := none
  /-- Failed unlock attempts since power-on (R573). -/
  tries : Nat := 0
  /-- The key load in progress: the key's place among the keys and its bytes, or none of them (R571). -/
  keyLoad : Option (Nat × List Byte) := none
  /-- Fuses are being blown (R562). -/
  blowing : Bool := false
  /-- The dump in progress: address, offset and length in 4 KiB units (R589). -/
  dump : Option (Nat × Nat × Nat) := none
  /-- The maintenance heat whose proof outputs are compared: its program, whether any stress was in force, and whether its
  temperatures held (R578 to R581). -/
  proof : Option (Nat × Bool × Bool) := none
  /-- The I3C register-space offset (R606), and the state of the IEEE 1149.1 TAP (R600). -/
  i3cOffset : Nat := 0
  tap : Nat := 0
  deriving DecidableEq, Repr

/-! ### The host bridge (chapter 11) -/

/-- A message that the bridge has sent and that is not acknowledged, or waits for the window (R451). -/
structure BhtOut where
  op : Nat
  msg : BhtMsg
  sentAt : Nat := 0
  timeouts : Nat := 0
  again : Bool := false
  deriving DecidableEq, Repr

/-- A WRITE operation in progress (R454). -/
structure BhtOp where
  opid : Nat
  node : Nat
  conds : List Nat := []
  /-- The DONE frame of its destination is awaited (R455). -/
  awaited : Bool := false
  /-- Part of it lies at an address that is absent (R31). -/
  absent : Bool := false
  deriving DecidableEq, Repr

/-- A session, or a handshake that is not finished (R447 to R453). -/
structure BhtSession where
  /-- The host's address, from its INIT (R444, R448). -/
  source : Nat := 0
  /-- The two keys of 32 bytes and the two salts of 4 bytes (R448). -/
  keys : List Byte := []
  role : Nat
  isOpen : Bool := false
  /-- The order in which sessions opened. -/
  order : Nat := 0
  since : Nat
  heard : Nat := 0
  transcript : List Byte
  pnOut : Nat := 1
  pnHigh : Nat := 0
  pnSeen : List Nat := []
  /-- The next MSN to receive, the messages received beyond it with their OP, and the messages received since the last packet sent. -/
  msnIn : Nat := 1
  early : List (Nat × BhtMsg) := []
  unacked : Nat := 0
  msnOut : Nat := 1
  flying : List BhtOut := []
  waiting : List BhtOut := []
  window : Nat := 64
  /-- Messages acknowledged since the window last grew, and the tick at which it was last halved. -/
  acked : Nat := 0
  halved : Option Nat := none
  /-- SRTT and RTTVAR in ns, none before the first measurement (R451). -/
  rtt : Option (Nat × Nat) := none
  eceUntil : Option Nat := none
  ops : List BhtOp := []
  /-- Watched objects, with the tick of the last NOTIFY of each. -/
  watch : List (Nat × Option Nat) := []
  deriving DecidableEq, Repr

/-- A fetch request that the bridge serves: OPID, requester, object, offset, and the bytes asked for and still to come. -/
structure StoreReq where
  opid : Nat
  node : Nat
  object : Nat
  offset : Nat
  len : Nat
  deriving DecidableEq, Repr

/-- The BHT engine of the bridge and the host ports. -/
structure BhtState where
  sessions : SMap BhtSession := []
  opened : Nat := 0
  /-- Which cookie key is in force (R448). -/
  cookieKey : Nat := 0
  /-- The second in which handshakes were last signed, and how many (R449). -/
  signed : Nat × Nat := (0, 0)
  stores : List StoreReq := []
  /-- The gateway's MAC address as resolved, and the tick of the last AUTH_DROP event (R444, R450). -/
  gateway : Option Nat := none
  authEvent : Option Nat := none
  deriving DecidableEq, Repr

/-- The payload of a mesh frame the module sends (R424, R425). -/
inductive Cell where
  | signal (obj sop value agent : Nat) (defer : Bool)
  | barArrive (obj agent : Nat)
  | barRelease (obj : Nat)
  | barFault (obj : Nat)
  | heatArrive (heatNum : Nat) (replay fault unlock : Bool) (level cls missing : Nat) (stress : Bool)
  | heatRelease (heatNum start level : Nat) (replay fault : Bool) (classes : List Nat)
  | timing (role t1 t2 t3 offMaster offGroup : Nat)
  | train (role seq sent turnaround : Nat)
  | hello (nodeId groupId port serial : Nat) (nodeValid groupValid report wiringOk : Bool)
  | ringDisc (origin smallest groups : Nat)
  | fault (node evt : Nat)
  | done (opid status session : Nat)
  | data (h : DataHdr) (payload : List Byte)
  deriving DecidableEq, Repr

/-- What the module has sent to its processors, the links, the host and the board. -/
inductive Out where
  /-- A notification of an event: destination 0 housekeeping, 1 management, 2 die control, 3 security (R539). -/
  | notify (dest page bit : Nat)
  /-- An in-band interrupt with its payload, the block number (R607). -/
  | ibi (block : Nat)
  /-- A part of a split tile for a core of another module (R167, R169). -/
  | treePart (node core : Nat) (part : TreePart)
  /-- A plan word in hand that a reset ends: its core, opcode, place in the stream, and RESET_LOST (R522, R614). -/
  | wordLost (core op idx status : Nat)
  /-- A token value on ENUM_OUT_N (R438). -/
  | enumOut (value : Nat)
  /-- A mesh frame as it leaves a port: the header's SRC, DST, HOPS, SEQ and HEAT, and its payload (R422). -/
  | frame (port src dst hops seq heat : Nat) (broadcast : Bool) (c : Cell)
  /-- An admission note to a holding module, on the background class (R330). -/
  | shardNote (node die entry kind ntok pos pages rec : Nat)
  /-- The acknowledgement of one. -/
  | shardAck (node die entry : Nat) (starved : Bool)
  /-- A fetch request to the group's bridge: object, offset and length (R359). -/
  | fetchRequest (object offset len : Nat)
  /-- The bridge's packets: RETRY with its cookie, ACCEPT of a session with the transcript hash it signs, and a DATA
  packet (R445, R448). -/
  | bhtRetry (source : Nat) (cookie : List Byte)
  | bhtAccept (session : Nat) (transcript : List Byte) (certs : List (List Byte)) (signature : List Byte)
  | bhtData (session pn op : Nat) (ece : Bool) (msg : BhtMsg)
  /-- What a host port sends beside packets: a Neighbor Advertisement of an address to a MAC address, a solicitation of the
  gateway, and an LLDP frame (R444). -/
  | advert (port target mac : Nat)
  | solicit (port target : Nat)
  | lldp (port serial grade usable : Nat)
  /-- What the target sends in ENTDAA: its provisioned identifier, BCR and DCR (R605). -/
  | i3cId (pid bcr dcr : Nat)
  /-- The word that an I3C read returns (R606). -/
  | i3cWord (value : Nat)
  /-- The pair of a CH_MINMAX register as read (R543). -/
  | minmax (die ch value : Nat)
  deriving DecidableEq, Repr

/-- The core routers (R40, R42). -/
structure Fabric where
  /-- The routing tables in force, by cluster: the detours, by 16 × source + destination in the cluster, each as the routers
  it passes after its source. What is not listed takes the dimension-order route. -/
  tables : SMap (SMap (List Nat)) := []
  /-- The cores whose routers have failed in service and wait for the next maintenance commit. -/
  failed : List Nat := []
  /-- The cores whose fenced routers still hold packets, with the transfers that these belong to. -/
  closing : SMap (List Transfer) := []
  deriving DecidableEq, Repr

/-- The module apart from its memory. -/
structure Device where
  /-- The registers that do not hold their reset value, and staged images, by register-space offset (R534). -/
  regs : SMap U32 := []
  /-- The tick counters of C0 to C3 and of the Phievo die (R251). -/
  ticks : Vector Nat 5 := #v[0, 0, 0, 0, 0]
  /-- The part of a tick that the counters' steered rate has gathered, in 10⁻⁹ ticks (R252). -/
  tickPart : Nat := 0
  hist : History := {}
  sync : SyncUnit := {}
  /-- The physical anvils, by 68 × core + anvil. -/
  anvils : SMap AnvilState := []
  cores : SMap CoreState := []
  transfers : List Transfer := []
  deferred : List Deferred := []
  /-- A tenant whose tile was delivered UNMENDED in this heat asks for a replay (R205). -/
  replayAsked : Bool := false
  heat : HeatCtl := {}
  power : PowerCtl := {}
  fabric : Fabric := {}
  mesh : MeshState := {}
  serving : Serving := {}
  sec : Security := {}
  commits : CommitCtl := {}
  mems : SMap MemCtl := []
  billet : BilletCtl := {}
  hk : Housekeeping := {}
  rom : Flash := {}
  work : SecWork := {}
  bht : BhtState := {}
  /-- What the module has sent: notifications, frames, packets and bus responses, oldest first. -/
  sent : List Out := []
  /-- The model's own: how many free values the steps have taken from Config. -/
  free : Nat := 0
  deriving DecidableEq, Repr

/-- The module: its memory and everything else. -/
structure Part where
  mem : Memory := {}
  dev : Device := {}
  deriving DecidableEq, Repr

/-- The machine: the commands that wait, first in first out, and the module. -/
structure State where
  pending : List Instr := []
  part : Part := {}
  deriving DecidableEq, Repr

/-- Why a step stops. No command of the spec stops the module, so no meaning raises it; it is what a step would
answer for a stopped machine. Safe: nothing is claimed after it. -/
inductive Fault where
  /-- Raised by no meaning. Safe. -/
  | stopped
  deriving DecidableEq, Repr

/-- Why a step is refused. -/
inductive Refusal where
  /-- The command has no meaning in the model yet. Raised by the arms of Dispatch.lean only. Safe. -/
  | notModelled (mnemonic : String)
  deriving DecidableEq, Repr

/-- The machine right after the power-on reset that a rise of PWR_OK causes, with boot step 1 in progress: RST_CAUSE names PWR_OK
(R514, R525, R531). -/
def State.reset : State := { part := { dev := { regs := [(pagePwr + 0x140, 2)] } } }

end Sys2Proof.Machine
end

