-- ==== Sys2Proof/Machine/Ops.lean ====
section
/-! DEFINITION. The named operations over registers, events, the history and memory that every meaning shares. -/

namespace Sys2Proof.Machine

/-! ### Registers -/

/-- The word of a register-space offset: what was written last, else its reset value (R538). -/
def Device.get (d : Device) (off : Nat) : Nat :=
  match smapFind d.regs off with
  | some v => v.toNat
  | none => resetValue off

/-- The device with the word of an offset set. -/
def Device.set (d : Device) (off v : Nat) : Device := { d with regs := smapSet d.regs off (BitVec.ofNat 32 v) }

/-- A 64-bit register, low word first (R9). -/
def Device.get64 (d : Device) (off : Nat) : Nat := d.get off + 2 ^ 32 * d.get (off + 4)

/-- The device with a 64-bit register set. -/
def Device.set64 (d : Device) (off v : Nat) : Device := (d.set off v).set (off + 4) (v / 2 ^ 32)

/-- A word with its bits hi down to lo replaced. -/
def withBits (w hi lo v : Nat) : Nat :=
  w - bits w hi lo * 2 ^ lo + v % 2 ^ (hi + 1 - lo) * 2 ^ lo

/-- The device with a field of a register set. -/
def Device.setBits (d : Device) (off hi lo v : Nat) : Device := d.set off (withBits (d.get off) hi lo v)

/-- The device with words set from an offset on. -/
def Device.setWords (d : Device) (off : Nat) : List Nat → Device
  | [] => d
  | w :: l => (d.set off w).setWords (off + 4) l

/-- The device with a saturating 32-bit counter grown (R94). -/
def Device.count (d : Device) (off : Nat) (n : Nat := 1) : Device := d.set off (satAdd (d.get off) n)

/-- The device with a 64-bit counter grown. -/
def Device.count64 (d : Device) (off n : Nat) : Device := d.set64 off ((d.get64 off + n) % 2 ^ 64)

/-- The device with every register of a range of words back at its reset value. -/
def Device.resetRange (d : Device) (lo hi : Nat) : Device := { d with regs := smapEraseRange d.regs lo hi }

/-! ### Ticks -/

/-- The tick counter of a die, 4 for the Phievo die (R251) (readings: log entry 29). -/
def Device.tick (d : Device) (p : Nat) : Nat := d.ticks[p]?.getD 0

/-- The tick that events on a page carry: that of the counter of the page's die (readings: log entry 29). -/
def Device.pageTick (d : Device) (page : Nat) : Nat := d.tick (if offDie page = 8 then 4 else offDie page)

/-- The seconds of HIST_SEC after time has passed (R585) (readings: log entry 29). -/
def History.elapse (h : History) (n : Nat) : History :=
  { h with sec := h.sec + (h.nanos + n) / 1000000000, nanos := (h.nanos + n) % 1000000000 }

/-- The parts of a tick, in 10⁻⁹ ticks, by which the counters advance in a nanosecond: the nominal rate with the steering of
TB_RATE, within ±100 ppm (R252). -/
def Device.tickRate (d : Device) : Nat :=
  let r := d.get (pageTb 4 + 0x10C)
  if r < 2 ^ 31 then 1000000000 + Nat.min r 100000 else 1000000000 - Nat.min (2 ^ 32 - r) 100000

/-- The device after n nanoseconds: every counter advances together at the steered rate (R251 to R253) (readings: log entry 29). -/
def Device.elapse (d : Device) (n : Nat) : Device :=
  let p := d.tickPart + n * d.tickRate
  { d with ticks := d.ticks.map (fun t => (t + p / 1000000000) % 2 ^ 64), tickPart := p % 1000000000, hist := d.hist.elapse n }

/-- The device no earlier than a tick of the Phievo die (readings: log entry 29). -/
def Device.reach (d : Device) (t : Nat) : Device := d.elapse (ceilDiv ((t - d.tick 4) * 1000000000 - d.tickPart) d.tickRate)

/-! ### Events, captures and the access log -/

/-- The device with something sent (readings: log entry 30). -/
def Device.send (d : Device) (o : Out) : Device := { d with sent := d.sent ++ [o] }

/-- Notification of an event to each destination of EVT_ROUTE (R539); an in-band interrupt counts in BM_IBI_CNT
(R607, R609). FAULT_N follows from the register (R538) (readings: log entry 30). -/
def Device.notifyEvent (d : Device) (page b : Nat) : Device :=
  let route := d.get (page + 0x18)
  let d := if bit route 0 then d.send (.notify 0 page b) else d
  let d := if bit route 1 then d.send (.notify 1 page b) else d
  let d := if bit route 2 then d.send (.notify 2 page b) else d
  let d := if bit route 3 then d.send (.notify 3 page b) else d
  if bit route 4 then (d.count (pageBrd + 0x108)).send (.ibi (offBlock page)) else d

/-- An event sets its EVT bit, and notifies when the bit changes to 1 and is enabled (R539). -/
def Device.raise (d : Device) (page b : Nat) : Device :=
  let evt := d.get (page + 0x10)
  if bit evt b then d
  else
    let d := d.set (page + 0x10) (evt + 2 ^ b)
    if bit (d.get (page + 0x14)) b then d.notifyEvent page b else d

/-- A capture: filled while FULL is 0, counted in MISSED otherwise (R540). -/
def Device.capture (d : Device) (page : Nat) (words : List Nat) : Device :=
  let c := d.get (page + 0x1C)
  if bit c 0 then d.set (page + 0x1C) (withBits c 15 8 (Nat.min (bits c 15 8 + 1) 0xFF))
  else (d.setWords (page + 0x20) (padTo 8 0 words)).set (page + 0x1C) (withBits c 0 0 1)

/-- An event that its page captures: word 0, the tick in words 1 and 2, and the words from 3 on. -/
def Device.event (d : Device) (page b word0 : Nat) (rest : List Nat := []) : Device :=
  let t := d.pageTick page
  (d.raise page b).capture page ([word0, t % 2 ^ 32, t / 2 ^ 32] ++ rest)

/-- An event whose word 0 holds the status code in bits 7:0 and the EVT bit number in bits 15:8. -/
def Device.eventSt (d : Device) (page b status : Nat) (rest : List Nat := []) : Device :=
  d.event page b (status + b * 0x100) rest

/-- The access log (R542, R557): the first logged access is held, and every one is counted. -/
def Device.logAccess (d : Device) (kind off data agent : Nat) : Device :=
  let d := (d.count (pageCom + 0x13C)).raise pageCom 2
  if bit (d.get (pageCom + 0x140)) 31 then d
  else
    let t := d.tick 4
    d.setWords (pageCom + 0x140) [2 ^ 31 + kind, off, data, agent, t % 2 ^ 32, t / 2 ^ 32]

/-- The agent identity of a Phievo processor: 0 security, 1 housekeeping, 2 management, 3 bridge, 4 heat control
logic, 5 board management interface (R226). The node address is that of the mesh page. -/
def Device.node (d : Device) : Nat := bits (d.get (pageMesh + 0x104)) 8 0
/-- An agent identity from its node, kind and index (R226). -/
def agentId (node kind index : Nat) : Nat := node * 2 ^ 17 + kind * 2 ^ 14 + index
/-- The node of an identity. -/
def agentNode (a : Nat) : Nat := bits a 25 17
/-- The kind of an identity. -/
def agentKind (a : Nat) : Nat := bits a 16 14
/-- The index of an identity. -/
def agentIndex (a : Nat) : Nat := bits a 13 0

/-! ### Status codes (R13) -/

def stOk : Nat := 0x00
def stMended : Nat := 0x01
def stUnmended : Nat := 0x02
def stPoisoned : Nat := 0x03
def stBoundVoid : Nat := 0x04
def stChecksum : Nat := 0x05
def stStarved : Nat := 0x06
def stListChanged : Nat := 0x07
def stTimeout : Nat := 0x08
def stBarrierFault : Nat := 0x09
def stOverrun : Nat := 0x0A
def stResetLost : Nat := 0x0B
def stTenant : Nat := 0x0C
def stCrcFail : Nat := 0x0D
def stTrimInvalid : Nat := 0x0E
def stNarrow : Nat := 0x0F
def stHeavy : Nat := 0x10

/-- The codes of R15, the one that stands first in front. -/
def statusOrder : List Nat :=
  [stPoisoned, stTrimInvalid, stResetLost, stTenant, stNarrow, stCrcFail, stListChanged, stBarrierFault, stTimeout] ++
  [stStarved, stChecksum, stUnmended, stBoundVoid, stHeavy, stOverrun, stMended, stOk]

/-- The code a status field carries when several conditions apply (R15). -/
def statusOf (conds : List Nat) : Nat := (statusOrder.find? (fun c => conds.contains c)).getD stOk

/-! ### The history (R582 to R586) -/

/-- Where a class stands in a record's slots. -/
def slotIndex (slots : List ClassSlot) (cls : Nat) : Option Nat := slots.findIdx? (fun s => s.cls == cls)

/-- The transient slot with the oldest last tick (R584). -/
def oldestTransient (slots : List ClassSlot) : Option Nat :=
  match (slots.filter (fun s => s.state == 0)).foldl
      (fun best s => match best with
        | none => some s
        | some b => if s.last < b.last then some s else some b) none with
  | none => none
  | some s => slotIndex slots s.cls

/-- A slot after one more occurrence (R584, R586). -/
def ClassSlot.again (s : ClassSlot) (tick sec : Nat) : ClassSlot :=
  { s with count := s.count + 1, last := tick, sec2 := s.sec1, sec1 := s.sec0, sec0 := sec }

/-- Whether a transient slot becomes permanent: three occurrences within 720 h (R586). -/
def ClassSlot.due (s : ClassSlot) : Bool := s.state == 0 && decide (3 ≤ s.count) && decide (s.sec0 - s.sec2 ≤ 2592000)

/-- The summary with an occurrence of a class in its slot, or counted in its header when no slot takes it (R584) (readings: log entry 51). -/
def Summary.occur (r : Summary) (cls tick sec : Nat) : Summary :=
  match slotIndex r.slots cls with
  | some i => { r with slots := listModify r.slots i (fun s => s.again tick sec) }
  | none =>
    let fresh : ClassSlot := ⟨cls, 0, 1, tick, tick, sec, 0, 0⟩
    if r.slots.length < 5 then { r with slots := r.slots ++ [fresh] }
    else match oldestTransient r.slots with
      | some i => { r with slots := listSet r.slots i fresh }
      | none => { r with ovfClass := cls, ovfCount := satAdd16 r.ovfCount 1 }

/-- The newest tick in a record. -/
def Summary.last (r : Summary) : Nat := r.slots.foldl (fun m s => Nat.max m s.last) 0

/-- The records with room for one more unit: at 65,536 the oldest record without a permanent slot goes (R584). -/
def roomFor (m : SMap Summary) (unit : Nat) : SMap Summary :=
  if m.length < 65536 || (smapFind m unit).isSome then m
  else
    match (m.filter (fun e => e.2.slots.all (fun s => s.state != 1))).foldl
        (fun best e => match best with
          | none => some e
          | some b => if e.2.last < b.2.last then some e else some b) none with
    | none => m
    | some e => smapErase m e.1

/-- One transition of a slot to permanent (R586) (readings: log entry 51). -/
def Device.becamePermanent (d : Device) (unit cls status : Nat) : Device :=
  (d.count (pageHis + 0x140)).event pageHis 0 (status + cls * 0x10000) [unit, d.hist.sec]

/-- The slots of a unit that become permanent: those due, and after an unstressed PROOF mismatch the PROOF slot and
every transient slot (R586). -/
def promoted (slots : List ClassSlot) (unstressedProof : Bool) : List Nat :=
  (slots.filter (fun s => s.state == 0 && (s.due || unstressedProof))).map (·.cls)

/-- The record of an event of a unit and class (R583 to R586): the log entry, the summary, and the transitions. The
detail is ERR_CAPTURE words 3 to 6 of the page. -/
def Device.record (d : Device) (unit cls status page : Nat) (unstressedProof : Bool := false) : Device :=
  let t := d.pageTick page
  let old := smapGet d.hist.summaries {} unit
  let repeats := match slotIndex old.slots cls with
    | some i => (match old.slots[i]? with
      | some s => decide (t ≤ s.last + 1000000000)
      | none => false)
    | none => false
  let new := old.occur cls t d.hist.sec
  let up := promoted new.slots unstressedProof
  let held := { new with slots := new.slots.map (fun s => if up.contains s.cls then { s with state := 1 } else s) }
  let detail := (List.range 4).map (fun i => d.get (page + 0x2C + 4 * i))
  let entry : LogEntry := ⟨t, unit, cls, status, detail, cls == 4 && !unstressedProof⟩
  let d := { d with hist := { d.hist with
    summaries := smapSet (roomFor d.hist.summaries unit) unit held
    log := if repeats then d.hist.log else d.hist.log ++ [entry] } }
  let d := if repeats then d.count (pageHis + 0x148) else d
  let d := if held.slots.any (fun s => s.cls == cls && s.state == 0) then d.count (pageHis + 0x13C) else d
  up.foldl (fun d c => d.becamePermanent unit c status) d

/-- The unit codes of R582. -/
def unitAnvil (core anvil : Nat) : Nat := core / 128 * 2 ^ 24 + core % 128 * 256 + anvil
def unitCore (core : Nat) : Nat := 0x10000000 + core / 128 * 2 ^ 24 + core % 128
def unitBellows (k : Nat) : Nat := 0x20000000 + k / 8 * 2 ^ 24 + k % 8
def unitLane (lane : Nat) : Nat := 0x38000000 + lane
def unitBlock (stack block : Nat) : Nat := 0x40000000 + stack * 2 ^ 24 + block
def unitModule : Nat := 0x58000000

/-! ### Memory -/

/-- The bytes of a range, from cells at or above its start. -/
def fillBytes : Nat → Nat → List Host.Cell → List Byte
  | 0, _, _ => []
  | n + 1, a, [] => 0 :: fillBytes n (a + 1) []
  | n + 1, a, (k, v) :: l => if k = a then v :: fillBytes n (a + 1) l else 0 :: fillBytes n (a + 1) ((k, v) :: l)

/-- The bytes of a range (R390, R391) (readings: log entry 47). -/
def Memory.read (m : Memory) (a n : Nat) : List Byte :=
  fillBytes n a (m.bytes.filter (fun c => decide (a ≤ c.1) && decide (c.1 < a + n)))

/-- One byte of memory. -/
def Memory.byte (m : Memory) (a : Nat) : Byte := smapGet m.bytes 0 a

/-- A little-endian number in memory (R9). -/
def Memory.nat (m : Memory) (a n : Nat) : Nat := leNat (m.read a n)

/-- Bytes as cells from an address on, zeros unlisted. -/
def cellsFrom : Nat → List Byte → List Host.Cell
  | _, [] => []
  | a, b :: l => if b = 0 then cellsFrom (a + 1) l else (a, b) :: cellsFrom (a + 1) l

/-- The cells with a range replaced. -/
def splice (l : List Host.Cell) (a : Nat) (data : List Byte) : List Host.Cell :=
  l.filter (fun c => decide (c.1 < a)) ++ cellsFrom a data ++ l.filter (fun c => decide (a + data.length ≤ c.1))

/-- The granules a range touches. -/
def granules (a n : Nat) : List Nat :=
  if n = 0 then [] else (List.range ((a + n - 1) / 64 + 1 - a / 64)).map (fun i => a / 64 + i)

/-- Whether any granule of a range is poisoned. -/
def Memory.poisoned (m : Memory) (a n : Nat) : Bool :=
  n != 0 && m.poison.any (fun g => decide (a / 64 ≤ g) && decide (g ≤ (a + n - 1) / 64))

/-- The poisoned granules of a range. -/
def Memory.poisonIn (m : Memory) (a n : Nat) : List Nat :=
  if n = 0 then [] else m.poison.filter (fun g => decide (a / 64 ≤ g) && decide (g ≤ (a + n - 1) / 64))

/-- A granule of DRAM (R30). -/
def isDramGranule (g : Nat) : Bool := decide (g < 0x6000000000 / 64)

/-- Whether a write covers a granule whole. -/
def coversGranule (a n g : Nat) : Bool := decide (a ≤ 64 * g) && decide (64 * g + 64 ≤ a + n)

/-- The data with the bytes of poisoned granules taken as zeros (R386). -/
def zeroPoison (poison : List Nat) (a : Nat) (data : List Byte) : List Byte :=
  (data.zipIdx a).map (fun e => if poison.contains (e.2 / 64) then 0 else e.1)

/-- A sorted set with several elements added. -/
def setInserts (l : List Nat) (new : List Nat) : List Nat := new.foldl setInsert l

/-- The codeword that holds an address: a granule of DRAM, by its first word, or a word of a core store or of the Phievo
SRAM (R383, R384). A codeword lies in the granule that its number divided by 8 names. -/
def codeword (a : Nat) : Nat := if a < 0x6000000000 then a / 64 * 8 else a / 8

/-- Whether a write replaces a codeword whole. -/
def replacesCodeword (a n k : Nat) : Bool :=
  if isDramGranule (k / 8) then coversGranule a n (k / 8) else decide (a ≤ 8 * k) && decide (8 * k + 8 ≤ a + n)

/-- A granule stored as poisoned: zero data and the mark (R386) (readings: log entry 47). -/
def Memory.poisonGranule (m : Memory) (g : Nat) : Memory :=
  { m with
    bytes := splice m.bytes (64 * g) (List.replicate 64 0), poison := setInsert m.poison g,
    ecc := smapEraseRange m.ecc (8 * g) (8 * g + 8) }

/-- A write of data, with the granules that arrive poisoned (R386, R389, R391, R403, R407). A granule that the write
covers in part stays poisoned, and one of which a part arrives poisoned is stored so whole (readings: log entry 47). -/
def Memory.write (m : Memory) (a : Nat) (data : List Byte) (arrives : List Nat := []) : Memory :=
  let gs := granules a data.length
  let whole := gs.filter (fun g => coversGranule a data.length g)
  let poison := setInserts (m.poison.filter (fun g => !(whole.contains g))) (gs.filter (fun g => arrives.contains g))
  let m' : Memory :=
    { bytes := splice m.bytes a (zeroPoison poison a data)
      valid := setInserts m.valid (gs.filter isDramGranule)
      poison := poison
      ecc := m.ecc.filter (fun e => !(replacesCodeword a data.length e.1))
      writebacks := m.writebacks.map (fun w => if gs.contains w.granule then { w with stale := true } else w) }
  (gs.filter (fun g => arrives.contains g && !(whole.contains g))).foldl Memory.poisonGranule m'

/-- A range of granules invalid and its contents gone (R391, R392). -/
def Memory.clear (m : Memory) (lo hi : Nat) : Memory :=
  { m with
    bytes := m.bytes.filter (fun c => decide (c.1 < 64 * lo) || decide (64 * hi ≤ c.1))
    valid := setEraseRange m.valid lo hi
    poison := setEraseRange m.poison lo hi
    ecc := smapEraseRange m.ecc (8 * lo) (8 * hi)
    writebacks := m.writebacks.filter (fun w => !(decide (lo ≤ w.granule) && decide (w.granule < hi))) }

/-- Cells at strictly rising addresses from a bound on, none of them zero. -/
def risingCells : Nat → List Host.Cell → Bool
  | _, [] => true
  | b, (k, v) :: l => decide (b ≤ k) && v != 0 && risingCells (k + 1) l

/-- Numbers strictly rising from a bound on. -/
def rising : Nat → List Nat → Bool
  | _, [] => true
  | b, k :: l => decide (b ≤ k) && rising (k + 1) l

/-- The canonical form of memory: bytes at rising addresses, none zero; valid and poisoned granules rising. -/
def Memory.wf (m : Memory) : Bool := risingCells 0 m.bytes && rising 0 m.valid && rising 0 m.poison

/-! ### The address map -/

/-- What stands at an address (R30). -/
inductive Region where
  | dram | store | sram | regs | absent
  deriving DecidableEq, Repr

/-- The core whose core-store window holds an address. -/
def storeCore (a : Nat) : Nat := (a - 0x8000000000) / 0x100000000 * 128 + a / 0x1000000 % 256

/-- The region of an address, given the cores whose routers are dead (R30). -/
def regionOf (dead : List Nat) (a : Nat) : Region :=
  if a < 0x6000000000 then .dram
  else if 0x8000000000 ≤ a ∧ a < 0x8400000000 then
    (if a / 0x1000000 % 256 < 128 ∧ a % 0x1000000 < 0x600000 ∧ !(dead.contains (storeCore a)) then .store else .absent)
  else if 0xE000000000 ≤ a ∧ a < 0xE004000000 then .sram
  else if 0xFF00000000 ≤ a ∧ a < 0x10000000000 then .regs
  else .absent

/-- The base of a core's core store (R30). -/
def storeBase (c : Nat) : Nat := 0x8000000000 + c / 128 * 0x100000000 + c % 128 * 0x1000000
/-- The base of the Phievo SRAM (R30). -/
def sramBase : Nat := 0xE000000000
/-- The base of a die's DRAM (R26). -/
def dramBase (d : Nat) : Nat := d * 0x1800000000

/-- The die whose memory page covers an address, 4 for the Phievo die (R414). -/
def memDie (a : Nat) : Nat :=
  if a < 0x6000000000 then a / 0x1800000000
  else if a < 0xE000000000 then (a - 0x8000000000) / 0x100000000
  else 4

/-- The memory of a page that holds an address: 0 stack 2d, 1 stack 2d + 1, 2 core store or Phievo SRAM (R417). -/
def memUnit (a : Nat) : Nat := if a < 0x6000000000 then a / 0x1000 % 2 else 2

/-- An event of the memory page that covers an address (R417). -/
def Device.memEvent (d : Device) (a b status : Nat) (agent : Nat := 0) : Device :=
  d.event (pageMem (memDie a)) b (status + b * 0x100 + memUnit a * 0x10000) [a % 2 ^ 32, a / 2 ^ 32, agent]

/-- Whether a write is narrower than its codeword (R387) (readings: log entry 47). -/
def isNarrow (a n : Nat) : Bool :=
  if a < 0x6000000000 then a % 64 != 0 || n % 64 != 0 else a % 8 != 0 || n % 8 != 0

/-- The granule that a narrow write covers in part: its first when the write starts off a codeword, else its last (readings: log entry 47). -/
def narrowGranule (a n : Nat) : Nat :=
  if a % (if a < 0x6000000000 then 64 else 8) = 0 then (a + n - 1) / 64 * 64 else a / 64 * 64

/-- A write refused under R387, with the granule that R417 captures (readings: log entry 47). -/
def Device.refuseNarrow (d : Device) (a n agent : Nat) : Device :=
  (d.count (pageMem (memDie a) + 0x130)).memEvent (narrowGranule a n) 2 stNarrow agent

/-! ### The core set (R3, R5, R39) -/

/-- A core is fenced: by the fuse map, or in the field (R3, R5). -/
def Device.isFenced (d : Device) (c : Nat) : Bool := d.rom.fuses.fenced.contains c || d.hist.fences.contains c

/-- The cores whose routers are dead: by the fuse map, or since they were fenced in the field (R39, R42). -/
def Device.deadRouters (d : Device) : List Nat := d.rom.fuses.dead ++ d.hist.dead

/-- A core's router is dead. -/
def Device.isDead (d : Device) (c : Nat) : Bool := d.deadRouters.contains c

/-! ### Reads through the codeword decoder (R385) -/

/-- The part with its device changed. -/
def Part.onDev (p : Part) (f : Device → Device) : Part := { p with dev := f p.dev }

/-- The part with its memory changed. -/
def Part.onMem (p : Part) (f : Memory → Memory) : Part := { p with mem := f p.mem }

/-- The next state with the module changed. -/
def State.onPart (s : State) (f : Part → Part) : Host.Outcome State Fault Refusal := .next { s with part := f s.part }

/-- The next state with everything but the memory changed. -/
def State.onDev (s : State) (f : Device → Device) : Host.Outcome State Fault Refusal := s.onPart (fun p => p.onDev f)

/-- The state one tick later with nothing commanded (R251). -/
def State.idle (s : State) : State := { s with part := s.part.onDev (fun d => d.elapse 1) }

/-- The repair queue with a granule posted, unless it is there or the queue of 16 is full (R385, R406) (readings: log entry 48). -/
def Memory.post (m : Memory) (page g : Nat) : Memory :=
  let q := m.writebacks.filter (fun w => w.page == page && !w.scrub)
  if q.any (fun w => w.granule == g) || decide (16 ≤ q.length) then m
  else { m with writebacks := m.writebacks ++ [⟨page, g, false, false⟩] }

/-- A correctable codeword met by a read: corrected, counted, and with the writeback the reader asks for (R385) (readings: log entry 47). -/
def Device.corrected (d : Device) (a : Nat) : Device :=
  (d.count (pageMem (memDie a) + (if memUnit a = 2 then 0x128 else 0x118 + 4 * memUnit a))).memEvent a 0 stOk

/-- An uncorrectable granule met by a read: counted, captured and added to the history of its stack or core (R385,
R405) (readings: log entry 47). -/
def Device.uncorrected (d : Device) (a : Nat) : Device :=
  let d := (d.count (pageMem (memDie a) + (if memUnit a = 2 then 0x12C else 0x120 + 4 * memUnit a))).memEvent a 1 stPoisoned
  if a < 0x6000000000 then
    d.record (unitBlock (2 * memDie a + memUnit a) (a % 0x1800000000 / 0x2000)) 5 stPoisoned (pageMem (memDie a))
  else if a < 0xE000000000 then d.record (unitCore (storeCore a)) 5 stPoisoned (pageMem (memDie a))
  else d

/-- The die that finds a parity mismatch, and the unit that the history names (R401, R583). -/
def parityDie : Detector → Nat
  | .core c => c.val / 128
  | .bellows k => k.val / 8
  | .encoder d => d.val

def parityUnit : Detector → Option Nat
  | .core c => some (unitCore c.val)
  | .bellows k => some (unitBellows k.val)
  | .encoder _ => none

/-- A parity mismatch of a granule (R401): counted, raised and captured where it is found (readings: log entry 47). -/
def Device.parityMiss (d : Device) (a : Nat) (u : Detector) : Device :=
  let page := pageMem (parityDie u)
  let d := (d.count (page + 0x134)).event page 3 (stPoisoned + 3 * 0x100 + memUnit a * 0x10000) [a % 2 ^ 32, a / 2 ^ 32, 0]
  match parityUnit u with
  | some n => d.record n 6 stPoisoned page
  | none => d

/-- One codeword with an error as a demand read meets it (R385, R401). A granule whose valid bit is clear is not read (R391),
and one stored as poisoned reads as POISONED and as no error (R386) (readings: log entry 47). -/
def Part.decodeWord (p : Part) (k : Nat) : Part :=
  let g := k / 8
  if (isDramGranule g && !(p.mem.valid.contains g)) || p.mem.poison.contains g then p
  else match smapFind p.mem.ecc k with
    | some .correctable => (p.onMem (·.post (memDie (64 * g)) g)).onDev (·.corrected (64 * g))
    | some .uncorrectable => (p.onMem (·.poisonGranule g)).onDev (·.uncorrected (64 * g))
    | some (.parity u) => (p.onMem (·.poisonGranule g)).onDev (·.parityMiss (64 * g) u)
    | none => p

/-- The codewords that a range touches and that meet one of some errors. -/
def Memory.errorsOf (m : Memory) (a n : Nat) (kind : Ecc → Bool) : List Nat :=
  (m.ecc.filter (fun e => kind e.2 && decide (codeword a ≤ e.1) && decide (e.1 ≤ codeword (a + n - 1)))).map (·.1)

/-- The codewords with errors that a range touches, those of one kind. -/
def Memory.errorsIn (m : Memory) (a n : Nat) (kind : Ecc) : List Nat := m.errorsOf a n (· == kind)

/-- Whether an error is a parity mismatch. -/
def isParity : Ecc → Bool
  | .parity _ => true
  | _ => false

/-- Every codeword a read of a range touches, checked (R385, R401): the correctable ones, the uncorrectable ones, then the
parity mismatches (readings: log entry 47). -/
def Part.touch (p : Part) (a n : Nat) : Part :=
  if n = 0 then p
  else (p.mem.errorsIn a n .correctable ++ p.mem.errorsIn a n .uncorrectable ++ p.mem.errorsOf a n isParity).foldl Part.decodeWord p

/-- Several ranges touched one after another: addresses and lengths. -/
def Part.touchAll (p : Part) (l : List (Nat × Nat)) : Part := l.foldl (fun p r => p.touch r.1 r.2) p

/-- Errors that have arisen before a read (R385, R401). A granule stored as poisoned keeps its form (R386) (readings: log entry 47). -/
def Memory.arise (m : Memory) (faults : EccFaults) : Memory :=
  { m with ecc := faults.foldl (fun e f =>
      if m.poison.contains (f.1.toNat / 64) then e else smapSet e (codeword f.1.toNat) f.2) m.ecc }

end Sys2Proof.Machine
end

