-- ==== Sys2Proof/Machine/Anvil.lean ====
section
/-! DEFINITION. One anvil: its cells, strikes, converters, witness columns and checksums (R46 to R96). An anvil is
named by 68 × core + physical anvil. -/

namespace Sys2Proof.Machine

/-- The state of a physical anvil. -/
def Device.anvil (d : Device) (u : Nat) : AnvilState := smapGet d.anvils {} u
/-- The device with an anvil's state set. -/
def Device.setAnvil (d : Device) (u : Nat) (x : AnvilState) : Device := { d with anvils := smapSet d.anvils u x }
/-- The state of a core. -/
def Device.core (d : Device) (c : Nat) : CoreState := smapGet d.cores {} c
/-- The device with a core's state set. -/
def Device.setCore (d : Device) (c : Nat) (x : CoreState) : Device := { d with cores := smapSet d.cores c x }
/-- The device with a core's state changed. -/
def Device.onCore (d : Device) (c : Nat) (f : CoreState → CoreState) : Device := d.setCore c (f (d.core c))

/-- The control page of an anvil. -/
def pageAnv (u : Nat) : Nat := pageAnvil (u / 68) (u % 68)

/-- What flash holds of an anvil (R94). -/
def Device.flash (d : Device) (u : Nat) : AnvilFlash := smapGet d.hist.anvils {} u
/-- The device with the flash data of an anvil set. -/
def Device.setFlash (d : Device) (u : Nat) (x : AnvilFlash) : Device :=
  { d with hist := { d.hist with anvils := smapSet d.hist.anvils u x } }

/-- The anvil is retired (R87). -/
def Device.retired (d : Device) (u : Nat) : Bool := (d.flash u).retired

/-- The live map entry of a logical anvil (R96): the physical anvil when VALID is 1. -/
def Device.mapped (d : Device) (c l : Nat) : Option Nat :=
  let b := bits (d.get (pageMap c + 0x100 + 4 * (l / 4))) (8 * (l % 4) + 7) (8 * (l % 4))
  if bit b 7 then some (68 * c + b % 128) else none

/-- Row r of an anvil is in the row zero mask (R62). -/
def Device.masked (d : Device) (u r : Nat) : Bool := bit (d.get (pageAnv u + 0x300 + 4 * (r / 32))) (r % 32)

/-- TRIM.TRIM_VALID of an anvil (R94). -/
def Device.trimValid (d : Device) (u : Nat) : Bool := bit (d.get (pageAnv u + 0x100)) 31

/-- The weight of the pair at a row and a physical column (R46). -/
def AnvilState.weight (x : AnvilState) (r col : Nat) : Int :=
  match smapFind x.cells (544 * r + col) with
  | some p => (p.pos : Int) - p.neg
  | none => 0

/-- The performance level of a core, and its concurrency limit (R57). -/
def Device.level (d : Device) (c : Nat) : Nat := bits (d.get (pageSeq c + 0x100)) 10 8
def concurrency (level : Nat) : Nat := [4, 4, 3, 2, 2].getD level 1

/-! ### Plane by plane -/

/-- The planes of a pass, by mode: SIGNED4, UNSIGNED4, A8W4 (each half), TRANSPOSED8 (R54). -/
def planesOf (mode : Nat) : Nat := if mode = 3 then 8 else 4

/-- The code that a half of a pass strikes: an A8W4 pass strikes the high nibble signed and then the low nibble (R55). -/
def halfCode (mode half : Nat) (x : Int) : Int :=
  if mode = 2 then (if half = 0 then x / 16 else x % 16) else x

/-- The pass mode of a half (R54, R55). -/
def halfMode (mode half : Nat) : Nat := if mode = 2 then half else mode

/-- The weight of a plane (R54). -/
def planeWeight (mode plane : Nat) : Int :=
  if mode = 0 ∧ plane = 3 then -8 else if mode = 3 ∧ plane = 7 then -128 else (2 : Int) ^ plane

/-- Whether a code's bit of a plane is 1. -/
def planeBit (mode plane : Nat) (code : Int) : Bool := bit (toTwos (if mode = 3 then 8 else 4) code) plane

/-- The places of a list that a plane drives, from a first place on. -/
def activeFrom (mode plane : Nat) : Nat → List Int → List Nat
  | _, [] => []
  | i, x :: l => if planeBit mode plane x then i :: activeFrom mode plane (i + 1) l else activeFrom mode plane (i + 1) l

/-- A segment's value under the trims G and F, in 1/640,000 unit: its sum times 1 − (G − 2,048) × 25 ppm, plus F/16 unit
(R89). -/
def trimmedSum (gain offs : Nat) (s : Int) : Int := 16 * s * (40000 - ((gain : Int) - 2048)) + 40000 * signed 8 offs

/-- A conversion: the code nearest to a value in 1/640,000 unit, and whether it is clamped (R50, R52, R612). -/
def convert (lo hi step v : Int) : Int × Bool :=
  let code := clampInt ((2 * v + 640000 * step) / (1280000 * step)) lo hi
  (code, code == lo || code == hi)

/-- What one struck plane adds: the values per column or row in units, not yet weighted, the heavy slabs struck whole,
the clamped codes in data columns and in all, and the witness sums with n and the conversions. -/
structure PlaneOut where
  sums : List Int := []
  /-- What the sums would be without any error of conversion (R112). -/
  exact : List Int := []
  heavy : Nat := 0
  clamps : Nat := 0
  allClamps : Nat := 0
  wit : List Int := [0, 0, 0, 0, 0, 0, 0, 0]
  nsum : Nat := 0
  conv : Nat := 0
  deriving DecidableEq, Repr

/-- The output with one converted phase of a slab (R51, R64, R71). -/
def PlaneOut.phase (o : PlaneOut) (x : AnvilState) (draw gain offs slab phase : Nat) (rows : List Nat) : PlaneOut :=
  let n := rows.length
  if n = 0 then o
  else
    let step : Int := if n ≤ 36 then 1 else 2
    let exact := (List.range 544).map (fun col => sumInt (rows.map (fun r => x.weight r col)))
    let conv := (exact.zipIdx).map (fun e =>
      convert (-256) 255 step (trimmedSum gain offs e.1 + Config.conversionError draw slab e.2 phase))
    { o with
      sums := addLists o.sums (conv.map (fun v => v.1 * step))
      exact := addLists o.exact exact
      clamps := o.clamps + ((conv.take 512).filter (·.2)).length
      allClamps := o.allClamps + (conv.filter (·.2)).length
      wit := addLists o.wit ((conv.drop 536).map (fun v => v.1 * step))
      nsum := o.nsum + n
      conv := o.conv + 1 }

/-- A slab in a forward strike: split in two phases when it is heavy and the pass carries the split allowance
(R63, R64, R66). -/
def PlaneOut.slab (o : PlaneOut) (x : AnvilState) (draw gain offs : Nat) (split : Bool) (s : Nat) (rows : List Nat) : PlaneOut :=
  if 48 < rows.length then
    if split then
      (o.phase x draw gain offs s 0 (rows.filter (fun r => r % 64 < 32))).phase x draw gain offs s 1
        (rows.filter (fun r => 32 ≤ r % 64))
    else { o.phase x draw gain offs s 0 rows with heavy := o.heavy + 1 }
  else o.phase x draw gain offs s 0 rows

/-- A forward plane over the 16 slabs (R49). -/
def forwardPlane (x : AnvilState) (draw gain offs : Nat) (split : Bool) (active : List Nat) : PlaneOut :=
  (List.range 16).foldl
    (fun o s => o.slab x draw gain offs split s (active.filter (fun r => r / 64 == s))) {}

/-- A half of a transposed plane: rows sensed from the active columns of the half (R67, R68, R70). A clamped row code is
counted nowhere: the spec speaks of clamps of the 9-bit codes only (readings: log entry 66). -/
def PlaneOut.half (o : PlaneOut) (x : AnvilState) (draw gain offs h : Nat) (cols : List Nat) : PlaneOut :=
  let m := cols.length
  if m = 0 then o
  else
    let step : Int := if m ≤ 146 then 1 else 2
    let exact := (List.range 1024).map (fun r => sumInt (cols.map (fun col => x.weight r col)))
    let conv := (exact.zipIdx).map (fun e =>
      convert (-1024) 1023 step (trimmedSum gain offs e.1 + Config.conversionError draw (16 + h) e.2 0))
    { o with sums := addLists o.sums (conv.map (fun v => v.1 * step)), exact := addLists o.exact exact }

/-- A transposed plane in its two halves (R68). -/
def transposedPlane (x : AnvilState) (draw gain offs : Nat) (active : List Nat) : PlaneOut :=
  (PlaneOut.half {} x draw gain offs 0 (active.filter (fun j => j < 256))).half x draw gain offs 1
    (active.filter (fun j => 256 ≤ j))

/-- One plane of a half of a pass, with the list of driven places (R53, R61). -/
def planeOut (x : AnvilState) (draw gain offs : Nat) (mode half plane : Nat) (split : Bool) (codes : List Int) :
    List Nat × PlaneOut :=
  let m := halfMode mode half
  let active := activeFrom m plane 0 (codes.map (halfCode mode half))
  (active, if active = [] then {}
    else if m = 3 then transposedPlane x draw gain offs active
    else forwardPlane x draw gain offs split active)

/-- The length of a pass result: 544 physical columns, or 1,024 rows. -/
def resultLength (mode : Nat) : Nat := if mode = 3 then 1024 else 544

/-- The result with a plane's values weighted and added (R54). -/
def addPlane (mode half plane : Nat) (sums vals : List Int) : List Int :=
  addLists sums (vals.map (fun v => v * planeWeight (halfMode mode half) plane))

/-- The sum of the squares of the products of each output of a pass: over the driven rows or columns (R112). -/
def squaresOf (x : AnvilState) (mode : Nat) (codes : List Int) : List Nat :=
  let driven := (codes.zipIdx).filter (fun e => e.1 != 0)
  (List.range (if mode = 3 then 1024 else 512)).map (fun j =>
    sumNat (driven.map (fun e => (e.1 * (if mode = 3 then x.weight j e.2 else x.weight e.2 j)).natAbs ^ 2)))

/-! ### What a strike leaves on the anvil's page -/

/-- The counters and the witness accumulators after a plane (R61, R66, R71, R94): STRIKE_CNT counts strikes performed,
ANV_SKIP_CNT the skipped ones. The capture of a CLAMP carries OK: R95 names no code for it (readings: log entry 66). -/
def Device.afterPlane (d : Device) (u tileId : Nat) (active : List Nat) (transposed : Bool) (o : PlaneOut) : Device :=
  let page := pageAnv u
  if active = [] then d.count (page + 0x124)
  else
    let d := d.setFlash u { d.flash u with strikeCnt := (d.flash u).strikeCnt + 1 }
    let d := if o.heavy = 0 then d else (d.count (page + 0x110) o.heavy).eventSt page 1 stHeavy [tileId]
    let d := if o.allClamps = 0 then d else (d.count (page + 0x114) o.allClamps).eventSt page 2 stOk [tileId]
    if transposed || !(bit (d.get (page + 8)) 0) then d
    else
      let x := d.anvil u
      d.setAnvil u { x with wit := addLists x.wit o.wit, nsum := x.nsum + o.nsum, conv := x.conv + o.conv }

/-! ### Checksums (R77 to R79) -/

/-- |D − E| of a group of a pass result (R77). -/
def checksumGap (sums : List Int) (g : Nat) : Nat :=
  let dsum := sumInt ((sums.drop (64 * g)).take 64)
  let e := 64 * sums.getD (512 + 3 * g) 0 + 8 * sums.getD (513 + 3 * g) 0 + sums.getD (514 + 3 * g) 0
  (dsum - e).natAbs

/-- The groups of a pass result whose checksum fails (R77). -/
def failedGroups (tol : Nat) (sums : List Int) : List Nat :=
  (List.range 8).filter (fun g => decide (tol < checksumGap sums g))

/-- A failed group: counted, captured, and written to the anvil's history (R79, R95). -/
def Device.checksumFault (d : Device) (u tileId : Nat) (sums : List Int) (g : Nat) : Device :=
  let page := pageAnv u
  ((d.count (page + 0x118)).event page 0 (stChecksum + g * 0x10000) [tileId, checksumGap sums g]).record
    (unitAnvil (u / 68) (u % 68)) 1 stChecksum page

/-- The comparison of a pass result, when CHK_EN is 1 and the pass is not transposed (R70, R77): the number of groups
that fail. -/
def Device.compare (d : Device) (u tileId mode : Nat) (sums : List Int) : Nat × Device :=
  if mode = 3 ∨ !(bit (d.get (pageAnv u + 8)) 1) then (0, d)
  else
    let bad := failedGroups (d.get (pageAnv u + 0x104) % 2 ^ 20) sums
    (bad.length, bad.foldl (fun d g => d.checksumFault u tileId sums g) d)

/-! ### Free draws -/

/-- The device with one more free value taken (readings: log entry 30). -/
def Device.drawn (d : Device) : Device := { d with free := d.free + 1 }

/-- The trims an anvil latches (R90): G and F as the register holds them. -/
def Device.trimG (d : Device) (u : Nat) : Nat := bits (d.get (pageAnv u + 0x100)) 11 0
def Device.trimF (d : Device) (u : Nat) : Nat := bits (d.get (pageAnv u + 0x100)) 23 16

/-- A pass struck whole, plane after plane, as the reheat window strikes it (R132): the result with its heavy slabs
and clamped codes, and the device. -/
structure Struck where
  sums : List Int
  exact : List Int
  heavy : Nat := 0
  clamps : Nat := 0
  deriving DecidableEq, Repr

/-- The planes of one half struck in order. -/
def Device.strikeHalf (d : Device) (u tileId mode half : Nat) (split : Bool) (codes : List Int) : Struck × Device :=
  (List.range (planesOf mode)).foldl (fun r plane =>
      let d := r.2
      let (active, o) := planeOut (d.anvil u) d.free (d.trimG u) (d.trimF u) mode half plane split codes
      ({ sums := addPlane mode half plane r.1.sums o.sums, exact := addPlane mode half plane r.1.exact o.exact, heavy := r.1.heavy + o.heavy, clamps := r.1.clamps + o.clamps },
        (d.drawn).afterPlane u tileId active (decide (mode = 3)) o))
    ({ sums := List.replicate (resultLength mode) 0, exact := List.replicate (resultLength mode) 0 }, d)

/-! ### Witness results (R72, R73) -/

/-- M⁺ − M⁻ and M⁺ + M⁻ of the pair of weight 1, 3, 5 or 7. -/
def witDiff (m : List Int) (i : Nat) : Int := m.getD i 0 - m.getD (i + 4) 0
def witSum (m : List Int) (i : Nat) : Int := m.getD i 0 + m.getD (i + 4) 0

/-- A value limited to a signed 32-bit register. -/
def sat32 (x : Int) : Int := clampInt x (-0x80000000) 0x7FFFFFFF

/-- A fraction rounded to the nearest integer, ties away from zero, its denominator of either sign. -/
def roundRatio (n d : Int) : Int := if d < 0 then roundAway (-n) d.natAbs else roundAway n d.natAbs

/-- WIT_GAIN in ppm: the whole-anvil gain less 1 (R73). -/
def witGain (m : List Int) (nsum : Nat) : Int :=
  let g := sumInt ((List.range 4).map (witDiff m))
  roundRatio ((g - 32 * nsum) * 1000000) (32 * nsum)

/-- WIT_OFFS in 1/256 unit (R73). -/
def witOffs (m : List Int) (conv : Nat) : Int :=
  roundRatio (sumInt ((List.range 4).map (witSum m)) * 256) (8 * conv)

/-- WIT_RESID in ppm (R72, R73): the largest |gain[w] − gain| / gain, at its greatest value when gain is not
positive. -/
def witResid (m : List Int) : Int :=
  let g := sumInt ((List.range 4).map (witDiff m))
  if g ≤ 0 then 0xFFFFFFFF
  else
    let dev := (List.range 4).map (fun i =>
      let w : Nat := 2 * i + 1
      roundAway (((16 * witDiff m i - w * g).natAbs : Int) * 1000000) (w * g.natAbs))
    clampInt (dev.foldl max 0) 0 0xFFFFFFFF

end Sys2Proof.Machine
end

