-- ==== Sys2Proof/Machine/Operands.lean ====
section
/-! DEFINITION. The plan word and its operands (R184 to R188), and the checks of check 7 of R182 on one word. -/

namespace Sys2Proof.Machine

/-- TICK, OP and CMASK of a plan word (R184). -/
def wTick (w : Nat) : Nat := bits w 127 108
def wOp (w : Nat) : Nat := bits w 107 102
def wMask (w : Nat) : Nat := bits w 101 86

/-- The opcodes (R185). -/
def opNop : Nat := 0x00
def opHeat : Nat := 0x01
def opPass : Nat := 0x02
def opDrain : Nat := 0x03
def opAbort : Nat := 0x04
def opFull : Nat := 0x05
def opVec : Nat := 0x06
def opXfer : Nat := 0x07
def opTree : Nat := 0x08
def opEpi : Nat := 0x09
def opAttn : Nat := 0x0A
def opSample : Nat := 0x0B
def opSignal : Nat := 0x0C
def opWait : Nat := 0x0D
def opWindow : Nat := 0x0E
def opBound : Nat := 0x0F
def opExt : Nat := 0x3F

/-- The operands of HEAT (R188). -/
structure HeatWord where
  len : Nat
  heatIdx : Nat
  kind : Nat
  level : Nat
  prologue : Nat
  nwords : Nat
  deriving DecidableEq, Repr

def heatWord (w : Nat) : HeatWord :=
  ⟨bits w 85 66, bits w 65 50, bits w 49 48, bits w 47 45, bits w 44 29, bits w 28 16⟩

/-- The operands of PASS (R186). -/
structure PassWord where
  anvil : Nat
  slot : Nat
  /-- The passes in the join: JOINN plus one. -/
  joinN : Nat
  mode : Nat
  split : Bool
  first : Bool
  last : Bool
  join : Nat
  tile : Nat
  fmt : Nat
  shape : Nat
  region : Nat
  rt : Nat
  inFmt : Nat
  inAddr : Nat
  tileId : Nat
  deriving DecidableEq, Repr

def passWord (w : Nat) : PassWord where
  anvil := bits w 85 80
  slot := bits w 79 78
  joinN := bits w 77 76 + 1
  mode := bits w 75 74
  split := bit w 73
  first := bit w 72
  last := bit w 71
  join := bits w 70 65
  tile := bits w 64 59
  fmt := bits w 58 57
  shape := bits w 56 54
  region := bits w 53 38
  rt := bits w 37 35
  inFmt := bits w 34 33
  inAddr := bits w 32 16
  tileId := bits w 15 4

/-- The operands of DRAIN and ABORT (R188). -/
structure DrainWord where
  mask : Nat
  obj : Nat
  sigen : Bool
  deriving DecidableEq, Repr

def drainWord (w : Nat) : DrainWord := ⟨bits w 85 22, bits w 21 8, bit w 7⟩

/-- The operands of FULL (R188). -/
structure FullWord where
  sub : Nat
  tile : Nat
  srcA : Nat
  srcB : Nat
  dst : Nat
  count : Nat
  shape : Nat
  aslot : Nat
  deriving DecidableEq, Repr

def fullWord (w : Nat) : FullWord :=
  ⟨bits w 85 82, bits w 81 76, bits w 75 59, bits w 58 42, bits w 41 25, bits w 24 13, bits w 12 10, bits w 9 0⟩

/-- The operands of VEC (R188). -/
structure VecWord where
  vop : Nat
  srcA : Nat
  srcB : Nat
  dst : Nat
  count : Nat
  fmtIn : Nat
  fmtOut : Nat
  deriving DecidableEq, Repr

def vecWord (w : Nat) : VecWord :=
  ⟨bits w 85 80, bits w 79 63, bits w 62 46, bits w 45 29, bits w 28 13, bits w 12 9, bits w 8 5⟩

/-- The operands of XFER and of its EXT word (R188); the length is in granules. -/
structure XferWord where
  src : Nat
  len : Nat
  eng : Nat
  obj : Nat
  sop : Nat
  defer : Bool
  node : Nat
  dst : Nat
  deriving DecidableEq, Repr

def xferWord (w ext : Nat) : XferWord where
  src := bits w 85 46
  len := if bits w 45 30 = 0 then 65536 else bits w 45 30
  eng := bits w 29 27
  obj := bits w 26 13
  sop := bits w 12 11
  defer := bit w 10
  node := bits ext 85 77
  dst := bits ext 76 37

/-- The operands of TREE (R188). -/
structure TreeWord where
  add : Bool
  level : Nat
  tile : Nat
  ptile : Nat
  pnode : Nat
  pdie : Nat
  pcore : Nat
  shape : Nat
  deriving DecidableEq, Repr

def treeWord (w : Nat) : TreeWord :=
  ⟨bit w 85, bits w 84 82, bits w 81 76, bits w 75 70, bits w 69 61, bits w 60 59, bits w 58 52, bits w 51 49⟩

/-- The operands of EPI (R188). -/
structure EpiWord where
  tile : Nat
  tile2 : Nat
  gated : Bool
  act : Nat
  ofmt : Nat
  skipBias : Bool
  bias : Nat
  dst : Nat
  sout : Nat
  skipScale : Bool
  shape : Nat
  deriving DecidableEq, Repr

def epiWord (w : Nat) : EpiWord where
  tile := bits w 85 80
  tile2 := bits w 79 74
  gated := bit w 73
  act := bits w 72 70
  ofmt := bits w 69 67
  skipBias := bit w 66
  bias := bits w 65 49
  dst := bits w 48 32
  sout := bits w 31 24
  skipScale := bit w 23
  shape := bits w 22 20

/-- The operands of ATTN (R188). -/
structure AttnWord where
  first : Nat
  count : Nat
  lslot : Nat
  hgrp : Nat
  pageCap : Nat
  deriving DecidableEq, Repr

def attnWord (w : Nat) : AttnWord := ⟨bits w 85 74, bits w 73 62, bits w 61 55, bits w 54 51, bits w 50 35⟩

/-- The operands of SAMPLE (R188). -/
structure SampleWord where
  first : Nat
  count : Nat
  logits : Nat
  deriving DecidableEq, Repr

def sampleWord (w : Nat) : SampleWord := ⟨bits w 85 74, bits w 73 62, bits w 61 45⟩

/-- The operands of SIGNAL (R188). -/
structure SignalWord where
  node : Nat
  obj : Nat
  sop : Nat
  value : Nat
  defer : Bool
  deriving DecidableEq, Repr

def signalWord (w : Nat) : SignalWord := ⟨bits w 85 77, bits w 76 63, bits w 62 61, bits w 60 45, bit w 44⟩

/-- The operands of WAIT (R188). -/
structure WaitWord where
  obj : Nat
  cond : Nat
  value : Nat
  timeout : Nat
  guard : Nat
  consume : Bool
  deriving DecidableEq, Repr

def waitWord (w : Nat) : WaitWord := ⟨bits w 85 72, bits w 71 70, bits w 69 54, bits w 53 34, bits w 33 26, bit w 25⟩

/-- The length of a reheat window in pass units of 64 ns (R188). -/
def windowUnits (w : Nat) : Nat := bits w 85 70

/-- The reserved operand bits of an opcode: the bits below 86 that R186 and R188 do not list. -/
def reservedBits (op : Nat) : List (Nat × Nat) :=
  if op = opNop ∨ op = opBound then [(85, 0)]
  else if op = opHeat then [(15, 0)]
  else if op = opPass then [(3, 0)]
  else if op = opDrain ∨ op = opAbort then [(6, 0)]
  else if op = opFull then []
  else if op = opVec then [(4, 0)]
  else if op = opXfer then [(9, 0)]
  else if op = opExt then [(36, 0)]
  else if op = opTree then [(48, 0)]
  else if op = opEpi then [(19, 0)]
  else if op = opAttn then [(34, 0)]
  else if op = opSample then [(44, 0)]
  else if op = opSignal then [(43, 0)]
  else if op = opWait then [(24, 0)]
  else [(69, 0)]

/-- Whether a FULL word's fields name something (check 7 of R182; ASLOT of R188). -/
def fullOk (f : FullWord) : Bool :=
  decide (f.sub < 8) && (if f.sub = 1 ∨ f.sub = 2 ∨ f.sub = 7 then bits f.aslot 9 4 == 0 else true)

/-- Whether a plan word's opcode and field values are those that the tables name (R182, R617). -/
def wordNamed (w : Nat) : Bool :=
  let op := wOp w
  let named := decide (op ≤ 0x0F) || op == opExt
  let fields :=
    if op = opHeat then bits w 49 48 != 3 && decide (bits w 47 45 < 6)
    else if op = opFull then decide ((fullWord w).sub < 8)
    else if op = opVec then
      decide ((vecWord w).vop < 0x1C) && decide ((vecWord w).fmtIn < 6) && decide ((vecWord w).fmtOut < 6)
    else if op = opXfer then decide (bits w 29 27 < 5)
    else if op = opTree then decide (bits w 84 82 < 5)
    else if op = opEpi then decide (bits w 72 70 < 4) && decide (bits w 69 67 < 5)
    else if op = opSignal then bits w 62 61 != 0
    else if op = opWait then bits w 71 70 != 3
    else true
  named && fields

/-- Whether a plan word passes check 7 of R182: its reserved bits are clear too. -/
def wordOk (w : Nat) : Bool :=
  wordNamed w && (reservedBits (wOp w)).all (fun r => bits w r.1 r.2 == 0) && (wOp w != opFull || fullOk (fullWord w))

/-- The class mask holds a class (R184). -/
def inClass (w cls : Nat) : Bool := bit (wMask w) cls

end Sys2Proof.Machine
end

