-- ==== Sys2Proof/Machine/Flags.lean ====
section
/-! DEFINITION. The conditions and the confidence check of the numerics page (R112, R115, R125), and a tile's status. -/

namespace Sys2Proof.Machine

/-- The anvils of a die that are in use: those of its usable cores that are not retired (R140). -/
def Device.anvilsOf (d : Device) (die : Nat) : List Nat :=
  ((List.range 128).filter (fun c => !(d.isFenced (128 * die + c)))).flatMap (fun c =>
    ((List.range 68).map (fun a => 68 * (128 * die + c) + a)).filter (fun u => !(d.retired u)))

/-- NUM_COND.TRIM_OK, RESID_OK and WIT_OK (R140), which follow from the anvils' pages. -/
def Device.trimOk (d : Device) (die : Nat) : Bool := (d.anvilsOf die).all (fun u => d.trimValid u)
def Device.residOk (d : Device) (die : Nat) : Bool := (d.anvilsOf die).all (fun u => decide (d.get (pageAnv u + 0x198) ≤ 5000))
def Device.witOk (d : Device) (die : Nat) : Bool := (d.anvilsOf die).all (fun u => bit (d.get (pageAnv u + 8)) 0)

/-- NUM_COND (R140): TJ_OK and DRIFT_OK as the latest round and snapshot left them. It reads 0 while the die is held in reset or
powered off, and has no page to show the others by (readings: log entry 66). -/
def Device.numCond (d : Device) (die : Nat) : Nat :=
  if d.power.down.contains die then 0
  else
    let w := d.get (pageNum die + 0x100)
    flag (bit w 0) + 2 * flag (d.witOk die) + 4 * flag (d.residOk die) + 8 * flag (bit w 3) + 16 * flag (d.trimOk die)

/-- Every condition of R112 that the numerics page shows holds. -/
def Device.condsHold (d : Device) (die : Nat) : Bool := d.numCond die == 31

/-- Whether an anvil exceeds a drift limit (R117). -/
def Device.drifts (d : Device) (u : Nat) : Bool :=
  let lim := d.get (pageNum (u / 68 / 128) + 0x104)
  decide (bits lim 15 0 < (signed 32 (d.get (pageAnv u + 0x190))).natAbs) || decide (bits lim 23 16 < (signed 32 (d.get (pageAnv u + 0x194))).natAbs)

/-- The conditions 2 to 5 of R112 on one anvil: its die's temperature, its trims, its witness sampling, and its residual and drift
at the latest snapshot. -/
def Device.anvilBounded (d : Device) (u : Nat) : Bool :=
  bit (d.get (pageNum (u / 68 / 128) + 0x100)) 0 && d.trimValid u && bit (d.get (pageAnv u + 8)) 0 &&
  decide (d.get (pageAnv u + 0x198) ≤ 5000) && !(d.drifts u)

/-- An event of the numerics page (R142). -/
def Device.numEvent (d : Device) (die b status tileId kN : Nat) : Device :=
  d.eventSt (pageNum die) b status [tileId, kN]

/-- Passes issued outside the conditions of R112, in the body of the heat or in its reheat window, counted (R115). -/
def Device.countMiss (d : Device) (c : Nat) (p : PassWord) (n : Nat) : Device :=
  if d.condsHold (c / 128) then d
  else (d.count (pageNum (c / 128) + 0x110) n).numEvent (c / 128) 2 stOk p.tileId 0

/-- A threshold set's word (R140). -/
def Device.rt (d : Device) (die t : Nat) : Nat := d.get (pageNum die + 0x140 + 4 * t)

/-- The confidence check on a tile's counts (R125). -/
def dueFor (rt : Nat) (clampN zeroN nzN heavyN chkN : Nat) : Bool :=
  decide (0 < chkN) ||
  (bits rt 7 0 != 0xFF && decide (bits rt 7 0 < clampN)) ||
  (bits rt 15 8 != 0xFF && decide (bits rt 15 8 * nzN < 256 * zeroN)) ||
  (bits rt 23 16 != 0xFF && decide (bits rt 23 16 < heavyN))

/-- The reheat form of a due tile (R127): the response of its threshold set, or the ladder after a checksum failure. -/
def respOf (rt chkN : Nat) : Nat := if 0 < chkN then 0 else bits rt 26 24

/-- A tile's status code (R15). -/
def Tile.status (t : Tile) : Nat := statusOf t.conds

/-- The tile with a condition. -/
def Tile.mark (t : Tile) (cond : Nat) : Tile := { t with conds := if t.conds.contains cond then t.conds else t.conds ++ [cond] }

/-- The tile without a condition. -/
def Tile.unmark (t : Tile) (cond : Nat) : Tile := { t with conds := t.conds.filter (fun c => c != cond) }

/-- The tile with every token poisoned, and the condition that its own rule names (R149, R611). -/
def Tile.spoil (t : Tile) (cond : Nat) : Tile := { t.mark cond with poison := List.range (2 ^ t.shape) }

/-- The tile with every token poisoned and its status as it was (R615). -/
def Tile.spoilMarks (t : Tile) : Tile := { t with poison := List.range (2 ^ t.shape) }

/-- The tile that loses a pass for a cause: its tokens poisoned with the status that the cause's rule names, or with OK by marks
alone (R149, R193, R611). -/
def Tile.spoilFor (t : Tile) (status : Nat) : Tile := if status = stOk then t.spoilMarks else t.spoil status

/-- The tile with tokens that consumed poisoned data (R611). -/
def Tile.consume (t : Tile) (tokens : List Nat) : Tile :=
  if tokens = [] then t else { t.mark stPoisoned with poison := setInserts t.poison tokens }

/-- The core clock of a level in 10 MHz (R24). -/
def coreClock (level : Nat) : Nat := [180, 160, 140, 115, 90].getD level 60

end Sys2Proof.Machine
end

