-- ==== Sys2Proof/Machine/Float.lean ====
section
/-! DEFINITION. Number formats and their arithmetic (R97 to R101, R121, R123): every result is formed exactly as
a dyadic number and rounded once, to nearest with ties to even. -/

namespace Sys2Proof.Machine

/-- A floating-point format of R97. -/
structure Fmt where
  expBits : Nat
  manBits : Nat
  bias : Nat
  /-- FP8 E4M3: exponent 15 is an ordinary exponent but for mantissa 7, and there is no infinity. -/
  e4m3 : Bool
  deriving DecidableEq, Repr

/-- FP32 (R97). -/
def fp32 : Fmt := ⟨8, 23, 127, false⟩
/-- BF16 (R97). -/
def bf16 : Fmt := ⟨8, 7, 127, false⟩
/-- FP8 E4M3 (R97). -/
def e4m3 : Fmt := ⟨4, 3, 7, true⟩
/-- FP8 E5M2 (R97). -/
def e5m2 : Fmt := ⟨5, 2, 15, false⟩

/-- A number read from a floating-point format: a NaN, an infinity, or (−1)^neg × m × 2^e. -/
inductive Fp where
  | nan
  | inf (neg : Bool)
  | fin (neg : Bool) (m : Nat) (e : Int)
  deriving DecidableEq, Repr

/-- The width of a number in bits. -/
def bitLength (m : Nat) : Nat := if m = 0 then 0 else Nat.log2 m + 1

/-- The number a format's bits stand for (R97). -/
def Fmt.decode (f : Fmt) (w : Nat) : Fp :=
  let neg := bit w (f.expBits + f.manBits)
  let ef := bits w (f.expBits + f.manBits - 1) f.manBits
  let mf := w % 2 ^ f.manBits
  let top := 2 ^ f.expBits - 1
  if f.e4m3 && ef == top && mf == 2 ^ f.manBits - 1 then .nan
  else if !f.e4m3 && ef == top then (if mf = 0 then .inf neg else .nan)
  else if ef = 0 then .fin neg mf (1 - (f.bias : Int) - f.manBits)
  else .fin neg (mf + 2 ^ f.manBits) ((ef : Int) - f.bias - f.manBits)

/-- A number m × 2^e, a little more when sticky, rounded to a whole multiple of 2^q with ties to even. -/
def roundAt (m : Nat) (e : Int) (sticky : Bool) (q : Int) : Nat :=
  if q ≤ e then m * 2 ^ (e - q).toNat
  else
    let s := (q - e).toNat
    let base := m / 2 ^ s
    let rest := m % 2 ^ s
    let half := 2 ^ (s - 1)
    if rest > half || (rest == half && (sticky || base % 2 == 1)) then base + 1 else base

/-- The exponent of the last place a number takes in a format. -/
def Fmt.lastPlace (f : Fmt) (m : Nat) (e : Int) : Int :=
  max (e + bitLength m - (f.manBits + 1)) (1 - (f.bias : Int) - f.manBits)

/-- The canonical NaN of a format (R99). -/
def Fmt.nanBits (f : Fmt) : Nat :=
  if f.e4m3 then 0x7F
  else (2 ^ f.expBits - 1) * 2 ^ f.manBits + (if f.manBits = 2 then 2 else 2 ^ (f.manBits - 1))

/-- The bits of an infinity. -/
def Fmt.infBits (f : Fmt) (neg : Bool) : Nat :=
  flag neg * 2 ^ (f.expBits + f.manBits) + (2 ^ f.expBits - 1) * 2 ^ f.manBits

/-- The greatest finite magnitude's bits. -/
def Fmt.maxBits (f : Fmt) (neg : Bool) : Nat :=
  flag neg * 2 ^ (f.expBits + f.manBits) +
    (if f.e4m3 then 2 ^ (f.expBits + f.manBits) - 2 else (2 ^ f.expBits - 1) * 2 ^ f.manBits - 1)

/-- A rounded magnitude r × 2^q as a format's exponent and mantissa fields, or none when it passes the greatest
finite number. -/
def Fmt.fields (f : Fmt) (r : Nat) (q : Int) : Option Nat :=
  let (r, q) := if r = 2 ^ (f.manBits + 1) then (r / 2, q + 1) else (r, q)
  if r < 2 ^ f.manBits then some r
  else
    let ef := (q + f.bias + f.manBits).toNat
    let w := ef * 2 ^ f.manBits + (r - 2 ^ f.manBits)
    if w ≤ f.maxBits false then some w else none

/-- A number rounded to a format, to nearest with ties to even (R100). An overflow gives the infinity (R121); FP8
E4M3 has none and keeps the greatest magnitude (R123) (readings: log entry 36). -/
def Fmt.round (f : Fmt) (neg : Bool) (m : Nat) (e : Int) (sticky : Bool) : Nat :=
  let q := f.lastPlace m e
  match f.fields (roundAt m e sticky q) q with
  | some w => flag neg * 2 ^ (f.expBits + f.manBits) + w
  | none => if f.e4m3 then f.maxBits neg else f.infBits neg

/-- A number as a format's bits (R99, R100). -/
def Fmt.encode (f : Fmt) : Fp → Nat
  | .nan => f.nanBits
  | .inf neg => if f.e4m3 then f.maxBits neg else f.infBits neg
  | .fin neg m e => f.round neg m e false

/-- The signed mantissa of a finite number at an exponent not above its own. -/
def scaledInt (neg : Bool) (m : Nat) (e q : Int) : Int :=
  let v : Int := (m * 2 ^ (e - q).toNat : Nat)
  if neg then -v else v

/-- The exact sum of two numbers (R121). A zero sum of opposite signs is +0, as IEEE 754 rounds to nearest. -/
def Fp.add : Fp → Fp → Fp
  | .nan, _ => .nan
  | _, .nan => .nan
  | .inf a, .inf b => if a = b then .inf a else .nan
  | .inf a, _ => .inf a
  | _, .inf b => .inf b
  | .fin na ma ea, .fin nb mb eb =>
    let q := min ea eb
    let v := scaledInt na ma ea q + scaledInt nb mb eb q
    if v = 0 then .fin (if ma = 0 && mb = 0 then na && nb else false) 0 q
    else .fin (decide (v < 0)) v.natAbs q

/-- The number with its sign changed. -/
def Fp.neg : Fp → Fp
  | .nan => .nan
  | .inf a => .inf (!a)
  | .fin a m e => .fin (!a) m e

/-- The exact product of two numbers (R121). -/
def Fp.mul : Fp → Fp → Fp
  | .nan, _ => .nan
  | _, .nan => .nan
  | .inf a, .inf b => .inf (a != b)
  | .inf a, .fin b m _ => if m = 0 then .nan else .inf (a != b)
  | .fin a m _, .inf b => if m = 0 then .nan else .inf (a != b)
  | .fin a ma ea, .fin b mb eb => .fin (a != b) (ma * mb) (ea + eb)

/-- The number's order: whether a stands below b. False with a NaN. -/
def Fp.lt : Fp → Fp → Bool
  | .nan, _ => false
  | _, .nan => false
  | .inf a, .inf b => a && !b
  | .inf a, .fin _ _ _ => a
  | .fin _ _ _, .inf b => !b
  | .fin na ma ea, .fin nb mb eb =>
    let q := min ea eb
    decide (scaledInt na ma ea q < scaledInt nb mb eb q)

/-- Whether two numbers are equal in value. False with a NaN. -/
def Fp.eqv : Fp → Fp → Bool
  | .nan, _ => false
  | _, .nan => false
  | .inf a, .inf b => a == b
  | .inf _, .fin _ _ _ => false
  | .fin _ _ _, .inf _ => false
  | .fin na ma ea, .fin nb mb eb =>
    let q := min ea eb
    decide (scaledInt na ma ea q = scaledInt nb mb eb q)

/-- Whether a number is a NaN. -/
def Fp.isNan : Fp → Bool
  | .nan => true
  | _ => false

/-- Whether a number is an infinity. -/
def Fp.isInf : Fp → Bool
  | .inf _ => true
  | _ => false

/-- Whether a number is a zero. -/
def Fp.isZero : Fp → Bool
  | .fin _ 0 _ => true
  | _ => false

/-- The magnitude of a number. -/
def Fp.abs : Fp → Fp
  | .nan => .nan
  | .inf _ => .inf false
  | .fin _ m e => .fin false m e

/-- An integer as a number. -/
def Fp.ofInt (x : Int) : Fp := .fin (decide (x < 0)) x.natAbs 0

/-- The FP32 value of a register or memory word. -/
def f32 (w : U32) : Fp := fp32.decode w.toNat

/-- A number rounded to FP32. -/
def toF32 (x : Fp) : U32 := BitVec.ofNat 32 (fp32.encode x)

/-- FP32 addition (R121) (readings: log entry 36). -/
def fAdd (a b : U32) : U32 := toF32 ((f32 a).add (f32 b))
/-- FP32 subtraction (R121). -/
def fSub (a b : U32) : U32 := toF32 ((f32 a).add (f32 b).neg)
/-- FP32 multiplication (R121) (readings: log entry 36). -/
def fMul (a b : U32) : U32 := toF32 ((f32 a).mul (f32 b))
/-- FP32 fused multiply-add: one rounding of a × b + c (R176) (readings: log entry 36). -/
def fFma (a b c : U32) : U32 := toF32 (((f32 a).mul (f32 b)).add (f32 c))

/-- An exact quotient of magnitudes as a rounded format's bits: the quotient to 2^k places below the divisor's
width, and a sticky mark for the rest. -/
def Fmt.divRound (f : Fmt) (neg : Bool) (ma : Nat) (ea : Int) (mb : Nat) (eb : Int) : Nat :=
  let k := f.manBits + 4 + bitLength mb
  let n := ma * 2 ^ k
  f.round neg (n / mb * 2 + flag (n % mb != 0)) (ea - eb - k - 1) (n % mb != 0)

/-- The quotient of two numbers in a format, correctly rounded (R121, R176). -/
def Fmt.div (f : Fmt) : Fp → Fp → Nat
  | .nan, _ => f.nanBits
  | _, .nan => f.nanBits
  | .inf _, .inf _ => f.nanBits
  | .inf a, .fin b _ _ => f.infBits (a != b)
  | .fin a _ _, .inf b => f.encode (.fin (a != b) 0 0)
  | .fin a ma ea, .fin b mb eb =>
    if mb = 0 then (if ma = 0 then f.nanBits else f.infBits (a != b))
    else f.divRound (a != b) ma ea mb eb

/-- FP32 division, correctly rounded (R176) (readings: log entry 36). -/
def fDiv (a b : U32) : U32 := BitVec.ofNat 32 (fp32.div (f32 a) (f32 b))

/-- The greatest number whose square is at most n, found bit by bit from a bit downward. -/
def isqrtFrom (n : Nat) : Nat → Nat → Nat
  | 0, r => if (r + 1) * (r + 1) ≤ n then r + 1 else r
  | b + 1, r => isqrtFrom n b (if (r + 2 ^ (b + 1)) * (r + 2 ^ (b + 1)) ≤ n then r + 2 ^ (b + 1) else r)

/-- The integer square root. -/
def isqrt (n : Nat) : Nat := isqrtFrom n (bitLength n / 2 + 1) 0

/-- The square root in FP32, correctly rounded (R176) (readings: log entry 36). -/
def fSqrt (a : U32) : U32 :=
  match f32 a with
  | .nan => toF32 .nan
  | .inf neg => if neg then toF32 .nan else a
  | .fin neg m e =>
    if m = 0 then a
    else if neg then toF32 .nan
    else
      let (m, e) := if e % 2 = 0 then (m, e) else (2 * m, e - 1)
      let k : Nat := 30
      let n := m * 4 ^ k
      let r := isqrt n
      BitVec.ofNat 32 (fp32.round false (2 * r + flag (r * r != n)) (e / 2 - k - 1) (r * r != n))

/-- The reciprocal square root in FP32, correctly rounded (R176): the root of the reciprocal to 60 places with a
sticky mark. -/
def fRsqrt (a : U32) : U32 :=
  match f32 a with
  | .nan => toF32 .nan
  | .inf neg => if neg then toF32 .nan else 0
  | .fin neg m e =>
    if m = 0 then BitVec.ofNat 32 (fp32.infBits neg)
    else if neg then toF32 .nan
    else
      let (m, e) := if e % 2 = 0 then (m, e) else (2 * m, e - 1)
      let k : Nat := 60
      let r := isqrt (4 ^ k / m)
      let exact := r * r * m == 4 ^ k
      BitVec.ofNat 32 (fp32.round false (2 * r + flag (!exact)) (-(e / 2) - k - 1) (!exact))

/-- FP32 reciprocal, correctly rounded (R176). -/
def fRecip (a : U32) : U32 := fDiv 0x3F800000 a

/-- A real quotient n / d with d positive, rounded to an integer with ties to even (readings: log entry 36). -/
def roundHalfEven (n : Int) (d : Nat) : Int :=
  let q := n.natAbs / d
  let r := n.natAbs % d
  let k := if 2 * r > d || (2 * r == d && q % 2 == 1) then q + 1 else q
  if n < 0 then -(k : Int) else k

/-- A finite number rounded to an integer with ties to even. -/
def fpRoundInt (neg : Bool) (m : Nat) (e : Int) : Int :=
  let k := roundAt m e false 0
  if neg then -(k : Int) else k

/-- The value m × 2^e of a finite number as a numerator and a denominator. -/
def Fp.ratio : Fp → Int × Nat
  | .fin neg m e =>
    let n : Int := (m * 2 ^ e.toNat : Nat)
    (if neg then -n else n, 2 ^ (-e).toNat)
  | _ => (0, 1)

/-- A BF16 value. -/
def fBf16 (w : Nat) : Fp := bf16.decode w

/-- A number whose bits are an FP32 subnormal, written as a zero of the same sign (R135). -/
def flushF32 (w : U32) : U32 :=
  if w.toNat / 2 ^ 23 % 256 = 0 then BitVec.ofNat 32 (w.toNat / 2 ^ 31 * 2 ^ 31) else w

/-- A BF16 operand with a subnormal read as a zero of the same sign, as FP32 bits (R135). -/
def bx2Operand (w : Nat) : U32 :=
  flushF32 (BitVec.ofNat 32 (w * 2 ^ 16))

/-- The outcome of a conversion to an output format (R123): the code, and whether the value saturated, was a NaN,
or was an infinity. -/
structure Conversion where
  code : Nat
  saturated : Bool
  wasNan : Bool
  wasInf : Bool
  deriving DecidableEq, Repr

/-- The conversion of an FP32 value to a signed integer format of greatest magnitude top and n bits (R123) (readings: log entry 36). -/
def convertInt (n top : Nat) (w : U32) : Conversion :=
  match f32 w with
  | .nan => ⟨0, false, true, false⟩
  | .inf neg => ⟨toTwos n (if neg then -(top : Int) else top), true, false, true⟩
  | .fin neg m e =>
    let v := fpRoundInt neg m e
    let c := clampInt v (-(top : Int)) top
    ⟨toTwos n c, decide (c ≠ v), false, false⟩

/-- The conversion of an FP32 value to a floating-point format (R123) (readings: log entry 36). -/
def convertFp (f : Fmt) (w : U32) : Conversion :=
  match f32 w with
  | .nan => ⟨f.nanBits, false, true, false⟩
  | .inf neg => ⟨f.encode (.inf neg), f.e4m3, false, true⟩
  | .fin neg m e =>
    let q := f.lastPlace m e
    let past := (f.fields (roundAt m e false q) q).isNone
    ⟨f.round neg m e false, past && f.e4m3, false, past && !f.e4m3⟩

/-- The pairwise tree of R167 over FP32 values, by count of levels. -/
def treeLevels : Nat → List U32 → List U32
  | 0, l => l
  | n + 1, l =>
    let rec pairs : List U32 → List U32
      | a :: b :: t => fAdd a b :: pairs t
      | t => t
    treeLevels n (pairs l)

/-- The fixed pairwise sum of a list of FP32 values in increasing index; an empty list gives +0.0 (R167). -/
def treeSum (l : List U32) : U32 := (treeLevels (bitLength l.length) l).headD 0

end Sys2Proof.Machine
end

