-- ==== Sys2Proof/Machine/Quantise.lean ====
section
/-! DEFINITION. The input blocks of PASS words and the activation quantiser (R103 to R106, R187). -/

namespace Sys2Proof.Machine

/-- The elements of one row of an input block, and its bytes (R187). -/
def rowLen (mode : Nat) : Nat := if mode = 3 then 512 else 1024
def rowBytes (p : PassWord) : Nat := if p.mode = 3 then 512 else [512, 1024, 2048].getD p.inFmt 4096

/-- A size rounded up to whole granules. -/
def granuleUp (n : Nat) : Nat := (n + 63) / 64 * 64

/-- The address of a core-store granule of a core (R188). -/
def storeAddr (c g : Nat) : Nat := storeBase c + 64 * g

/-- The address of a token's row, and of its scale (R187). -/
def rowAddr (c : Nat) (p : PassWord) (t : Nat) : Nat := storeAddr c p.inAddr + t * rowBytes p
def scaleAddr (c : Nat) (p : PassWord) (t : Nat) : Nat :=
  storeAddr c p.inAddr + granuleUp (2 ^ p.shape * rowBytes p) + 4 * t

/-- A wide input: BF16 or FP32 (R103). -/
def PassWord.wide (p : PassWord) : Bool := p.mode != 3 && decide (2 ≤ p.inFmt)

/-- An operand of a core that is poisoned, or that lies past the end of its core store (R31, R403). -/
def coreOperandBad (m : Memory) (c a n : Nat) : Bool := m.poisoned a n || decide (storeBase c + 0x600000 < a + n)

/-- Bytes read as little-endian numbers of n bytes each. -/
def elements (n count : Nat) (l : List Byte) : List Nat := (chunks n count l).map leNat

/-- The FP32 bits of a wide row. -/
def wideRow (m : Memory) (c : Nat) (p : PassWord) (t : Nat) : List U32 :=
  let l := m.read (rowAddr c p t) (rowBytes p)
  if p.inFmt = 2 then (elements 2 1024 l).map (fun w => BitVec.ofNat 32 (w * 65536))
  else (elements 4 1024 l).map (fun w => BitVec.ofNat 32 w)

/-- The codes of a stored integer row. -/
def storedRow (m : Memory) (c : Nat) (p : PassWord) (t : Nat) : List Int :=
  let l := m.read (rowAddr c p t) (rowBytes p)
  if p.mode = 3 then l.map (fun b => signed 8 b.toNat)
  else if p.inFmt = 0 then (nibbles l).map (signed 4)
  else l.map (fun b => signed 8 b.toNat)

/-- The row zero mask of an anvil as one number (R62). -/
def Device.rowMask (d : Device) (u : Nat) : Nat :=
  (List.range 32).foldl (fun m j => m + d.get (pageAnv u + 0x300 + 4 * j) * 2 ^ (32 * j)) 0

/-- A list with the masked rows replaced by a value. -/
def maskOut {α : Type} (mask : Nat) (v : α) (l : List α) : List α :=
  l.zipIdx.map (fun e => if bit mask e.2 then v else e.1)

/-- The mask of the anvil a PASS word names, and no row when the map names none. -/
def Device.passMask (d : Device) (c : Nat) (p : PassWord) : Nat :=
  if p.mode = 3 then 0 else match d.mapped c p.anvil with
    | some u => d.rowMask u
    | none => 0

/-- The canonical NaN and 1.0 in FP32. -/
def nanF32 : U32 := 0x7FC00000
def oneF32 : U32 := 0x3F800000

/-- The largest magnitude of a list of FP32 values as bits, a NaN when one of them is a NaN or an infinity (R105). -/
def amaxOf (l : List U32) : U32 :=
  let m := l.foldl (fun a x => Nat.max a (x.toNat % 2 ^ 31)) 0
  if 0x7F800000 ≤ m then nanF32 else BitVec.ofNat 32 m

/-- A whole number in FP32. -/
def f32OfInt (x : Int) : U32 := toF32 (Fp.ofInt x)

/-- The activation scale from the largest magnitude (R103, R105). -/
def scaleOf (qmax : Nat) (amax : U32) : U32 :=
  if amax = nanF32 then nanF32 else if amax = 0 then oneF32 else fDiv amax (f32OfInt qmax)

/-- An exact quotient q × x / amax rounded to the nearest integer, ties to even. -/
def exactCode (qmax : Nat) (amax x : U32) : Int :=
  match f32 x, f32 amax with
  | .fin neg m e, .fin _ ma ea =>
    let k := min e ea
    roundHalfEven (scaledInt neg (m * qmax) e k) (scaledInt false ma ea k).natAbs
  | _, _ => 0

/-- An FP32 value rounded to an integer, ties to even. -/
def roundF32 (x : U32) : Int :=
  match f32 x with
  | .fin neg m e => fpRoundInt neg m e
  | _ => 0

/-- The code of one input under a largest magnitude (R103, R105). -/
def quantCode (qmax : Nat) (amax x : U32) : Int :=
  if amax = nanF32 ∨ amax = 0 ∨ x.toNat % 2 ^ 31 = 0 then 0
  else
    let r := fDiv (f32OfInt qmax) amax
    if (f32 r).isInf ∨ scaleOf qmax amax = 0 then exactCode qmax amax x
    else clampInt (roundF32 (fMul x r)) (-(qmax : Int)) qmax

/-- The greatest code of a pass mode (R103). -/
def qmaxOf (mode : Nat) : Nat := if mode = 0 ∨ mode = 1 then 7 else 127

/-! ### The PASS words of a tile (R103, check 12 of R182) -/

/-- The PASS words of a tile entry from a place of the stream on: up to and including the join that carries LAST. The
first option holds the words of that join still to come. -/
def tileWordsFrom (cls tile : Nat) (poisoned : List Nat) : Option (Nat × Nat) → List (Nat × Nat) → List (Nat × PassWord)
  | _, [] => []
  | left, (w, i) :: l =>
    let p := passWord w
    if wOp w = opPass ∧ p.tile = tile ∧ inClass w cls ∧ !(poisoned.contains i) then
      match left with
      | none => (i, p) :: tileWordsFrom cls tile poisoned (if p.last then some (p.join, p.joinN - 1) else none) l
      | some (j, n) =>
        if p.join = j ∧ 0 < n then (i, p) :: tileWordsFrom cls tile poisoned (some (j, n - 1)) l else []
    else tileWordsFrom cls tile poisoned left l

/-- The PASS words of the tile that the word at a place of the resident stream opens (R103). -/
def CoreState.tileWords (x : CoreState) (cls openIdx tile : Nat) : List (Nat × PassWord) :=
  tileWordsFrom cls tile x.poisoned none ((x.stream.zipIdx 0).drop openIdx)

/-- The largest magnitude of a token over the tile's words (R103). -/
def Device.tileAmax (d : Device) (m : Memory) (c : Nat) (ws : List (Nat × PassWord)) (t : Nat) : U32 :=
  amaxOf (ws.map (fun e => amaxOf (maskOut (d.passMask c e.2) 0 (wideRow m c e.2 t))))

/-- The codes that a PASS word applies for a token (R103, R187): the quantiser's for a wide input, else as stored.
Masked rows apply none (R62), by the mask as it stands at the issue (readings: log entry 66). -/
def Device.codesOf (d : Device) (m : Memory) (c : Nat) (p : PassWord) (amax : List U32) (t : Nat) : List Int :=
  let mask := d.passMask c p
  if p.wide then maskOut mask 0 ((wideRow m c p t).map (quantCode (qmaxOf p.mode) (amax.getD t 0)))
  else maskOut mask 0 (storedRow m c p t)

/-- Zeroed inputs, and inputs not zero, of one token of a wide input (R106). -/
def zeroCounts (amax : U32) (x : List U32) (codes : List Int) : Nat × Nat :=
  if amax = nanF32 then (0, 0)
  else
    let nz := (x.zip codes).filter (fun e => e.1.toNat % 2 ^ 31 != 0)
    ((nz.filter (fun e => e.2 == 0)).length, nz.length)

/-- The counts of a PASS word over its tokens (R106). A masked row counts in neither (readings: log entry 66). -/
def Device.wordZeroCounts (d : Device) (m : Memory) (c : Nat) (p : PassWord) (amax : List U32) (codes : List (List Int)) :
    Nat × Nat :=
  if !p.wide then (0, 0)
  else (codes.zipIdx).foldl (fun acc e =>
    let z := zeroCounts (amax.getD e.2 0) (maskOut (d.passMask c p) 0 (wideRow m c p e.2)) e.1
    (acc.1 + z.1, acc.2 + z.2)) (0, 0)

/-- The tokens whose input rows are poisoned, or whose stored scale is (R403). -/
def poisonedTokens (m : Memory) (c : Nat) (p : PassWord) : List Nat :=
  (List.range (2 ^ p.shape)).filter (fun t =>
    coreOperandBad m c (rowAddr c p t) (rowBytes p) || (!p.wide && coreOperandBad m c (scaleAddr c p t) 4))

/-- The ledger entries of an anvil (R86): row, column and correction. -/
def Device.ledger (d : Device) (u : Nat) : List (Nat × Nat × Int) :=
  ((d.flash u).ledger.filter (fun w => bit w 31)).map (fun w => (bits w 9 0, bits w 19 10, signed 5 (bits w 24 20)))

/-- The ledger term of one token's codes: column and value (R146). -/
def Device.ledgerTerm (d : Device) (u : Nat) (codes : List Int) : List (Nat × Int) :=
  (d.ledger u).map (fun e => (e.2.1, e.2.2 * codes.getD e.1 0))

end Sys2Proof.Machine
end

