-- ==== Sys2Proof/Machine/Bound.lean ====
section
/-! DEFINITION. The error bound of a tile's outputs (R112 to R114, R119): the limit of each pass form, and how the integers
that are promoted last keep an output inside it (log entry 3). -/

namespace Sys2Proof.Machine

/-- The unit of errors: one LSB is 2^149 of it, so that every ratio r of R128, an FP32 value, is a whole number of it. -/
def errUnit : Nat := 2 ^ 149

/-- A finite FP32 magnitude in the unit of errors. -/
def errScale (r : U32) : Nat :=
  match f32 r with
  | .fin _ m e => (scaledInt false m e (-149)).natAbs
  | _ => 0

/-- The root of num · k / den, times a factor, rounded down. -/
def rootOf (num den k factor : Nat) : Nat := isqrt (num * k * factor * factor / den)

/-- The limit of the error of the sum of n reads of an output of K inputs, in the unit of errors, by pass mode and with the
ratio r of an outlier split (R112, R113); none for a form to which the rules give no bound. -/
def formLimit (mode k n : Nat) (ratio : Option Nat) : Option Nat :=
  match mode, ratio with
  | 0, none => some (rootOf 81 100 (k * n) errUnit + 2 * n * errUnit)
  | 0, some r => some (rootOf 81 100 (k * n) errUnit + 2 * n * errUnit + rootOf 81 6400 (k * n) r + 2 * n * r)
  | 2, none => if n = 1 then some (rootOf 841 4 k errUnit + 34 * errUnit) else none
  | 3, none => if n = 1 then some (rootOf 196 100 k errUnit + 3 * (k / 512) * errUnit) else none
  | _, _ => none

/-- The limit on a tile whose passes met the conditions of R112 throughout: doubled with a heavy slab struck whole (R114), and none
beyond K = 131,072. -/
def errLimit (met heavy : Bool) (mode k n : Nat) (ratio : Option Nat) : Option Nat :=
  if met && decide (k ≤ 131072) then (formLimit mode k n ratio).map (fun l => if heavy then 2 * l else l) else none

/-- What an output's last integer takes so that its error, in the unit of errors, stays inside a limit. -/
def pullBack (limit : Nat) (e : Int) : Int :=
  if (limit : Int) < e then -((e - limit + errUnit - 1) / errUnit)
  else if e < -(limit : Int) then (-e - limit + errUnit - 1) / errUnit
  else 0

/-- What the last integers of a token's outputs take: an output is bounded when the squares of its products are at most 64 in the
mean (condition 6 of R112). -/
def pullBacks (limit : Option Nat) (k : Nat) (squares : List Nat) (errs : List Int) : List Int :=
  match limit with
  | none => []
  | some l => errs.zipIdx.map (fun e => if squares.getD e.2 0 ≤ 64 * k then pullBack l e.1 else 0)

/-- A list of numbers added to another, element by element. -/
def addNats : List Nat → List Nat → List Nat
  | [], l => l
  | l, [] => l
  | a :: l, b :: m => (a + b) :: addNats l m

/-- The difference of two lists. -/
def subLists (a b : List Int) : List Int := addLists a (b.map (- ·))

end Sys2Proof.Machine
end

