-- ==== Sys2Proof/Machine/Accum.lean ====
section
/-! DEFINITION. The accumulator path of a core: tiles, joins and promotion (R107 to R111, R145 to R156, R178, R179). -/

namespace Sys2Proof.Machine

/-! ### The resident billet (R352 to R357) -/

/-- The base of the resident region (R356). -/
def Device.billetBase (d : Device) : Nat := d.get64 (pageBlt + 0x104) % 2 ^ 40

/-- The offset of the section of a kind for a logical anvil of a core, searched in the section table's order (R353). -/
def sectionFrom (m : Memory) (base kind c anvil : Nat) : Nat → Nat → Option Nat
  | 0, _ => none
  | n + 1, i =>
    let e := m.read (base + 0x80 + 32 * i) 32
    if field e 0 1 = kind ∧ field e 1 1 = c / 128 ∧ field e 2 1 = c % 128 ∧ field e 3 1 = anvil then some (field e 8 8)
    else sectionFrom m base kind c anvil n (i + 1)

/-- The address of a section of the resident billet, read in place (R357). -/
def Device.section_ (d : Device) (m : Memory) (kind c anvil : Nat) : Option Nat :=
  if m.read d.billetBase 4 ≠ [0x4E, 0x42, 0x58, 0x42] then none
  else (sectionFrom m d.billetBase kind c anvil (m.nat (d.billetBase + 0x34) 4) 0).map (fun o => d.billetBase + o)

/-- The scales s_w of a logical anvil (R354). -/
def Device.colScale (d : Device) (m : Memory) (c anvil : Nat) : ColScale :=
  match d.section_ m 2 c anvil with
  | some a => .table a
  | none => .absent c anvil

/-- A column scale of a source. -/
def ColScale.at_ (m : Memory) (j : Nat) : ColScale → U32
  | .one => oneF32
  | .table a => BitVec.ofNat 32 (m.nat (a + 4 * j) 4)
  | .absent c anvil => Config.missingScale c anvil j

/-! ### The tile table (R150 to R154) -/

/-- The columns or rows of a tile's token, and the words it takes of the store (R151). -/
def tileCols (transposed : Bool) : Nat := if transposed then 1024 else 512
def wordsPerOutput (fmt : Nat) : Nat := [1, 2, 2].getD fmt 3
def tileWordCount (transposed : Bool) (shape fmt : Nat) : Nat := 2 ^ shape * tileCols transposed * wordsPerOutput fmt
def Tile.size (t : Tile) : Nat := tileWordCount t.transposed t.shape t.fmt

/-- The tile has a side region, and a hold region (R151). -/
def Tile.hasSide (t : Tile) : Bool := t.fmt % 2 == 1
def Tile.hasHold (t : Tile) : Bool := decide (2 ≤ t.fmt)

/-- The store's words of a tile's output: main, side and hold. -/
def Tile.mainWord (t : Tile) (tok j : Nat) : Nat := t.region + tok * tileCols t.transposed + j
def Tile.sideWord (t : Tile) (tok j : Nat) : Nat := t.region + 2 ^ t.shape * 512 + tok * 512 + j

/-- The open tile of an entry. -/
def CoreState.tile (x : CoreState) (e : Nat) : Option Tile := smapFind x.tiles e

/-- The open tile of an entry with a shape (R615). -/
def CoreState.tileShaped (x : CoreState) (e shape : Nat) : Option Tile :=
  match x.tile e with
  | some t => if t.shape = shape then some t else none
  | none => none

/-- The core with a tile written. -/
def CoreState.setTile (x : CoreState) (e : Nat) (t : Tile) : CoreState := { x with tiles := smapSet x.tiles e t }

/-- The device with a tile of a core changed, when it is open. -/
def Device.onTile (d : Device) (c e : Nat) (f : Tile → Tile) : Device :=
  match (d.core c).tile e with
  | some t => d.onCore c (fun x => x.setTile e (f t))
  | none => d

/-- The words in use (R153). -/
def CoreState.wordsUsed (x : CoreState) : Nat := sumNat (x.tiles.map (fun e => e.2.size))

/-- A tile freed (R154). -/
def CoreState.freeTile (x : CoreState) (e : Nat) : CoreState := { x with tiles := smapErase x.tiles e }

/-- An event of the accumulator path page (R179). -/
def Device.accEvent (d : Device) (c b status tileId entry region : Nat) : Device :=
  d.eventSt (pageAcc c) b status [tileId, entry + region * 0x10000]

/-- Passes or a word refused (R154, R615) (readings: log entry 33). -/
def Device.refuseTile (d : Device) (c tileId entry region : Nat) (n : Nat := 1) : Device :=
  (d.count (pageAcc c + 0x10C) n).accEvent c 0 stPoisoned tileId entry region

/-- Whether a PASS word agrees with an open tile (R154). -/
def Tile.agrees (t : Tile) (p : PassWord) : Bool :=
  t.tileId == p.tileId && t.region == p.region && t.fmt == p.fmt && t.shape == p.shape

/-- The word at a place of the stream is the first issued word of its tile (R154): it carries FIRST, and no word of its
tile has issued in this heat. -/
def CoreState.opens (x : CoreState) (cls : Nat) (p : PassWord) (idx : Nat) : Bool :=
  p.first && !(match smapFind x.runs p.tile with
    | some j => (x.tileWords cls j p.tile).any (fun e => e.1 == idx)
    | none => false)

/-- Whether a new tile fits: its entry free, its region inside the store and clear of every open tile (R153, R154), in
a format of R151. -/
def CoreState.fits (x : CoreState) (p : PassWord) : Bool :=
  let size := tileWordCount (p.mode == 3) p.shape p.fmt
  (x.tile p.tile).isNone && decide (p.region + size ≤ 65536) && (p.mode != 3 || p.fmt == 0) &&
  x.tiles.all (fun e => decide (e.2.region + e.2.size ≤ p.region) || decide (p.region + size ≤ e.2.region))

/-- The heat's class of a core (R219). -/
def Device.cls (d : Device) (c : Nat) : Nat := bits (d.get (pageSeq c + 0x100)) 7 4

/-- The tile that a PASS word's first issue opens (R103, R154, R163): its activation scales, and the column scales of
the logical anvil of its first issued word, with its threshold set as it stands (R141) (readings: log entry 33). -/
def Device.newTile (d : Device) (m : Memory) (c idx : Nat) (p : PassWord) : Tile :=
  let ws := (d.core c).tileWords (d.cls c) idx p.tile
  let T := 2 ^ p.shape
  let amax := if p.wide then (List.range T).map (d.tileAmax m c ws) else []
  { tileId := p.tileId, region := p.region, fmt := p.fmt, shape := p.shape, transposed := p.mode == 3
    inFmt := p.inFmt, mode := p.mode, split := p.split, rt := p.rt, thr := d.rt (c / 128) p.rt, openIdx := idx, amax := amax
    sx := if p.wide then amax.map (scaleOf (qmaxOf p.mode))
      else (List.range T).map (fun t => BitVec.ofNat 32 (m.nat (scaleAddr c p t) 4))
    scol := if p.mode = 3 then .one else d.colScale m c p.anvil }

/-- ACC_HWM after a tile has opened (R178). -/
def Device.markHighWater (d : Device) (c : Nat) : Device :=
  d.set (pageAcc c + 0x108) (Nat.max (d.get (pageAcc c + 0x108)) (d.core c).wordsUsed)

/-- The core after its first issued word of a tile (readings: log entry 28). -/
def CoreState.startRun (x : CoreState) (entry idx : Nat) : CoreState := { x with runs := smapSet x.runs entry idx }

/-- A PASS word finds its tile, opens it, or each of its passes is refused (R154, R187): whether it has a tile, and the device
(readings: log entry 33). -/
def Device.findTile (d : Device) (m : Memory) (c idx : Nat) (p : PassWord) : Bool × Device :=
  let opens := (d.core c).opens (d.cls c) p idx
  let d := if opens then d.onCore c (·.startRun p.tile idx) else d
  let x := d.core c
  let refuse := (false, d.refuseTile c p.tileId p.tile p.region (2 ^ p.shape))
  if opens then
    if x.fits p then
      let t := d.newTile m c idx p
      let x := { x.setTile p.tile t with acc := smapEraseRange x.acc t.region (t.region + t.size) }
      (true, (d.setCore c x).markHighWater c)
    else refuse
  else match x.tile p.tile with
    | some t => if t.agrees p then (true, d) else refuse
    | none => refuse

/-! ### Joins (R145, R149, R192) -/

/-- The state of a join's slot that a pass holds (R192). -/
def SlotState.held : SlotState → Bool
  | .issued => true
  | .delivered => true
  | _ => false

/-- The status for which a slot fails. -/
def SlotState.lossOf : SlotState → Option Nat
  | .failed s => some s
  | _ => none

/-- The place of a join among those in flight (readings: log entry 33). -/
def CoreState.joinAt (x : CoreState) (e k : Nat) : Option Nat :=
  x.joins.findIdx? (fun j => j.entry == e && j.join == k)

/-- Every pass of a join is accounted for (readings: log entry 33). -/
def Join.complete (j : Join) : Bool := decide (j.n ≤ j.seen) && j.slots.all (· != .issued)

/-- The join has a pass in a slot, or is to have one (R145). -/
def Join.names (j : Join) (s : Nat) : Bool := decide (s < j.n) || j.slots.getD s .waiting != .waiting

/-- The join slots that hold a delivered pass. -/
def Join.delivered (j : Join) : Nat := (j.slots.filter (· == .delivered)).length

/-- A join slot that a PASS word may not name (R192): one that a pass holds, or that belongs to another join in
flight. -/
def CoreState.slotBusy (x : CoreState) (e k s : Nat) : Bool :=
  x.joins.any (fun j =>
    if j.entry = e ∧ j.join = k then (j.slots.getD s .waiting).held
    else j.slots.any (·.held) && j.names s && (j.slots.getD s .waiting).lossOf.isNone)

/-- JOIN_BUSY (R96): the join slots in use (readings: log entry 33). -/
def CoreState.joinBusy (x : CoreState) : Nat :=
  sumNat ((List.range 4).map (fun s =>
    if x.joins.any (fun j => j.slots.any (·.held) && j.names s && (j.slots.getD s .waiting).lossOf.isNone)
    then 2 ^ s else 0))

/-- The join with one of its slots in a state (readings: log entry 33). -/
def Join.take (j : Join) (found : Bool) (p : PassWord) (st : SlotState) : Join :=
  { j with slots := listSet j.slots p.slot st, order := j.order ++ [p.slot], seen := j.seen + 1, found := j.found && found, last := j.last || p.last }

/-- The join after the loss of a slot: the results of the other slots are discarded as well (R149). -/
def Join.losing (j : Join) (s status : Nat) : Join :=
  { j with slots := listSet j.slots s (.failed status), lost := true, results := [], exact := [], squares := [], factors := [], ledger := [] }

/-- The join of a PASS word in flight, begun when it is the join's first word, with its slot in a state. -/
def CoreState.withSlot (x : CoreState) (idx tick : Nat) (found : Bool) (p : PassWord) (st : SlotState) : CoreState :=
  match x.joinAt p.tile p.join with
  | some i => { x with joins := listModify x.joins i (fun j => j.take found p st) }
  | none =>
    let j : Join :=
      { entry := p.tile, join := p.join, tileId := p.tileId, idx := idx, shape := p.shape, mode := p.mode, last := p.last
        found := found, tick := tick, n := p.joinN, seen := 1, slots := listSet (List.replicate 4 .waiting) p.slot st, order := [p.slot] }
    { x with joins := x.joins ++ [j] }

/-- A pass of a word that does not deliver: its slot fails, and its tile is poisoned with the status that names the
cause, OK where no rule names one (R149, R611). -/
def Device.failSlot (d : Device) (c idx tick : Nat) (found : Bool) (p : PassWord) (status : Nat) : Device :=
  let d := d.onCore c (fun x => x.withSlot idx tick found p (.failed status))
  if found then d.onTile c p.tile (fun t => t.spoilFor status) else d

/-- A slot that loses its pass to an abort-drain or a block reset (R149): the join is lost, counted once. -/
def Device.loseSlot (d : Device) (c e k s status : Nat) : Device :=
  let x := d.core c
  match x.joinAt e k with
  | none => d
  | some i =>
    match x.joins[i]? with
    | none => d
    | some j =>
      let d := d.setCore c { x with joins := listSet x.joins i (j.losing s status) }
      let d := if j.found then d.onTile c e (fun t => t.spoil status) else d
      if j.lost then d
      else (d.count (pageAcc c + 0x110)).accEvent c 1 status j.tileId e (((d.core c).tile e).elim 0 (·.region))

/-! ### Promotion (R107, R108, R145 to R147, R170) -/

/-- The result of a slot, half and token. -/
def Join.result (j : Join) (slot half tok : Nat) : List Int := smapGet j.results [] (256 * slot + 128 * half + tok)

/-- The join sum of one half: the pass results in slot order (R107). -/
def Join.sum (j : Join) (half tok : Nat) : List Int :=
  (List.range 4).foldl (fun a s => addLists a ((j.result s half tok).take 512)) []

/-- The integers of a join for a token before its ledger term (R107, R108); of a transposed join the sum of its passes. -/
def Join.base (j : Join) (tok : Nat) : List Int :=
  if j.mode = 2 then addLists ((j.sum 0 tok).map (· * 16)) (j.sum 1 tok)
  else if j.mode = 3 then (List.range 4).foldl (fun a s => addLists a (j.result s 0 tok)) []
  else j.sum 0 tok

/-- How far the join's integers for a token lie from the exact ones (R112): its ledger terms are exact. -/
def Join.deviation (j : Join) (tok : Nat) : List Int := subLists (j.base tok) ({ j with results := j.exact }.base tok)

/-- The sums of the squares of the products of a token's outputs over the join. -/
def Join.squareSums (j : Join) (tok : Nat) : List Nat :=
  (List.range 4).foldl (fun a s => addNats a (smapGet j.squares [] (128 * s + tok))) []

/-- A list with a value added at a place. -/
def addAt (l : List Int) (i : Nat) (v : Int) : List Int := listModify l i (· + v)

/-- The join's ledger term added (R146). -/
def Join.withLedger (j : Join) (tok : Nat) (l : List Int) : List Int :=
  (List.range 4).foldl (fun l s =>
    (smapGet j.ledger [] (128 * s + tok)).foldl (fun l e => addAt l e.1 e.2) l) l

/-- The integers a join promotes for a token (R107, R108, R146, R147). -/
def Join.integers (j : Join) (tok : Nat) : List Int := j.withLedger tok (j.base tok)

/-- FP32 values added into words of the store from one on. -/
def addWords (acc : SMap U32) (first : Nat) (vals : List U32) : SMap U32 :=
  (vals.zipIdx first).foldl (fun a e => smapSet a e.2 (fAdd (smapGet a 0 e.2) e.1)) acc

/-- FP32 values written into words of the store from one on. -/
def putWords (acc : SMap U32) (first : Nat) (vals : List U32) : SMap U32 :=
  (vals.zipIdx first).foldl (fun a e => smapSet a e.2 e.1) acc

/-- The row results of a transposed pass as they are promoted (R170): a row of the row zero mask is discarded (R172). -/
def Join.rowValues (j : Join) (tok slot : Nat) (shift : List Int) : List U32 :=
  let factor := smapGet j.factors 0 (128 * slot + tok)
  let mask := smapGet j.masks 0 slot
  (addLists (j.result slot 0 tok) shift).zipIdx.map (fun e => if bit mask e.2 then 0 else fMul (f32OfInt e.1) factor)

/-- The store after the promotion of a token of a join (R107, R145; transposed passes one by one in plan order, R170), its last
integers shifted. -/
def Join.promoteToken (j : Join) (t : Tile) (tok : Nat) (shift : List Int) (acc : SMap U32) : SMap U32 :=
  if j.mode = 3 then
    let order := j.order.filter (fun s => j.slots.getD s .waiting == .delivered)
    order.foldl (fun acc s =>
      addWords acc (t.mainWord tok 0) (j.rowValues tok s (if order.getLast? == some s then shift else []))) acc
  else addWords acc (t.mainWord tok 0) ((addLists (j.integers tok) shift).map f32OfInt)

/-- The inputs a join adds to K_N (R110). -/
def Join.inputs (j : Join) : Nat := (if j.mode = 3 then 512 else 1024) * j.delivered

/-! ### Outcomes of tiles (R125, R126, R140, R202, R205) -/

/-- An event of the sequencer page (R220). -/
def Device.seqEvent (d : Device) (c b status op idx : Nat) : Device :=
  d.event (pageSeq c) b (status + b * 0x100 + op * 0x10000) [idx, d.get (pageSeq c + 0x104)]

/-- The filled slot-table entry of the current heat that a token of a tile belongs to, by the plan in hand (R160, R205; log entry 4). -/
def Device.tokenUse (d : Device) (c tileId tok : Nat) : Option SlotUse :=
  let e := Config.tokenSlot (d.get64 (pageHeat + 0x104)) d.heat.prog (d.cls c) c tileId tok
  (smapGet d.serving.dies {} (e / 4096)).cur.find? (fun q => q.entry == e % 4096)

/-- The tenant of the request that a slot-table entry serves. -/
def Device.useTenant (d : Device) (q : SlotUse) : Nat :=
  match smapFind d.serving.seqs q.seq with
  | some s => s.tenant
  | none => 0xFF

/-- The module's own note that a tenant of the heat asks for a replay: one to whose request a token of the tile belongs
(R205) (readings: log entry 34). -/
def Device.askReplay (d : Device) (c : Nat) (t : Tile) : Device :=
  let tenants := ((List.range (2 ^ t.shape)).filterMap (fun tok => d.tokenUse c t.tileId tok)).map d.useTenant
  if tenants.any (fun n => bit (d.get (pageHeat + 0x140 + 4 * (n / 32))) (n % 32) && decide (n < 64)) then
    { d with replayAsked := true }
  else d

/-- A due tile delivered without its reheat (R126, R140, R205) (readings: log entry 34). -/
def Device.unmend (d : Device) (c e idx op : Nat) : Device :=
  match (d.core c).tile e with
  | none => d
  | some t =>
    let die := c / 128
    let d := d.onCore c (fun x => x.setTile e { t.mark stUnmended with due := false })
    let d := (d.count (pageNum die + 0x11C)).numEvent die 1 stUnmended t.tileId 0
    (d.seqEvent c 3 stUnmended op idx).askReplay c t

/-- A tile found due by the confidence check: counted, and kept for the window unless the WINDOW tick has passed
(R125, R202). -/
def Device.foundDue (d : Device) (c e : Nat) : Device :=
  let d := d.count (pageNum (c / 128) + 0x134)
  match (d.core c).window with
  | some w => d.unmend c e w.idx opWindow
  | none => d.onTile c e (fun t => { t with due := true })

/-- The confidence check after a tile's last promotion (R125). Transposed tiles are never reheated (R202) (readings: log entry 34). -/
def Device.confidence (d : Device) (c e : Nat) : Device :=
  match (d.core c).tile e with
  | none => d
  | some t =>
    if !t.transposed && dueFor t.thr t.clampN t.zeroN t.nzN t.heavyN t.chkN then d.foundDue c e else d

/-- A tile's error bookkeeping for a token once a join is promoted into it (R112 to R114): its last promotion pulls the outputs
back into their bound. -/
def Tile.withDeviation (t : Tile) (j : Join) (tok : Nat) : List Int × Tile :=
  let devs := addLists (smapGet t.devs [] tok) (j.deviation tok)
  let squares := addNats (smapGet t.squares [] tok) (j.squareSums tok)
  let shift := if j.last then
      pullBacks (errLimit t.bounded t.heavy t.mode t.kN 1 none) t.kN squares (devs.map (· * errUnit))
    else []
  (shift, { t with devs := smapSet t.devs tok (addLists devs shift), squares := smapSet t.squares tok squares })

/-- A join promoted into its tile (R107 to R111, R145). -/
def Device.promoteJoin (d : Device) (c : Nat) (j : Join) (t : Tile) : Device :=
  let t := { t with kN := (t.kN + j.inputs) % 2 ^ 32 }
  let r := (List.range (2 ^ j.shape)).foldl (fun (r : Tile × SMap U32) tok =>
    let s := r.1.withDeviation j tok
    (s.2, j.promoteToken t tok s.1 r.2)) (t, (d.core c).acc)
  let d := d.onCore c (fun x => { x.setTile j.entry r.1 with acc := r.2 })
  let d := if j.mode = 3 then d.count (pageAcc c + 0x120) (2 ^ j.shape * j.delivered) else d
  if j.last then d.confidence c j.entry else d

/-- The first join of a core that every slot has delivered to, or lost its pass; a transposed join waits for those of its entry
before it (R170). -/
def readyFrom : List Nat → List Join → Option Nat
  | _, [] => none
  | held, j :: l =>
    if j.complete && !(j.mode == 3 && held.contains j.entry) then some 0 else (readyFrom (j.entry :: held) l).map (· + 1)

/-- That join. -/
def CoreState.readyJoin (x : CoreState) : Option Join := (readyFrom [] x.joins).bind (fun i => x.joins[i]?)

/-- The core without it. -/
def CoreState.dropJoin (x : CoreState) : CoreState := { x with joins := x.joins.eraseIdx ((readyFrom [] x.joins).getD x.joins.length) }

/-- The tile of a join that promotes nothing is poisoned, with the statuses of the passes that it lost (R149, R154, R611). -/
def Device.loseJoin (d : Device) (c : Nat) (j : Join) : Device :=
  match (d.core c).tile j.entry with
  | none => d
  | some t => if t.tileId = j.tileId then
      d.onTile c j.entry (fun t => (j.slots.filterMap SlotState.lossOf).foldl (fun t s => t.spoilFor s) t.spoilMarks)
    else d

/-- JOIN_PROMOTE (R145, R149): the first complete join leaves the join adder, promoted when every slot delivered and it
has a tile. -/
def opJoinPromote (c : Nat) (d : Device) : Device :=
  match (d.core c).readyJoin with
  | none => d
  | some j =>
    let d := d.onCore c (·.dropJoin)
    if j.found && j.slots.all (fun s => s == .waiting || s == .delivered) then
      match (d.core c).tile j.entry with
      | some t => d.promoteJoin c j t
      | none => d
    else d.loseJoin c j

/-- JOIN_PROMOTE. -/
def execJoinPromote (c : Core) (s : State) : Host.Outcome State Fault Refusal := s.onDev (opJoinPromote c.val)

/-- A tile's outcome counted once, when it is delivered to its epilogue or sent away (R126, R140, R202): one still due
has found no window. -/
def Device.settle (d : Device) (c e idx op : Nat) : Device :=
  match (d.core c).tile e with
  | none => d
  | some t =>
    if t.settled then d
    else
      let d := if t.due then d.unmend c e idx op else d
      let die := c / 128
      let d := if t.chk then d.count (pageNum die + 0x120) else d
      let d := if t.heavy then d.count (pageNum die + 0x124) else d
      d.onTile c e (fun t => { t with settled := true })

/-- BOUND_VOID of a delivered tile (R111, R140, R168) (readings: log entry 33). -/
def Device.boundVoid (d : Device) (c e : Nat) : Device :=
  match (d.core c).tile e with
  | none => d
  | some t =>
    if 131072 < t.kN then
      ((d.onTile c e (fun t => t.mark stBoundVoid)).count (pageNum (c / 128) + 0x114)).numEvent (c / 128) 0 stBoundVoid
        t.tileId t.kN
    else d

/-! ### The statuses of outputs in core store (R15, R164, R333) -/

/-- The outputs recorded in a core store with one more over n granules from g on, in place of those that it covers. -/
def CoreState.putOutput (x : CoreState) (g n status : Nat) : CoreState :=
  { x with outputs := smapSet (x.outputs.filter (fun e => decide (e.1 + e.2.1 ≤ g) || decide (g + n ≤ e.1))) g (n, status) }

/-- The statuses of the outputs that stand in a range of granules: their part of it from its first granule on, and the code. -/
def CoreState.outputsIn (x : CoreState) (g n : Nat) : List (Nat × Nat × Nat) :=
  x.outputs.filterMap (fun e =>
    let lo := Nat.max e.1 g
    let hi := Nat.min (e.1 + e.2.1) (g + n)
    if lo < hi then some (lo - g, hi - lo, e.2.2) else none)

end Sys2Proof.Machine
end

