-- ==== Sys2Proof/Machine/Access.lean ====
section
/-! DEFINITION. Who writes a register (R536), sleeping dies (R506, R511), and the writes that a block refuses (R542). -/

namespace Sys2Proof.Machine

/-- Whether an agent is one of the module's processors: security, housekeeping, management, bridge, or a die control
processor (R226, R536). -/
def isProcessor (agent : Nat) : Bool :=
  (agentKind agent == 2 && decide (agentIndex agent < 4)) || (agentKind agent == 1 && decide (agentIndex agent < 4))

/-- What a write does when a processor makes it: nothing comes from any other agent (R536). -/
def Device.written (d : Device) (agent : Nat) (f : Device → Device) : Device := if isProcessor agent then f d else d

/-- The same for a write that reaches memory. -/
def Part.written (p : Part) (agent : Nat) (f : Part → Part) : Part := if isProcessor agent then f p else p

/-- A write of CTRL that a rule of the block's own chapter refuses (R542, kind 7) (readings: log entry 31). -/
def Device.refuseCtrl (d : Device) (page v agent : Nat) : Device := d.logAccess 7 (page + 8) v agent

/-- The sleep state of a Camia die: 0 awake, 1 to 3 S1 to S3 (R531). -/
def Device.sleepState (d : Device) (die : Nat) : Nat := bits (d.get (pagePwr + 0x104)) (2 * die + 1) (2 * die)

/-- The device with a die's sleep state set. -/
def Device.setSleep (d : Device) (die v : Nat) : Device := d.setBits (pagePwr + 0x104) (2 * die + 1) (2 * die) v

/-- An event that wakes a die: from S2 or S3 the wake begins (R511) (readings: log entry 40). -/
def Device.wakeDie (d : Device) (die : Nat) : Device :=
  if 2 ≤ d.sleepState die then { d with power := { d.power with waking := setInsert d.power.waking die } } else d

/-- An access to a range of a die's DRAM or core stores wakes it. The access is held until the wake completes, and by nothing
else (R511) (readings: log entry 40). -/
def Device.wakeRange (d : Device) (a n : Nat) : Device :=
  if n = 0 ∨ 0xE000000000 ≤ a then d else (d.wakeDie (memDie a)).wakeDie (memDie (a + n - 1))

/-- An access to a page of a die wakes it (R511). -/
def Device.wakePage (d : Device) (off : Nat) : Device := if offDie off < 4 then d.wakeDie (offDie off) else d

/-- Every sleeping die begins to wake (R510, R511). -/
def Device.wakeAll (d : Device) : Device := (List.range 4).foldl (fun d i => d.wakeDie i) d

/-- Whether every die is out of S2 and S3 (R510). -/
def Device.allAwake (d : Device) : Bool := (List.range 4).all (fun i => decide (d.sleepState i < 2))

/-- The safe state (R530). -/
def Device.safe (d : Device) : Bool := bit (d.get (pagePwr + 0x160)) 4

/-- The level in force (R531). -/
def Device.perfLevel (d : Device) : Nat := bits (d.get (pagePwr + 0x100)) 2 0

/-- HC_STATE.STATE (R221). -/
def Device.heatState (d : Device) : Nat := bits (d.get (pageHeat + 0x100)) 2 0

/-- A plan runs: HC_STATE is neither idle, loaded nor halted (R510, R550). -/
def Device.planRuns (d : Device) : Bool := d.heatState == 2 || d.heatState == 3

/-- Phievo's tick (readings: log entry 29). -/
def Device.now (d : Device) : Nat := d.tick 4

end Sys2Proof.Machine
end

