-- ==== Sys2Proof/Machine/Digest.lean ====
section
/-! DEFINITION. The checks and digests the spec names by their standards: CRC-32C of RFC 3720, SHA-256 of FIPS 180-4,
HMAC-SHA-256 of RFC 2104, and the counter generator Philox4x32-10 of R334. -/

namespace Sys2Proof.Machine

/-- One bit step of the reflected CRC-32C division. -/
def crcStep : Nat → Nat → Nat
  | 0, c => c
  | n + 1, c => crcStep n (if c % 2 = 1 then Nat.xor (c / 2) 0x82F63B78 else c / 2)

/-- CRC-32C of bytes (R397). -/
def crc32c (l : List Byte) : Nat :=
  Nat.xor (l.foldl (fun c b => crcStep 8 (Nat.xor c b.toNat)) 0xFFFFFFFF) 0xFFFFFFFF

/-- The 64 round constants of SHA-256. -/
def shaK : List U32 :=
  [0x428a2f98, 0x71374491, 0xb5c0fbcf, 0xe9b5dba5, 0x3956c25b, 0x59f111f1, 0x923f82a4, 0xab1c5ed5] ++
  [0xd807aa98, 0x12835b01, 0x243185be, 0x550c7dc3, 0x72be5d74, 0x80deb1fe, 0x9bdc06a7, 0xc19bf174] ++
  [0xe49b69c1, 0xefbe4786, 0x0fc19dc6, 0x240ca1cc, 0x2de92c6f, 0x4a7484aa, 0x5cb0a9dc, 0x76f988da] ++
  [0x983e5152, 0xa831c66d, 0xb00327c8, 0xbf597fc7, 0xc6e00bf3, 0xd5a79147, 0x06ca6351, 0x14292967] ++
  [0x27b70a85, 0x2e1b2138, 0x4d2c6dfc, 0x53380d13, 0x650a7354, 0x766a0abb, 0x81c2c92e, 0x92722c85] ++
  [0xa2bfe8a1, 0xa81a664b, 0xc24b8b70, 0xc76c51a3, 0xd192e819, 0xd6990624, 0xf40e3585, 0x106aa070] ++
  [0x19a4c116, 0x1e376c08, 0x2748774c, 0x34b0bcb5, 0x391c0cb3, 0x4ed8aa4a, 0x5b9cca4f, 0x682e6ff3] ++
  [0x748f82ee, 0x78a5636f, 0x84c87814, 0x8cc70208, 0x90befffa, 0xa4506ceb, 0xbef9a3f7, 0xc67178f2]

/-- The initial hash value of SHA-256. -/
def shaInit : List U32 :=
  [0x6a09e667, 0xbb67ae85, 0x3c6ef372, 0xa54ff53a, 0x510e527f, 0x9b05688c, 0x1f83d9ab, 0x5be0cd19]

/-- The message schedule, newest word first: n more words. -/
def shaExtend : Nat → List U32 → List U32
  | 0, w => w
  | n + 1, w =>
    let a := w.getD 1 0
    let b := w.getD 14 0
    let s1 := (a.rotateRight 17) ^^^ (a.rotateRight 19) ^^^ (a >>> 10)
    let s0 := (b.rotateRight 7) ^^^ (b.rotateRight 18) ^^^ (b >>> 3)
    shaExtend n ((s1 + w.getD 6 0 + s0 + w.getD 15 0) :: w)

/-- One round of SHA-256 on the eight working words. -/
def shaRound (v : List U32) (k w : U32) : List U32 :=
  match v with
  | [a, b, c, d, e, f, g, h] =>
    let t1 := h + ((e.rotateRight 6) ^^^ (e.rotateRight 11) ^^^ (e.rotateRight 25)) + ((e &&& f) ^^^ (~~~e &&& g)) + k + w
    let t2 := ((a.rotateRight 2) ^^^ (a.rotateRight 13) ^^^ (a.rotateRight 22)) + ((a &&& b) ^^^ (a &&& c) ^^^ (b &&& c))
    [t1 + t2, a, b, c, d + t1, e, f, g]
  | v => v

/-- One 64-byte block of SHA-256. -/
def shaBlock (h : List U32) (block : List Byte) : List U32 :=
  let w := (chunks 4 16 block).map (fun b => BitVec.ofNat 32 (beNat b))
  let v := ((shaExtend 48 w.reverse).reverse.zip shaK).foldl (fun v wk => shaRound v wk.2 wk.1) h
  List.zipWith (· + ·) h v

/-- SHA-256 of bytes, as 32 bytes. -/
def sha256 (l : List Byte) : List Byte :=
  let zeros := (119 - l.length % 64) % 64
  let m := l ++ [0x80] ++ List.replicate zeros 0 ++ beBytes 8 (8 * l.length)
  ((chunks 64 (m.length / 64) m).foldl shaBlock shaInit).flatMap (fun w => beBytes 4 w.toNat)

/-- HMAC-SHA-256 (R448, R572). -/
def hmac256 (key msg : List Byte) : List Byte :=
  let k := padTo 64 0 (if key.length > 64 then sha256 key else key)
  sha256 (k.map (· ^^^ 0x5c) ++ sha256 (k.map (· ^^^ 0x36) ++ msg))

/-- The bytes of an ASCII string. -/
def asciiBytes (s : String) : List Byte := s.toList.map (fun c => BitVec.ofNat 8 c.toNat)

/-- The blocks T(1), T(2), … of HKDF-Expand, each made from the one before it (RFC 5869). -/
def hkdfBlocks (prk info : List Byte) : Nat → Nat → List Byte → List Byte
  | 0, _, _ => []
  | n + 1, i, t =>
    let t := hmac256 prk (t ++ info ++ [BitVec.ofNat 8 i])
    t ++ hkdfBlocks prk info n (i + 1) t

/-- HKDF-SHA-256: n bytes from a salt, a key and an info string (R448, R559) (readings: log entry 45). -/
def hkdf256 (salt ikm info : List Byte) (n : Nat) : List Byte :=
  (hkdfBlocks (hmac256 (if salt = [] then List.replicate 32 0 else salt) ikm) info (ceilDiv n 32) 1 []).take n

/-- One round of Philox4x32 on a counter under a key. -/
def philoxRound (c : List Nat) (k0 k1 : Nat) : List Nat :=
  let c0 := c.getD 0 0
  let c1 := c.getD 1 0
  let c2 := c.getD 2 0
  let c3 := c.getD 3 0
  let p0 := 0xD2511F53 * c0
  let p1 := 0xCD9E8D57 * c2
  [Nat.xor (Nat.xor (p1 / 2 ^ 32) c1) k0, p1 % 2 ^ 32, Nat.xor (Nat.xor (p0 / 2 ^ 32) c3) k1, p0 % 2 ^ 32]

/-- Rounds of Philox4x32 with the key bumped between rounds. -/
def philoxRounds : Nat → List Nat → Nat → Nat → List Nat
  | 0, c, _, _ => c
  | n + 1, c, k0, k1 => philoxRounds n (philoxRound c k0 k1) ((k0 + 0x9E3779B9) % 2 ^ 32) ((k1 + 0xBB67AE85) % 2 ^ 32)

/-- Philox4x32-10 of a 128-bit counter and a 64-bit key, four 32-bit words each, low word first (R334) (readings: log entry 61). -/
def philox (counter : List Nat) (key : Nat) : List Nat := philoxRounds 10 counter (key % 2 ^ 32) (key / 2 ^ 32)

end Sys2Proof.Machine
end

