-- ==== Sys2Proof/Machine/Fabric.lean ====
section
/-! DEFINITION. The core mesh: dimension-order routes, detours past dead routers, and the routing tables (R19, R21, R39 to
R42). -/

namespace Sys2Proof.Machine

/-! ### Cores and what a reset covers (R518, R519) -/

/-- The cores of a die. -/
def dieCores (die : Nat) : List Nat := (List.range 128).map (128 * die + ·)

/-- The cores that a core reset covers (readings: log entry 42). -/
def CoreReset.cores (r : CoreReset) : List Nat :=
  if r.scope = 1 then [128 * r.die + r.unit]
  else if r.scope = 2 then (List.range 16).map (fun i => 128 * r.die + 16 * r.unit + i) else dieCores r.die

/-- An address whose access a core reset that acts loses: in a covered core's store, or in the DRAM of a covered die. -/
def CoreReset.loses (r : CoreReset) (a : Nat) : Bool :=
  r.acting && ((decide (0x8000000000 ≤ a) && decide (a < 0x8400000000) && r.cores.contains (storeCore a)) ||
    (r.scope == 3 && decide (a < 0x6000000000) && memDie a == r.die))

/-- An access to a range completes with RESET_LOST (R258, R519) (readings: log entry 42). -/
def Device.inReset (d : Device) (a n : Nat) : Bool := d.power.coreResets.any (fun r => r.loses a || r.loses (a + n - 1))

/-- Words in hand that a reset ends complete with RESET_LOST (R522, R614) (readings: log entry 42). -/
def Device.loseWords (d : Device) (c : Nat) (l : List (Nat × Nat)) : Device :=
  l.foldl (fun d e => d.send (.wordLost c e.1 e.2 stResetLost)) d

/-! ### Routes in a cluster (R19, R21) -/

/-- The numbers from one to another, the first left out. -/
def stepsTo (a b : Nat) : List Nat :=
  if a ≤ b then (List.range (b - a)).map (a + 1 + ·) else (List.range (a - b)).map (a - 1 - ·)

/-- The routers of a cluster passed along the row, and along the column. -/
def alongRow (a column : Nat) : List Nat := (stepsTo (a % 4) column).map (4 * (a / 4) + ·)
def alongColumn (a row : Nat) : List Nat := (stepsTo (a / 4) row).map (4 * · + a % 4)

/-- The dimension-order route: first along the row and then along the column (R21). -/
def rowFirst (a b : Nat) : List Nat := alongRow a (b % 4) ++ alongColumn (4 * (a / 4) + b % 4) (b / 4)

/-- The route that takes the column first. -/
def columnFirst (a b : Nat) : List Nat := alongColumn a (b / 4) ++ alongRow (4 * (b / 4) + a % 4) (b % 4)

/-- The detours between two routers of a cluster: routes by one router on the way that pass no dead one, and no router
twice, and are at most 2 hops longer (R40) (readings: log entry 64). -/
def detours (dead : List Nat) (a b : Nat) : List (List Nat) :=
  ((List.range 16).flatMap (fun w =>
    [rowFirst a w, columnFirst a w].flatMap (fun p => [rowFirst w b, columnFirst w b].map (p ++ ·)))).filter (fun r =>
      r.all (fun n => !(dead.contains n)) && decide ((a :: r).Nodup) && decide (r.length ≤ (rowFirst a b).length + 2))

/-- The routing tables of a cluster with dead routers: its detours, one for each pair whose dimension-order route passes a
dead router (R40). Which of the detours a table names is free (readings: log entry 64). -/
def clusterTable (dead : List Nat) (draw k : Nat) : SMap (List Nat) :=
  (List.range 256).filterMap (fun e =>
    let a := e / 16
    let b := e % 16
    if dead.contains a || dead.contains b || !((rowFirst a b).any (fun n => dead.contains n)) then none
    else
      let l := detours dead a b
      (l[Config.detourChoice draw k e % Nat.max 1 l.length]?).map (e, ·))

/-! ### The tables in force (R40 to R42) -/

/-- The core routers changed. -/
def Device.onFabric (d : Device) (f : Fabric → Fabric) : Device := { d with fabric := f d.fabric }

/-- The dead routers of a cluster, by their places in it. -/
def Device.deadIn (d : Device) (k : Nat) : List Nat := (d.deadRouters.filter (fun c => c / 16 == k)).map (· % 16)

/-- The route of a packet between two routers of a cluster (R40). -/
def Device.coreRoute (d : Device) (k a b : Nat) : List Nat :=
  (smapFind (smapGet d.fabric.tables [] k) (16 * a + b)).getD (rowFirst a b)

/-- The tables of a cluster's routers loaded whole (R40, R42). -/
def Device.loadTables (d : Device) (k : Nat) : Device :=
  let t := clusterTable (d.deadIn k) d.free k
  { d with free := d.free + 1
           fabric := { d.fabric with tables := if t = [] then smapErase d.fabric.tables k else smapSet d.fabric.tables k t } }

/-- The tables that the die control processors load at boot: in the clusters with a dead router (R40) (readings: log entry 64). -/
def Device.bootTables (d : Device) : Device :=
  ((List.range 32).filter (fun k => d.deadIn k != [])).foldl (fun d k => d.loadTables k) d

/-- A transfer's packets pass a core router: it is that of its sequencer's core, of the core whose store it writes, or one
on the route between two cores of a cluster (R188, R21) (readings: log entry 64). -/
def Device.passes (d : Device) (c : Nat) (t : Transfer) : Bool :=
  let here := decide (0x8000000000 ≤ t.dst) && decide (t.dst < 0x8400000000) && (t.node == 0x1FF || t.node == d.node)
  let to_ := storeCore t.dst
  decide (128 ≤ t.engine) && (t.core == c || (here && t.core / 16 == to_ / 16 && t.core / 16 == c / 16 &&
    (d.coreRoute (c / 16) (t.core % 16) (to_ % 16)).contains (c % 16))) || (here && to_ == c)

/-- The packets that a router held when it was fenced have all left it (R42). -/
def Device.emptied (d : Device) (held : List Transfer) : Bool := d.transfers.all (fun t => !(held.contains t))

/-- New tables in force in the clusters whose fenced routers are empty (R42) (readings: log entry 64). -/
def Device.settleRouters (d : Device) : Device :=
  let done := d.fabric.closing.filter (fun e => d.emptied e.2)
  let ks := (done.map (fun e => e.1 / 16)).foldl setInsert []
  ks.foldl (fun d k => d.loadTables k) (d.onFabric (fun f => { f with closing := f.closing.filter (fun e => !(d.emptied e.2)) }))

/-- A packet of the transfer waits before a router that has stopped taking new ones (R42) (readings: log entry 64). -/
def Device.waitsRouter (d : Device) (t : Transfer) : Bool :=
  d.fabric.closing.any (fun e => !(e.2.contains t) && d.passes e.1 t)

end Sys2Proof.Machine
end

