-- ==== Sys2Proof/Machine/Route.lean ====
section
/-! DEFINITION. Routes of the mesh and the sending of frames (R422, R428, R429). -/

namespace Sys2Proof.Machine

/-- The step along a dimension of a size: 0 none, 1 the increasing way, 2 the decreasing way; equal distances go the
increasing way (R428). -/
def dimStep (size here there : Nat) : Nat :=
  let up := (there + size - here) % size
  if up = 0 then 0 else if 2 * up ≤ size then 1 else 2

/-- The number of groups that routes count with: those of the enumerated domain, at least enough for both ends. -/
def Device.ringSize (d : Device) (here there : Nat) : Nat :=
  Nat.max (bits (d.get (pageMesh + 0x100)) 21 16) (Nat.max here there + 1)

/-- The port on which a frame leaves this module for another node (R428, R45) (readings: log entry 44). -/
def Device.portTo (d : Device) (dst : Nat) (bulkOdd : Bool) : Nat :=
  let here := d.node
  let ring := dimStep (d.ringSize (here / 16) (dst / 16)) (here / 16) (dst / 16)
  let double := bulkOdd && !d.mesh.bridgeSel
  if ring = 1 then (if double then 7 else 5)
  else if ring = 2 then (if double then 6 else 4)
  else
    let x := dimStep 4 (here % 4) (dst % 4)
    if x = 1 then 0 else if x = 2 then 1
    else if dimStep 4 (here / 4 % 4) (dst / 4 % 4) = 1 then 2 else 3

/-- Whether a frame is an express cell (R424). -/
def Cell.express : Cell → Bool
  | .data .. | .done .. => false
  | _ => true

/-- The length of a frame from its destination address to its check sequence: a cell 64 bytes, a DATA frame its headers,
payload and check, no frame below 64 (R422, R424, R425). -/
def Cell.size : Cell → Nat
  | .data h _ => 66 + 64 * h.len
  | _ => 64

/-- Whether a frame is bulk with an odd source INDEX (R428). -/
def Cell.bulkOdd : Cell → Bool
  | .data h _ => agentIndex h.agent.toNat % 2 == 1
  | _ => false

/-- Whether a port sends a frame: nothing before a commit has set PORT_CFG.EN (R420), and no bulk frame before the 802.3br
verification has succeeded (R431) (readings: log entry 44). -/
def Device.mayLeave (d : Device) (port : Nat) (c : Cell) : Bool :=
  bit (d.get (pagePort port + 0x100)) 31 && (c.express || bit (d.get (pagePort port + 0x104)) 2)

/-- A frame leaves a port: its SEQ is taken and it is counted (R422, R458). A frame that the port may not send is lost
(readings: log entry 44). -/
def Device.sendOn (d : Device) (port src dst hops heat : Nat) (broadcast : Bool) (c : Cell) : Device :=
  if !d.mayLeave port c then d else
  let key := 2 * port + (if c.express then 1 else 0)
  let seq := smapGet d.mesh.seqs 0 key
  let d := { d with mesh := { d.mesh with seqs := smapSet d.mesh.seqs key ((seq + 1) % 2 ^ 32) } }
  let d := (d.count64 (pagePort port + 0x120) 1).count64 (pagePort port + 0x130) c.size
  let d := if c.express then d.count (pagePort port + 0x14C) else d
  d.send (.frame port src dst hops seq heat broadcast c)

/-- Bits 31:0 of HEAT_NUM, which every frame carries (R422). -/
def Device.heatField (d : Device) : Nat := d.get (pageHeat + 0x10C)

/-- A frame sent to another node on its route, with 24 hops (R422, R428). -/
def Device.cellTo (d : Device) (node : Nat) (c : Cell) : Device :=
  d.sendOn (d.portTo node c.bulkOdd) d.node node 24 d.heatField false c

/-- A frame sent to the neighbour on a port, broadcast before node addresses exist (R423). -/
def Device.cellOn (d : Device) (port : Nat) (broadcast : Bool) (c : Cell) : Device :=
  let dst := if broadcast then 0 else bits (d.get (pagePort port + 0x104)) 24 16
  d.sendOn port d.node dst 24 d.heatField broadcast c

end Sys2Proof.Machine
end

