-- ==== Sys2Proof/Machine/Sync.lean ====
section
/-! DEFINITION. The sync unit: objects, signals, waits, barriers and the commands of the sync page (R223 to R265). -/

namespace Sys2Proof.Machine

/-- The object of a number, none when it is free (R224). -/
def Device.obj (d : Device) (o : Nat) : Option SyncObj := smapFind d.sync.objs o

/-- The device with the sync unit changed. -/
def Device.onSync (d : Device) (f : SyncUnit → SyncUnit) : Device := { d with sync := f d.sync }

/-- The device with an object written. -/
def Device.setObj (d : Device) (o : Nat) (x : SyncObj) : Device :=
  d.onSync (fun s => { s with objs := smapSet s.objs o x })

/-- The type code of an object (R224). -/
def typeCode : Option SyncObj → Nat
  | none => 0
  | some x => match x.val with
    | .counter _ => 1
    | .flag _ => 2
    | .barrier .. => 3

/-- An event of the sync page with its capture (R265). -/
def Device.syncEvent (d : Device) (b status o agent arg : Nat) : Device :=
  d.event pageSync b (status + b * 0x100 + o * 0x10000) [agent, arg]

/-- An operation of the wrong type, or on a free object (R227). -/
def Device.wrongType (d : Device) (o agent arg : Nat) : Device :=
  (d.count (pageSync + 0x128)).syncEvent 0 stTimeout o agent arg

/-- An operation outside its tenant's range (R261). -/
def Device.syncViolation (d : Device) (o agent arg : Nat) : Device :=
  (d.count (pageSync + 0x124)).syncEvent 3 stTenant o agent arg

/-- The value of a counter or flag as the NOTIFY rule sees it. -/
def ObjVal.level : ObjVal → Nat
  | .counter v => v
  | .flag on => if on then 1 else 0
  | .barrier .. => 0

/-- The posts of NOTIFY after the value of an object has changed (R264); each wakes its die (R511). -/
def Device.postNotify (d : Device) (o : Nat) (mask : Nat) : Device :=
  let dies := (List.range 4).filter (fun i => bit mask i)
  (dies.foldl (fun d i => d.wakeDie i) d).onSync (fun s => { s with notify := s.notify ++ dies.map (fun i => (i, o)) })

/-- An outcome on its way to a waiting agent (R240). -/
def Device.outcome (d : Device) (w : Waiter) (status : Nat) : Device :=
  d.onSync (fun s => { s with outcomes := s.outcomes ++ [⟨w.agent, w.obj, w.cond, w.value, w.consume, w.deadline, status⟩] })

/-- A wait satisfied, counted, and its outcome sent (R240). -/
def Device.satisfy (d : Device) (w : Waiter) : Device := (d.count (pageSync + 0x114)).outcome w stOk

/-- A wait is still in the table at the tick at which an operation is applied: its deadline has not passed (R239). One whose
deadline has passed stands in it only until WAIT_DEADLINE takes it out (readings: log entry 43). -/
def Waiter.inTime (w : Waiter) (d : Device) : Bool := decide (d.tick 4 ≤ w.deadline)

/-- Whether an object's value meets a wait's condition (R228, R231). -/
def meets (v : ObjVal) (value : Nat) : Bool :=
  match v with
  | .counter x => decide (value ≤ x)
  | .flag on => on
  | .barrier .. => false

/-- The value after a consuming wait (R228, R231). -/
def consumed (v : ObjVal) (value : Nat) : ObjVal :=
  match v with
  | .counter x => .counter (x - value)
  | .flag _ => .flag false
  | .barrier a b c e f g h i => .barrier a b c e f g h i

/-- An object's value after one wait has been served. -/
def Device.consumeBy (d : Device) (o : Nat) (consume : Bool) (value : Nat) : Device :=
  match d.obj o with
  | some x =>
    if consume then
      let v := consumed x.val value
      let d := d.setObj o { x with val := v }
      if v.level = x.val.level then d else d.postNotify o x.notify
    else d
  | none => d

/-- The waiters of an object tested in the order in which they reached the unit: those whose condition holds leave
the table, and a consuming one takes its comparand before the next is tested (R229, R231). -/
def Device.serveList (o : Nat) : List Waiter → Device → List Waiter × Device
  | [], d => ([], d)
  | w :: l, d =>
    let ready := w.obj == o && w.inTime d && (match d.obj o with
      | some x => meets x.val w.value
      | none => false)
    if ready then Device.serveList o l ((d.consumeBy o w.consume w.value).satisfy w)
    else
      let (keep, d) := Device.serveList o l d
      (w :: keep, d)

/-- The waiters of a counter or flag served after a change of its value (R229) (readings: log entry 43). -/
def Device.serve (d : Device) (o : Nat) : Device :=
  let (keep, d) := Device.serveList o d.sync.waiters d
  d.onSync (fun s => { s with waiters := keep })

/-- A signal applied to an object: counted, with its source and tick (R263). -/
def Device.signalled (d : Device) (o agent : Nat) (x : SyncObj) : Device :=
  (d.count (pageSync + 0x110)).setObj o { x with lastSig := some (agent, d.tick 4) }

/-- The value of an object changed: the notify posts, and the waiters served (R229, R264). -/
def Device.changed (d : Device) (o : Nat) (v : ObjVal) : Device :=
  match d.obj o with
  | some x => ((d.setObj o { x with val := v }).postNotify o x.notify).serve o
  | none => d

/-- An overrun: the sticky bit, the count, the event and its capture (R228, R231). -/
def Device.overrun (d : Device) (o agent arg : Nat) : Device :=
  match d.obj o with
  | some x => ((d.setObj o { x with overrun := true }).count (pageSync + 0x11C)).syncEvent 1 stOverrun o agent arg
  | none => d

/-- An add on a counter (R227, R228, R230): the outcome and the device. -/
def Device.syncAdd (d : Device) (o v agent : Nat) : Nat × Device :=
  match d.obj o with
  | some x =>
    (match x.val with
      | .counter old =>
        let d := d.signalled o agent x
        let above := decide (0xFFFFFFFF < old + v)
        let d := if above then d.overrun o agent v else d
        let new := Nat.min (old + v) 0xFFFFFFFF
        (if above then stOverrun else stOk, if new = old then d else d.changed o (.counter new))
      | _ => (stTimeout, d.wrongType o agent v))
  | none => (stTimeout, d.wrongType o agent v)

/-- A set of a flag (R227, R231). -/
def Device.syncSetFlag (d : Device) (o agent : Nat) : Nat × Device :=
  match d.obj o with
  | some x =>
    (match x.val with
      | .flag on =>
        let d := d.signalled o agent x
        if on then (stOverrun, d.overrun o agent 0) else (stOk, d.changed o (.flag true))
      | _ => (stTimeout, d.wrongType o agent 0))
  | none => (stTimeout, d.wrongType o agent 0)

/-- A message for an object of this module, or a cell for one of another module (R234, R236, R424). -/
def Device.relay (d : Device) (node : Nat) (local_ : SyncMsg) (cell : Cell) : Device :=
  if node = d.node then d.onSync (fun s => { s with inFlight := s.inFlight ++ [local_] })
  else d.cellTo node cell

/-- The KIND 4 identities of a set (R226): node and object of each child barrier. -/
def childrenOf (ids : List Nat) : List (Nat × Nat) :=
  (ids.filter (fun a => agentKind a == 4)).map (fun a => (agentNode a, agentIndex a))

/-- Whether a release satisfies a wait: it is the last one the wait awaits (R235). -/
def Waiter.lastRelease (w : Waiter) (o : Nat) : Bool := w.obj == o && w.cond == 2 && decide (w.releases ≤ 1)

/-- A wait after a release of its barrier. -/
def Waiter.afterRelease (w : Waiter) (o : Nat) : Waiter :=
  if w.obj == o && w.cond == 2 then { w with releases := w.releases - 1 } else w

/-- The waiters of a barrier when a round is released: those whose last awaited release this is are satisfied (R235). -/
def Device.releaseWaiters (d : Device) (o : Nat) : Device :=
  let out := d.sync.waiters.filter (fun w => w.lastRelease o && w.inTime d)
  let keep := (d.sync.waiters.filter (fun w => !(w.lastRelease o && w.inTime d))).map (fun w => w.afterRelease o)
  out.foldl (fun d w => d.satisfy w) (d.onSync (fun s => { s with waiters := keep }))

/-- The release of a round (R234, steps 1 to 4). -/
def Device.releaseOnce (d : Device) (o : Nat) : Device :=
  match d.obj o with
  | some x =>
    (match x.val with
      | .barrier pcount cur next _ parity _ fault parent =>
        let d := (d.releaseWaiters o).setObj o { x with val := .barrier pcount next [] cur (!parity) false fault parent }
        (childrenOf cur).foldl (fun d c => d.relay c.1 (.release c.2 (agentId d.node 4 o)) (.barRelease c.2)) d
      | _ => d)
  | none => d

/-- Whether CUR of a barrier holds PCOUNT identities. -/
def Device.roundFull (d : Device) (o : Nat) : Bool :=
  match d.obj o with
  | some x =>
    (match x.val with
      | .barrier pcount cur .. => cur.length == pcount
      | _ => false)
  | none => false

/-- A round that has all its arrivals (R234): with a parent it ascends, without one it releases, and a release may
complete the next round at once. The first number bounds the rounds that can be complete, two at most. -/
def Device.completeRound : Nat → Nat → Device → Device
  | 0, _, d => d
  | n + 1, o, d =>
    match d.obj o with
    | some x =>
      (match x.val with
        | .barrier pcount cur next prev parity _ fault (some (node, po)) =>
          let up := agentId d.node 4 o
          (d.setObj o { x with val := .barrier pcount cur next prev parity true fault (some (node, po)) }).relay node
            (.arrive po up) (.barArrive po up)
        | .barrier _ _ _ _ _ _ _ none =>
          let d := d.releaseOnce o
          if d.roundFull o then Device.completeRound n o d else d
        | _ => d)
    | none => d

/-- A parent's release at an ascending barrier (R234); at any other object it has no effect, and at an object that is
no barrier it is an operation of the wrong type (R227), with the parent's identity of KIND 4 (R226). -/
def Device.parentReleased (d : Device) (o agent : Nat) : Device :=
  match d.obj o with
  | some x =>
    (match x.val with
      | .barrier _ _ _ _ _ true false _ =>
        let d := d.releaseOnce o
        if d.roundFull o then Device.completeRound 2 o d else d
      | .barrier .. => d
      | _ => d.wrongType o agent 0)
  | none => d.wrongType o agent 0

/-- The waiters of an object released with a status, but for those whose deadline has passed (R236, R239, R259)
(readings: log entry 43). -/
def Device.releaseAll (d : Device) (o status : Nat) : Device :=
  let out := d.sync.waiters.filter (fun w => w.obj == o && w.inTime d)
  let d := d.onSync (fun s => { s with waiters := s.waiters.filter (fun w => !(w.obj == o && w.inTime d)) })
  out.foldl (fun d w => d.outcome w status) d

/-- A barrier faults (R236): every waiter is released with BARRIER_FAULT, and the parent and every child of KIND 4
fault in the same way, those of this module at once and those of another through a cell. A barrier whose FAULT is set
takes no further fault. The first number bounds the chain, of 1,024 barriers at most (R225). -/
def Device.faultBarrier : Nat → Nat → Nat → Device → Device
  | 0, _, _, d => d
  | n + 1, o, agent, d =>
    match d.obj o with
    | some x =>
      (match x.val with
        | .barrier pcount cur next prev parity asc false parent =>
          let d := (d.setObj o { x with val := .barrier pcount cur next prev parity asc true parent }).releaseAll o stBarrierFault
          let d := (d.count (pageSync + 0x120)).syncEvent 2 stBarrierFault o agent 0
          let up := match parent with
            | some q => [q]
            | none => []
          (up ++ childrenOf (dedup (cur ++ next ++ prev))).foldl
            (fun d q => if q.1 = d.node then Device.faultBarrier n q.2 (agentId d.node 4 o) d
              else d.cellTo q.1 (.barFault q.2)) d
        | .barrier .. => d
        | _ => d.wrongType o agent 0)
    | none => d.wrongType o agent 0

/-- An arrival at a barrier (R233, R234, R236): the outcome and the device. -/
def Device.syncArrive (d : Device) (o agent : Nat) : Nat × Device :=
  match d.obj o with
  | some x =>
    (match x.val with
      | .barrier pcount cur next prev parity asc fault parent =>
        if fault then (stBarrierFault, d)
        else
          let d := d.signalled o agent x
          let x := { x with lastSig := some (agent, d.tick 4) }
          if !(cur.contains agent) && decide (cur.length < pcount) then
            let d := d.setObj o { x with val := .barrier pcount (cur ++ [agent]) next prev parity asc fault parent }
            (stOk, if cur.length + 1 = pcount ∧ !asc then Device.completeRound 2 o d else d)
          else if !(next.contains agent) && decide (next.length < pcount) then
            (stOk, d.setObj o { x with val := .barrier pcount cur (next ++ [agent]) prev parity asc fault parent })
          else (stBarrierFault, Device.faultBarrier 1025 o agent d)
      | _ => (stTimeout, d.wrongType o agent 0))
  | none => (stTimeout, d.wrongType o agent 0)

/-- The releases a barrier wait awaits from now (R235): none when it is satisfied at once. -/
def releasesAwaited (cur next prev : List Nat) (agent : Nat) : Nat :=
  if next.contains agent then 2 else if cur.contains agent then 1 else if prev.contains agent then 0 else 1

/-- A wait that must be held: refused when the table is full (R238). -/
def Device.holdWait (d : Device) (w : Waiter) : Device :=
  if 4096 ≤ d.sync.waiters.length then
    (((d.count (pageSync + 0x12C)).count (pageSync + 0x118)).syncEvent 4 stTimeout w.obj w.agent w.value).outcome w stTimeout
  else
    let d := d.onSync (fun s => { s with waiters := s.waiters ++ [w] })
    d.set (pageSync + 0x10C) (Nat.max (d.get (pageSync + 0x10C)) d.sync.waiters.length)

/-- The condition code a wait of an object's type carries (R228, R231, R235). -/
def condOf : ObjVal → Nat
  | .counter _ => 0
  | .flag _ => 1
  | .barrier .. => 2

/-- A wait reaches the unit (R227, R229, R230, R235, R236, R238, R239). -/
def Device.waitEnter (d : Device) (o cond v : Nat) (consume : Bool) (agent deadline : Nat) : Device :=
  let w : Waiter := ⟨o, cond, v, consume, agent, deadline, 0⟩
  match d.obj o with
  | none => (d.wrongType o agent v).outcome w stTimeout
  | some x =>
    if condOf x.val ≠ cond then (d.wrongType o agent v).outcome w stTimeout
    else match x.val with
      | .barrier _ cur next prev _ _ fault _ =>
        if fault then d.outcome w stBarrierFault
        else if deadline < d.tick 4 then (d.count (pageSync + 0x118)).outcome w stTimeout
        else
          let n := releasesAwaited cur next prev agent
          if n = 0 then d.satisfy w else d.holdWait { w with releases := n }
      | val =>
        if deadline < d.tick 4 then (d.count (pageSync + 0x118)).outcome w stTimeout
        else if meets val v then (d.consumeBy o consume v).satisfy w
        else d.holdWait w

/-- A message leaves the flight once it has reached the unit (readings: log entry 43). -/
def Device.arrived (d : Device) (m : SyncMsg) : Device :=
  d.onSync (fun s => { s with inFlight := dropFirst (· == m) s.inFlight })

/-! ### Operations that reach the unit -/

/-- SYNC_COUNTER_ADD (R228) (readings: log entry 43). -/
def opSyncCounterAdd (o v agent : Nat) (d : Device) : Device := ((d.arrived (.add o v agent)).syncAdd o v agent).2

/-- SYNC_FLAG_SET (R231) (readings: log entry 43). -/
def opSyncFlagSet (o agent : Nat) (d : Device) : Device := ((d.arrived (.set o agent)).syncSetFlag o agent).2

/-- SYNC_BARRIER_ARRIVE (R233) (readings: log entry 43). -/
def opSyncBarrierArrive (o agent : Nat) (d : Device) : Device := ((d.arrived (.arrive o agent)).syncArrive o agent).2

/-- SYNC_WAIT_ENTER (R238) (readings: log entry 43). -/
def opSyncWaitEnter (o cond v : Nat) (consume : Bool) (agent deadline : Nat) (d : Device) : Device :=
  (d.arrived (.wait o cond v consume agent deadline)).waitEnter o cond v consume agent deadline

/-- WAIT_DEADLINE (R239): at its deadline an unsatisfied wait leaves the table. -/
def opWaitDeadline (place : Nat) (d : Device) : Device :=
  match d.sync.waiters[place]? with
  | some w =>
    (((d.reach w.deadline).onSync (fun s => { s with waiters := listDrop s.waiters place })).count
      (pageSync + 0x118)).outcome w stTimeout
  | none => d

/-- The identity that a release on its way to an object carries (R226): where none is on its way, that of a barrier of this
module, whose number is not known (readings: log entry 10). -/
def Device.releaseAgent (d : Device) (o : Nat) : Nat :=
  (d.sync.inFlight.findSome? (fun m => match m with
    | .release p a => if p = o then some a else none
    | _ => none)).getD (agentId d.node 4 (Config.faultIndex d.free).toNat)

/-- PARENT_RELEASE (R234). -/
def opParentRelease (o : Nat) (d : Device) : Device :=
  let a := d.releaseAgent o
  (d.arrived (.release o a)).parentReleased o a

/-! ### Commands of the sync page (R263, R264) -/

/-- The object of the next command. -/
def Device.opObj (d : Device) : Nat := bits (d.get (pageSync + 0x140)) 13 0
/-- The first and second argument of the next command. -/
def Device.opArg0 (d : Device) : Nat := d.get (pageSync + 0x144)
def Device.opArg1 (d : Device) : Nat := d.get (pageSync + 0x148)

/-- OP_STAT after a command: DONE and its status (R264). -/
def Device.opDone (d : Device) (status : Nat) : Device := d.set (pageSync + 0x150) (2 ^ 31 + status)

/-- An INIT of an object: its waiters are released with RESET_LOST first (R259). -/
def Device.initObj (d : Device) (o : Nat) (x : SyncObj) : Device := ((d.releaseAll o stResetLost).setObj o x).opDone stOk

/-- SYNC_INIT_COUNTER (R263). -/
def opInitCounter (d : Device) : Device :=
  d.initObj d.opObj { val := .counter d.opArg0, notify := bits d.opArg1 3 0 }

/-- SYNC_INIT_FLAG (R263). -/
def opInitFlag (d : Device) : Device :=
  d.initObj d.opObj { val := .flag (bit d.opArg0 0), notify := bits d.opArg1 3 0 }

/-- The number of barriers among the objects (R225). -/
def Device.barUsed (d : Device) : Nat :=
  (d.sync.objs.filter (fun e => typeCode (some e.2) == 3)).length

/-- The parent that ARG1 names, in the layout of DBG_PARENT (R263). -/
def parentArg (w : Nat) : Option (Nat × Nat) := if bit w 31 then some (bits w 22 14, bits w 13 0) else none

/-- SYNC_INIT_BARRIER (R225): refused with BARRIER_FAULT beyond 1,024 barriers or for a PCOUNT outside 1 to 64. -/
def opInitBarrier (d : Device) : Device :=
  let pcount := bits d.opArg0 6 0
  let others := if typeCode (d.obj d.opObj) = 3 then d.barUsed - 1 else d.barUsed
  if pcount = 0 ∨ 64 < pcount ∨ 1024 ≤ others then d.opDone stBarrierFault
  else d.initObj d.opObj { val := .barrier pcount [] [] [] false false false (parentArg d.opArg1) }

/-- SYNC_FREE (R227, R259). -/
def opFree (agent : Nat) (d : Device) : Device :=
  match d.obj d.opObj with
  | none => (d.wrongType d.opObj agent 0).opDone stTimeout
  | some _ =>
    let o := d.opObj
    ((d.releaseAll o stResetLost).onSync (fun s => { s with objs := smapErase s.objs o })).opDone stOk

/-- SYNC_ADD (R228, R264). -/
def opAdd (agent : Nat) (d : Device) : Device :=
  let r := d.syncAdd d.opObj d.opArg0 agent
  r.2.opDone r.1

/-- SYNC_SET (R231, R264). -/
def opSet (agent : Nat) (d : Device) : Device :=
  let r := d.syncSetFlag d.opObj agent
  r.2.opDone r.1

/-- SYNC_CLEAR (R228): the value becomes 0 and OVERRUN is kept. Only a counter accepts it (R227). -/
def opClear (agent : Nat) (d : Device) : Device :=
  match d.obj d.opObj with
  | some x =>
    (match x.val with
      | .counter v => (if v = 0 then d else d.changed d.opObj (.counter 0)).opDone stOk
      | _ => (d.wrongType d.opObj agent 0).opDone stTimeout)
  | none => (d.wrongType d.opObj agent 0).opDone stTimeout

/-- SYNC_ARRIVE (R233, R264): OP_STAT shows OK in every case R264 does not list otherwise. -/
def opArrive (agent : Nat) (d : Device) : Device :=
  let r := d.syncArrive d.opObj agent
  r.2.opDone (if r.1 = stTimeout then stTimeout else stOk)

/-- SYNC_CLR_STICKY (R232). A barrier has no OVERRUN bit, so it is of the wrong type (R224, R227). -/
def opClrSticky (agent : Nat) (d : Device) : Device :=
  match d.obj d.opObj with
  | some x =>
    (match x.val with
      | .barrier .. => (d.wrongType d.opObj agent 0).opDone stTimeout
      | _ => (d.setObj d.opObj { x with overrun := false }).opDone stOk)
  | none => (d.wrongType d.opObj agent 0).opDone stTimeout

/-- The reserved command codes (R263). -/
def reservedCommand (code : Nat) : Bool := code == 0 || decide (0xA ≤ code)

/-- SYNC_CMD_RESERVED (R263). -/
def opCmdReserved (d : Device) : Device := d.opDone stTimeout

/-! ### The debugger view (R263) -/

/-- The tenant whose range holds an object, when one does (R261). -/
def Device.tenantOf (d : Device) (o : Nat) : Option Nat :=
  (List.range 64).find? (fun i =>
    let q := d.get (pageSync + 0x200 + 4 * i)
    decide (bits q 13 0 ≤ o) && decide (o < bits q 13 0 + bits q 30 16))

/-- DBG_STATE of an object (readings: log entry 43). -/
def Device.dbgState (d : Device) (o : Nat) : Nat :=
  let quota := match d.tenantOf o with
    | some t => t * 2 ^ 6 + 2 ^ 12
    | none => 0
  match d.obj o with
  | none => quota
  | some x =>
    let own := match x.val with
      | .barrier _ _ _ _ parity asc fault _ => flag fault * 8 + flag asc * 16 + flag parity * 32
      | _ => flag x.overrun * 4
    typeCode (some x) + own + quota + x.notify * 2 ^ 16

/-- DBG_VALUE of an object. -/
def dbgValue : Option SyncObj → Nat
  | none => 0
  | some x => match x.val with
    | .counter v => v
    | .flag on => flag on
    | .barrier pcount cur next .. => cur.length + next.length * 2 ^ 8 + pcount * 2 ^ 16

/-- DBG_PARENT of an object. -/
def dbgParent : Option SyncObj → Nat
  | some x => match x.val with
    | .barrier _ _ _ _ _ _ _ (some (node, po)) => 2 ^ 31 + node * 2 ^ 14 + po
    | _ => 0
  | none => 0

/-- DBG_SEL_WRITE (R263): a snapshot of the selected object in one core cycle. -/
def opDbgSelWrite (v : Nat) (d : Device) : Device :=
  let o := v % 2 ^ 14
  let d := d.set (pageSync + 0x160) o
  let ws := d.sync.waiters.filter (fun w => w.obj == o)
  let last := (d.obj o).bind (·.lastSig)
  d.setWords (pageSync + 0x164)
    ([d.dbgState o, dbgValue (d.obj o), dbgParent (d.obj o), ws.length] ++
      padTo 4 0 ((ws.take 4).map (fun w => 2 ^ 31 + w.agent)) ++
      (match last with
        | some (a, t) => [2 ^ 31 + a, t % 2 ^ 32, t / 2 ^ 32]
        | none => [0, 0, 0]))

/-! ### Signals with a source the rules of R226 name -/

/-- A signal applied with a session's tenant checked (R242, R261): the status of R242 and the device (readings: log entry 43). -/
def Device.tenantSignal (d : Device) (tenant o sop v agent : Nat) : Nat × Device :=
  if d.tenantOf o ≠ some tenant then (stTenant, d.syncViolation o agent v)
  else if sop = 1 then d.syncAdd o v agent
  else if sop = 2 then d.syncSetFlag o agent
  else (stOk, d)

/-- The signal of a plan word or frame on its way to the unit: SOP 1 counter add, 2 flag set, 3 barrier arrive (R188). -/
def sopMsg (sop o v agent : Nat) : List SyncMsg :=
  if sop = 1 then [.add o v agent] else if sop = 2 then [.set o agent] else if sop = 3 then [.arrive o agent] else []

/-- Signals put in flight toward the unit. -/
def Device.sendSignals (d : Device) (ms : List SyncMsg) : Device :=
  d.onSync (fun s => { s with inFlight := s.inFlight ++ ms })

/-- An operation applied (R223). -/
def Device.applyMsg (d : Device) (m : SyncMsg) : Device :=
  match m with
  | .add o v a => (d.syncAdd o v a).2
  | .set o a => (d.syncSetFlag o a).2
  | .arrive o a => (d.syncArrive o a).2
  | .wait o cond v consume a deadline => d.waitEnter o cond v consume a deadline
  | .release o a => d.parentReleased o a

/-- The waits of an agent taken out of the table and none of them delivered (R258). -/
def Device.dropWaits (d : Device) (agent : Nat) : Device :=
  d.onSync (fun s => { s with waiters := s.waiters.filter (fun w => w.agent != agent) })

def execSyncCounterAdd (o : Obj) (v : U32) (agent : Agent) (s : State) : Host.Outcome State Fault Refusal :=
  s.onDev (opSyncCounterAdd o.val v.toNat agent.toNat)
def execSyncFlagSet (o : Obj) (agent : Agent) (s : State) : Host.Outcome State Fault Refusal :=
  s.onDev (opSyncFlagSet o.val agent.toNat)
def execSyncBarrierArrive (o : Obj) (agent : Agent) (s : State) : Host.Outcome State Fault Refusal :=
  s.onDev (opSyncBarrierArrive o.val agent.toNat)
def execSyncWaitEnter (o : Obj) (cond : Fin 3) (v : U32) (consume : Bool) (agent : Agent) (deadline : Tick) (s : State) :
    Host.Outcome State Fault Refusal :=
  s.onDev (opSyncWaitEnter o.val cond.val v.toNat consume agent.toNat deadline.toNat)
def execWaitDeadline (place : Fin 4096) (s : State) : Host.Outcome State Fault Refusal := s.onDev (opWaitDeadline place.val)
def execParentRelease (o : Obj) (s : State) : Host.Outcome State Fault Refusal := s.onDev (opParentRelease o.val)
def execSyncInitCounter (agent : Agent) (s : State) : Host.Outcome State Fault Refusal :=
  s.onDev (fun d => d.written agent.toNat opInitCounter)
def execSyncInitFlag (agent : Agent) (s : State) : Host.Outcome State Fault Refusal :=
  s.onDev (fun d => d.written agent.toNat opInitFlag)
def execSyncInitBarrier (agent : Agent) (s : State) : Host.Outcome State Fault Refusal :=
  s.onDev (fun d => d.written agent.toNat opInitBarrier)
def execSyncFree (agent : Agent) (s : State) : Host.Outcome State Fault Refusal :=
  s.onDev (fun d => d.written agent.toNat (opFree agent.toNat))
def execSyncAdd (agent : Agent) (s : State) : Host.Outcome State Fault Refusal :=
  s.onDev (fun d => d.written agent.toNat (opAdd agent.toNat))
def execSyncSet (agent : Agent) (s : State) : Host.Outcome State Fault Refusal :=
  s.onDev (fun d => d.written agent.toNat (opSet agent.toNat))
def execSyncClear (agent : Agent) (s : State) : Host.Outcome State Fault Refusal :=
  s.onDev (fun d => d.written agent.toNat (opClear agent.toNat))
def execSyncArrive (agent : Agent) (s : State) : Host.Outcome State Fault Refusal :=
  s.onDev (fun d => d.written agent.toNat (opArrive agent.toNat))
def execSyncClrSticky (agent : Agent) (s : State) : Host.Outcome State Fault Refusal :=
  s.onDev (fun d => d.written agent.toNat (opClrSticky agent.toNat))
def execSyncCmdReserved (code : BitVec 4) (agent : Agent) (s : State) : Host.Outcome State Fault Refusal :=
  s.onDev (fun d => d.written agent.toNat (fun d => if reservedCommand code.toNat then opCmdReserved d else d))
def execDbgSelWrite (v : U32) (agent : Agent) (s : State) : Host.Outcome State Fault Refusal :=
  s.onDev (fun d => d.written agent.toNat (opDbgSelWrite v.toNat))

end Sys2Proof.Machine
end

