-- ==== Sys2Proof/Machine/Sequencer.lean ====
section
/-! DEFINITION. The core sequencer: which word of the resident stream issues next, guarded waits, signals, and the words
that occupy no engine (R184 to R193, R219, R220). -/

namespace Sys2Proof.Machine

/-- SEQ_STATE.STATE (R219). -/
def Device.seqState (d : Device) (c : Nat) : Nat := bits (d.get (pageSeq c + 0x100)) 2 0

/-- WORD_PTR and the start tick of the current heat (R219). -/
def Device.wordPtr (d : Device) (c : Nat) : Nat := bits (d.get (pageSeq c + 0x110)) 12 0
def Device.heatStart (d : Device) (c : Nat) : Nat := d.get64 (pageSeq c + 0x108)

/-- The agent identity of a core's sequencer (R226). -/
def Device.seqAgent (d : Device) (c : Nat) : Nat := agentId d.node 0 c

/-- The device with WORD_PTR one further. -/
def Device.bump (d : Device) (c : Nat) : Device := d.set (pageSeq c + 0x110) (d.wordPtr c + 1)

/-- A PASS word's tile as it stands: the word does not open it, and it is open and in agreement. -/
def Device.hasTile (d : Device) (c idx : Nat) (p : PassWord) : Bool :=
  match (d.core c).tile p.tile with
  | some t => t.agrees p && !((d.core c).opens (d.cls c) p idx)
  | none => false

/-- The tile regions that a word other than PASS would write (R188): those of a FULL word whose result is not at DST, and of a
TREE word that adds a part. -/
def tilesWritten (w : Nat) : List Nat :=
  if wOp w = opFull then (if (fullWord w).sub = 1 ∨ (fullWord w).sub = 5 then [] else [(fullWord w).tile])
  else if wOp w = opTree then (if (treeWord w).add then [(treeWord w).tile] else [])
  else []

/-- What a word that is not issued leaves behind: a join loses its pass, for a status where a rule names one, and every tile
region that another word would have written is poisoned, by marks alone (R149, R191, R193, R611). -/
def Device.spoilWord (d : Device) (c idx tick w status : Nat) : Device :=
  if wOp w = opPass then d.failSlot c idx tick (d.hasTile c idx (passWord w)) (passWord w) status
  else (tilesWritten w).foldl (fun d e => d.onTile c e (fun t => t.spoilMarks)) d

/-- A word dropped (R191, R617): a PASS word's tile takes POISONED (R149) (readings: log entry 28). -/
def Device.dropWord (d : Device) (c idx tick w : Nat) : Device :=
  ((d.count (pageSeq c + 0x118)).seqEvent c 0 stPoisoned (wOp w) idx).spoilWord c idx tick w stPoisoned

/-- A guarded word suppressed (R193) (readings: log entry 28). -/
def Device.suppressWord (d : Device) (c idx tick w : Nat) : Device :=
  (d.count (pageSeq c + 0x120)).spoilWord c idx tick w stOk

/-- The guards that hold a word. -/
def CoreState.guardsOf (x : CoreState) (idx : Nat) : List Guard :=
  x.guards.filter (fun g => decide (g.lo ≤ idx) && decide (idx < g.hi))

/-- A guard after its wait has expired. -/
def Guard.expire (g : Guard) : Guard := { g with met := some false }

/-- A wait that counts as expired, with its status (R193, R259). -/
def Device.waitExpired (d : Device) (c status idx : Nat) : Device :=
  (d.count (pageSeq c + 0x11C)).seqEvent c 1 status opWait idx

/-- The undecided guards of a word decided as expired at its tick (R193) (readings: log entry 28). -/
def Device.expireGuards (d : Device) (c idx : Nat) : Device :=
  let held := (d.core c).guardsOf idx
  let late := held.filter (fun g => g.met.isNone)
  if late = [] then d
  else late.foldl (fun d g => d.waitExpired c stTimeout (g.lo - 1))
    (d.onCore c (fun x =>
      { x with guards := x.guards.map (fun g => if late.contains g then g.expire else g) }))

/-- The poisoned words at the front of the stream, dropped (R191, R403) (readings: log entry 28). -/
def Device.dropPoisoned (c : Nat) : Nat → Device → Device
  | 0, d => d
  | n + 1, d =>
    let i := d.wordPtr c
    match (d.core c).stream[i]? with
    | none => d
    | some w =>
      if (d.core c).poisoned.contains i then Device.dropPoisoned c n ((d.dropWord c i (d.heatStart c + wTick w) w).bump c) else d

/-- The stream as far as words that issue nothing stand at its front: words outside the heat's class, dropped words,
guarded words of an expired wait, and an EXT word left alone (R189, R191, R193, R617) (readings: log entry 28). -/
def Device.advance (c : Nat) : Nat → Device → Device
  | 0, d => d
  | n + 1, d =>
    let x := d.core c
    let i := d.wordPtr c
    match x.stream[i]? with
    | none => d
    | some w =>
      let tick := d.heatStart c + wTick w
      if x.poisoned.contains i then Device.advance c n ((d.dropWord c i tick w).bump c)
      else if !(inClass w (d.cls c)) then Device.advance c n (d.bump c)
      else if !(wordNamed w) then Device.advance c n ((d.dropWord c i tick w).bump c)
      else
        let d := d.expireGuards c i
        if ((d.core c).guardsOf i).any (fun g => g.met == some false) then
          Device.advance c n ((d.suppressWord c i tick w).bump c)
        else if wOp w = opExt then Device.advance c n ((d.count (pageSeq c + 0x114)).bump c)
        else d

/-- Whether the core clocks of a die run: it is awake and out of reset, and no quench has stopped them (R483, R506, R530) (readings: log entry 40). -/
def Device.clocked (d : Device) (die : Nat) : Bool :=
  !d.hk.stopped && !(d.power.down.contains die) && bits (d.get (pagePwr + 0x104)) (2 * die + 1) (2 * die) == 0

/-- Whether a core's sequencer issues words: it runs, or it is held and the word is HEAT or BOUND (R215, R219), and the
core is neither fenced nor reset since the plan started (R520). -/
def Device.issues (d : Device) (c w : Nat) : Bool :=
  !(d.isFenced c) && !(d.power.blocked.contains c) && d.clocked (c / 128) &&
  (d.seqState c == 2 || (d.seqState c == 3 && (wOp w == opHeat || wOp w == opBound)))

/-- The next word of a core's stream when it is one of those asked for: its place, the word and its tick, and the
device in which it has issued (R184, R189) (readings: log entries 27, 28). -/
def Device.next (d : Device) (c : Nat) (wanted : Nat → Bool) : Option (Nat × Nat × Nat × Device) :=
  let d := d.advance c 8192
  let i := d.wordPtr c
  match (d.core c).stream[i]? with
  | none => none
  | some w =>
    let tick := d.heatStart c + wTick w
    if d.issues c w && wanted w then some (i, w, tick, (((d.reach tick).count (pageSeq c + 0x114)).bump c).dropPoisoned c 8192)
    else none

/-- A word with an opcode. -/
def isOp (op : Nat) (w : Nat) : Bool := wOp w == op

/-- NOP (R185). -/
def opNopWord (c : Nat) (d : Device) : Device :=
  match d.next c (isOp opNop) with
  | some (_, _, _, d) => d
  | none => d

/-- HEAT (R188). -/
def opHeatWord (c : Nat) (d : Device) : Device :=
  match d.next c (isOp opHeat) with
  | some (_, _, _, d) => d
  | none => d

/-- BOUND (R196). -/
def opBoundWord (c : Nat) (d : Device) : Device :=
  match d.next c (isOp opBound) with
  | some (_, _, _, d) => d.onCore c (fun x => { x with bound := true })
  | none => d

/-- WINDOW (R195, R202): the reheat window opens. -/
def opWindowWord (c : Nat) (d : Device) : Device :=
  match d.next c (isOp opWindow) with
  | some (i, w, tick, d) =>
    (d.onCore c (fun x =>
      { x with window := some ⟨tick + 64 * windowUnits w, windowUnits w, 0, 0, 0, i⟩ })).set (pageSeq c + 0x128) 0
  | none => d

/-! ### Signals (R188, R226) -/

/-- A signal of a plan word: to an object of the own module at once or deferred, else as a cell (R188, R199, R424). -/
def Device.planSignal (d : Device) (c idx node obj sop v : Nat) (defer : Bool) : Device :=
  let agent := d.seqAgent c
  if node = 0x1FF ∨ node = d.node then
    if defer then { d with deferred := d.deferred ++ (sopMsg sop obj v agent).map (fun m => ⟨c / 128, c, idx, m⟩) }
    else d.sendSignals (sopMsg sop obj v agent)
  else d.cellTo node (.signal obj sop v agent defer)

/-- A SIGNAL word of one kind. -/
def Device.issueSignal (d : Device) (c sop : Nat) : Device :=
  match d.next c (fun w => isOp opSignal w && (signalWord w).sop == sop) with
  | some (i, w, _, d) =>
    let s := signalWord w
    d.planSignal c i s.node s.obj s.sop s.value s.defer
  | none => d

/-- SIGNAL_COUNTER_ADD. -/
def opSignalCounterAdd (c : Nat) (d : Device) : Device := d.issueSignal c 1
/-- SIGNAL_FLAG_SET. -/
def opSignalFlagSet (c : Nat) (d : Device) : Device := d.issueSignal c 2
/-- SIGNAL_BARRIER_ARRIVE. -/
def opSignalBarrierArrive (c : Nat) (d : Device) : Device := d.issueSignal c 3

/-! ### Waits (R193, R238 to R240) -/

/-- A WAIT word of one condition: the wait goes to the sync unit, and its words are held. -/
def Device.issueWait (d : Device) (c cond : Nat) : Device :=
  match d.next c (fun w => isOp opWait w && (waitWord w).cond == cond) with
  | some (i, w, tick, d) =>
    let q := waitWord w
    let deadline := tick + q.timeout
    let d := d.onCore c (fun x => { x with guards := x.guards ++ [⟨q.obj, q.cond, q.value, q.consume, deadline, i + 1, i + 1 + q.guard, none⟩] })
    d.sendSignals [.wait q.obj q.cond q.value q.consume (d.seqAgent c) deadline]
  | none => d

/-- WAIT_COUNTER. -/
def opWaitCounter (c : Nat) (d : Device) : Device := d.issueWait c 0
/-- WAIT_FLAG. -/
def opWaitFlag (c : Nat) (d : Device) : Device := d.issueWait c 1
/-- WAIT_BARRIER. -/
def opWaitBarrier (c : Nat) (d : Device) : Device := d.issueWait c 2

/-- The place of the next word in the heat's class. -/
def CoreState.nextIn (x : CoreState) (cls : Nat) : Nat → Nat → Nat
  | 0, i => i
  | n + 1, i => match x.stream[i]? with
    | some w => if inClass w cls then i else x.nextIn cls n (i + 1)
    | none => i

/-- The guard that an outcome decides: the oldest undecided one of the same wait (readings: log entry 43). -/
def CoreState.guardAt (x : CoreState) (o : WaitOutcome) : Option Nat :=
  x.guards.findIdx? (fun g => g.obj == o.obj && g.cond == o.cond && g.value == o.value && g.consume == o.consume &&
    g.deadline == o.deadline && g.met.isNone)

/-- The tick of the first word that a guard holds has passed (R240). -/
def Device.guardLate (d : Device) (c : Nat) (g : Guard) : Bool :=
  match (d.core c).stream[(d.core c).nextIn (d.cls c) 4096 g.lo]? with
  | some w => decide (d.heatStart c + wTick w < d.now)
  | none => false

/-- WAIT_OUTCOME (R240): any outcome but OK counts as an expiry (R193), and so does a satisfaction that comes after the tick
of the first guarded word (readings: log entry 43). -/
def opWaitOutcome (c : Nat) (d : Device) : Device :=
  let mine : WaitOutcome → Bool := fun o => o.agent == d.seqAgent c
  match d.sync.outcomes.find? mine with
  | none => d
  | some o =>
    let d := d.onSync (fun s => { s with outcomes := dropFirst mine s.outcomes })
    let x := d.core c
    match (x.guardAt o).bind (fun i => (x.guards[i]?).map (i, ·)) with
    | none => d
    | some (i, g) =>
      let status := if o.status = stOk ∧ d.guardLate c g then stTimeout else o.status
      let d := d.setCore c { x with guards := listModify x.guards i (fun g => { g with met := some (status == stOk) }) }
      if status = stOk then d else d.waitExpired c status (g.lo - 1)

/-- GUARD_DEADLINE (R193): at the tick of the first guarded word, a wait without its outcome counts as expired, and the
words it holds are suppressed. -/
def opGuardDeadline (c : Nat) (d : Device) : Device :=
  let x := d.core c
  let i := x.nextIn (d.cls c) 4096 (d.wordPtr c)
  match x.stream[i]? with
  | none => d
  | some w =>
    if d.issues c w && (x.guardsOf i).any (fun g => g.met.isNone) then
      (d.reach (d.heatStart c + wTick w)).advance c 8192
    else d

def execNop (c : Core) (s : State) : Host.Outcome State Fault Refusal := s.onDev (opNopWord c.val)
def execHeat (c : Core) (s : State) : Host.Outcome State Fault Refusal := s.onDev (opHeatWord c.val)
def execBound (c : Core) (s : State) : Host.Outcome State Fault Refusal := s.onDev (opBoundWord c.val)
def execWindow (c : Core) (s : State) : Host.Outcome State Fault Refusal := s.onDev (opWindowWord c.val)
def execSignalCounterAdd (c : Core) (s : State) : Host.Outcome State Fault Refusal := s.onDev (opSignalCounterAdd c.val)
def execSignalFlagSet (c : Core) (s : State) : Host.Outcome State Fault Refusal := s.onDev (opSignalFlagSet c.val)
def execSignalBarrierArrive (c : Core) (s : State) : Host.Outcome State Fault Refusal :=
  s.onDev (opSignalBarrierArrive c.val)
def execWaitCounter (c : Core) (s : State) : Host.Outcome State Fault Refusal := s.onDev (opWaitCounter c.val)
def execWaitFlag (c : Core) (s : State) : Host.Outcome State Fault Refusal := s.onDev (opWaitFlag c.val)
def execWaitBarrier (c : Core) (s : State) : Host.Outcome State Fault Refusal := s.onDev (opWaitBarrier c.val)
def execWaitOutcome (c : Core) (s : State) : Host.Outcome State Fault Refusal := s.onDev (opWaitOutcome c.val)
def execGuardDeadline (c : Core) (s : State) : Host.Outcome State Fault Refusal := s.onDev (opGuardDeadline c.val)

end Sys2Proof.Machine
end

