-- ==== Sys2Proof/Machine/Transfer.lean ====
section
/-! DEFINITION. Scheduled transfers of the tongs and the core router (R31, R188, R191, R241, R246). -/

namespace Sys2Proof.Machine

/-- Whether a transfer may read or write at an address: the register space is absent for it (R30). -/
def Device.reachable (d : Device) (a : Nat) : Bool :=
  match regionOf d.deadRouters a with
  | .dram | .store | .sram => true
  | .regs | .absent => false

/-- A piece of 64 bytes that is present whole. -/
def Device.pieceHere (d : Device) (a : Nat) : Bool := d.reachable a && d.reachable (a + 63)

/-- The engine of a transfer: 4 × cluster + tongs, or 128 + core for the core router (R188). -/
def engineOf (c eng : Nat) : Nat := if eng < 4 then 4 * (c / 128 * 8 + c % 128 / 16) + eng else 128 + c

/-- The words an engine takes beside the one in service (R191). -/
def engineDepth (engine : Nat) : Nat := if engine < 128 then 8 else 4

/-- Whether an engine's queue is full. -/
def Device.engineFull (d : Device) (engine : Nat) : Bool :=
  decide (engineDepth engine + 1 ≤ (d.transfers.filter (fun t => t.engine == engine)).length)

/-- The pieces of a source that arrive poisoned: those absent and those that touch a poisoned granule (R31, R403). -/
def Part.sourcePoison (p : Part) (src len : Nat) : List Nat :=
  (List.range len).filter (fun i => !(p.dev.pieceHere (src + 64 * i)) || p.mem.poisoned (src + 64 * i) 64)

/-- The bytes of a source, absent and poisoned pieces as zeros (R31, R386). -/
def Part.sourceData (p : Part) (src len : Nat) : List Byte :=
  (List.range len).flatMap (fun i =>
    if p.dev.pieceHere (src + 64 * i) then p.mem.read (src + 64 * i) 64 else List.replicate 64 0)

/-- The statuses of the outputs that a source in core store holds (R333). -/
def Device.sourceStatuses (d : Device) (src len : Nat) : List (Nat × Nat × Nat) :=
  if regionOf d.deadRouters src = .store then (d.core (storeCore src)).outputsIn (src / 64) len else []

/-- The statuses that a transfer brings into a core store (R333). -/
def Device.landStatuses (d : Device) (dst : Nat) (l : List (Nat × Nat × Nat)) : Device :=
  if regionOf d.deadRouters dst = .store then
    d.onCore (storeCore dst) (fun x => l.foldl (fun x e => x.putOutput (dst / 64 + e.1) e.2.1 e.2.2) x)
  else d

/-- A transfer that starts: its source is read at once. One whose source stands under a reset is lost (R519). -/
def Part.startTransfer (p : Part) (c idx : Nat) (x : XferWord) : Part :=
  if p.dev.inReset x.src (64 * x.len) then p.onDev (·.loseWords c [(opXfer, idx)]) else
  let p := p.touch x.src (64 * x.len)
  let t : Transfer :=
    { core := c, engine := engineOf c x.eng, node := x.node, dst := x.dst
      data := p.sourceData x.src x.len, poison := p.sourcePoison x.src x.len
      statuses := p.dev.sourceStatuses x.src x.len
      absent := (List.range x.len).any (fun i => !(p.dev.pieceHere (x.src + 64 * i)))
      obj := x.obj, sop := x.sop, defer := x.defer, idx := idx }
  p.onDev (fun d => { d with transfers := d.transfers ++ [t] })

/-- The EXT word behind an XFER word that has issued (R188) (readings: log entry 28). -/
def Device.extWord (d : Device) (c : Nat) : Option Nat :=
  match (d.core c).stream[d.wordPtr c]? with
  | some w => if wOp w = opExt ∧ !((d.core c).poisoned.contains (d.wordPtr c)) then some w else none
  | none => none

/-- XFER. -/
def opXferWord (c : Nat) (p : Part) : Part :=
  match p.dev.next c (isOp opXfer) with
  | none => p
  | some (i, w, tick, d) =>
    match d.extWord c with
    | none => { p with dev := d.dropWord c i tick w }
    | some e =>
      let x := xferWord w e
      let d := (d.count (pageSeq c + 0x114)).bump c
      if d.engineFull (engineOf c x.eng) then { p with dev := d.dropWord c i tick w }
      else ({ p with dev := d } : Part).startTransfer c i x

/-- Pieces of 64 bytes written one after another, those of absent addresses left out (R31). -/
def Part.writePieces (p : Part) (dst : Nat) (data : List Byte) (poison : List Nat) : Part :=
  (List.range (data.length / 64)).foldl (fun p i =>
    let a := dst + 64 * i
    if p.dev.pieceHere a then
      p.onMem (·.write a ((data.drop (64 * i)).take 64) (if poison.contains i then granules a 64 else []))
    else p) p

/-- Whether every piece of a destination is present. -/
def Device.allHere (d : Device) (dst n : Nat) : Bool := (List.range n).all (fun i => d.pieceHere (dst + 64 * i))

/-- The mask of the poisoned pieces of one frame (R425). -/
def frameMask (poison : List Nat) (first n : Nat) : Nat :=
  sumNat ((List.range n).map (fun i => if poison.contains (first + i) then 2 ^ i else 0))

/-- One DATA frame of a transfer to another module (R425). -/
def Transfer.frame (t : Transfer) (agent k total : Nat) : Cell :=
  let first := 64 * k
  let n := Nat.min 64 (total - first)
  let last := decide (total ≤ first + n)
  let sig := last && t.sop != 0 && !t.absent
  .data
    { addr := BitVec.ofNat 40 (t.dst + 64 * first), sched := true, last := last, sig := sig, defer := sig && t.defer
      bht := false, len := n, tenant := 0xFF, poison := BitVec.ofNat 64 (frameMask t.poison first n)
      agent := BitVec.ofNat 26 agent, obj := BitVec.ofNat 14 (if sig then t.obj else 0)
      sop := BitVec.ofNat 8 (if sig then t.sop else 0), value := if sig && t.sop == 1 then 1 else 0, opid := 0 }
    (zeroPieces t.poison first ((t.data.drop (64 * first)).take (64 * n)))
where
  /-- Poisoned pieces travel as zeros (R426). -/
  zeroPieces (poison : List Nat) (first : Nat) (data : List Byte) : List Byte :=
    (data.zipIdx (64 * first)).map (fun e => if poison.contains (e.2 / 64) then 0 else e.1)

/-- The frames of a transfer in address order (R425). -/
def Transfer.frames (t : Transfer) (agent : Nat) : List Cell :=
  let total := t.data.length / 64
  (List.range (ceilDiv total 64)).map (fun k => t.frame agent k total)

/-- A transfer of the own module as its last packet is written (R31, R241, R387), or lost to a reset (R258, R519). -/
def Part.landHere (p : Part) (t : Transfer) : Part :=
  if p.dev.inReset t.dst t.data.length then p.onDev (·.loseWords t.core [(opXfer, t.idx)])
  else if isNarrow t.dst t.data.length && p.dev.reachable t.dst then p.onDev (·.refuseNarrow t.dst t.data.length (p.dev.seqAgent t.core))
  else
    let whole := !t.absent && p.dev.allHere t.dst (t.data.length / 64)
    let p := (p.writePieces t.dst t.data t.poison).onDev (·.landStatuses t.dst t.statuses)
    if whole then p.onDev (·.planSignal t.core t.idx 0x1FF t.obj t.sop 1 t.defer) else p

/-- A NODE that names this module: 0x1FF or its own address (R188). -/
def Device.ownModule (d : Device) (node : Nat) : Bool := node == 0x1FF || node == d.node

/-- The oldest transfer of the same engine to the same module (R246). -/
def Device.oldestOf (d : Device) (t : Transfer) : Nat :=
  (d.transfers.findIdx? (fun u => u.engine == t.engine && (u.node == t.node || (d.ownModule u.node && d.ownModule t.node)))).getD 0

/-- A transfer written, or sent to another module. -/
def Part.deliverTransfer (p : Part) (t : Transfer) : Part :=
  if p.dev.ownModule t.node then p.landHere t
  else p.onDev (fun d => (t.frames (d.seqAgent t.core)).foldl (fun d f => d.cellTo t.node f) d)

/-- TRANSFER_DONE. The packets of a transfer that stand before a fenced router wait for its new tables (R42). -/
def opTransferDone (place : Nat) (p : Part) : Part :=
  match p.dev.transfers[place]? with
  | none => p
  | some named =>
    let i := p.dev.oldestOf named
    let t := (p.dev.transfers[i]?).getD named
    if p.dev.waitsRouter t then p
    else ((p.onDev (fun d => { d with transfers := listDrop d.transfers i })).deliverTransfer t).onDev (·.settleRouters)

def execXfer (c : Core) (s : State) : Host.Outcome State Fault Refusal := s.onPart (opXferWord c.val)
def execTransferDone (place : Nat) (s : State) : Host.Outcome State Fault Refusal := s.onPart (opTransferDone place)

end Sys2Proof.Machine
end

