-- ==== Sys2Proof/Machine/Pages.lean ====
section
/-! DEFINITION. Layer slots, pools, pages and data tiles (R268 to R274, R395 to R400). -/

namespace Sys2Proof.Machine

/-- A field of a structure in memory: a value outside its range counts as a value in it that the spec does not give. -/
def inRange (lo hi v : Nat) : Nat := if lo ≤ v ∧ v ≤ hi then v else lo + Config.outOfRange v % (hi + 1 - lo)

/-! ### Layer slots (R268) -/

/-- An entry of the layer-slot table. -/
structure LayerSlot where
  kvh : Nat
  dim : Nat
  gqa : Nat
  hgs : Nat
  scale : U32
  deriving DecidableEq, Repr

/-- The address of an entry of the layer-slot table. -/
def Device.layerSlotAddr (d : Device) (s : Nat) : Nat := d.get64 (pageKv + 0x100) % 2 ^ 40 + 16 * s

/-- A layer slot as its entry describes it. -/
def Part.layerSlot (p : Part) (s : Nat) : LayerSlot :=
  let a := p.dev.layerSlotAddr s
  ⟨inRange 1 16 (p.mem.nat a 1), 64 * 2 ^ inRange 0 2 (p.mem.nat (a + 1) 1), inRange 1 16 (p.mem.nat (a + 2) 1),
    inRange 1 16 (p.mem.nat (a + 3) 1), BitVec.ofNat 32 (p.mem.nat (a + 4) 4)⟩

/-- The layer slots of the model: the entries of the table before the first without KV heads. -/
def Part.layerSlots (p : Part) : Nat :=
  ((List.range 128).find? (fun s => p.mem.nat (p.dev.layerSlotAddr s) 1 == 0)).getD 128

/-- The KV heads of a head group. -/
def LayerSlot.heads (l : LayerSlot) (g : Nat) : List Nat :=
  (List.range l.hgs).map (g * l.hgs + ·) |>.filter (fun h => decide (h < l.kvh))

/-- The footprint of a page (R269). -/
def LayerSlot.footprint (l : LayerSlot) : Nat := 4096 + 512 * l.kvh * l.dim

/-! ### Pools and pages (R270 to R272) -/

/-- The parts of a page number (R271). -/
def pageDieOf (n : Nat) : Nat := bits n 23 22
def pagePool (n : Nat) : Nat := bits n 21 20
def pageIndex (n : Nat) : Nat := bits n 19 0
def pageNumber (die pool index : Nat) : Nat := die * 2 ^ 22 + pool * 2 ^ 20 + index

/-- A pool's registers (R309). -/
def Device.poolBase (d : Device) (die p : Nat) : Nat := d.get64 (pagePst die + 0x100 + 16 * p) % 2 ^ 40
def Device.poolPages (d : Device) (die p : Nat) : Nat := d.get (pagePst die + 0x108 + 16 * p)
def granuleOf (code : Nat) : Nat := 0x40000 * 4 ^ code
def Device.poolGranule (d : Device) (die p : Nat) : Nat := granuleOf (bits (d.get (pagePst die + 0x10C + 16 * p)) 1 0)
def Device.poolOn (d : Device) (die p : Nat) : Bool := bit (d.get (pagePst die + 0x10C + 16 * p)) 31

/-- Whether a page number lies outside an enabled pool (R282). -/
def Device.poolBad (d : Device) (n : Nat) : Bool :=
  !(d.poolOn (pageDieOf n) (pagePool n)) || decide (d.poolPages (pageDieOf n) (pagePool n) ≤ pageIndex n)

/-- Where a page begins. -/
def Device.pageAddr (d : Device) (n : Nat) : Nat :=
  d.poolBase (pageDieOf n) (pagePool n) + pageIndex n * d.poolGranule (pageDieOf n) (pagePool n)

/-- Where the header of the tile at an address of a page's payload lies (R395). -/
def Device.pageTileHeader (d : Device) (n a : Nat) : Nat :=
  let base := d.poolBase (pageDieOf n) (pagePool n)
  base + d.poolPages (pageDieOf n) (pagePool n) * d.poolGranule (pageDieOf n) (pagePool n) + 32 * ((a - base) / 4096)

/-- The keys, or the values, of a token of a head within a page (R272). -/
def LayerSlot.keyAt (l : LayerSlot) (h t : Nat) : Nat := 0x1000 + (256 * h + t) * l.dim
def LayerSlot.valueAt (l : LayerSlot) (h t : Nat) : Nat := 256 * l.kvh * l.dim + l.keyAt h t

/-! ### Data tiles (R395 to R400) -/

/-- What a consumer finds of a tile: a failed CRC, another tenant, and the poisoned granules of its payload. -/
structure TileUse where
  crcFail : Bool := false
  stranger : Bool := false
  poison : List Nat := []
  deriving DecidableEq, Repr

/-- The payload of a tile with the granules that its POISON field names taken as zeros (R397). -/
def tilePayload (m : Memory) (a mask : Nat) : List Byte :=
  ((m.read a 4096).zipIdx 0).map (fun e => if bit mask (e.2 / 64) then 0 else e.1)

/-- A tile verified at use (R399, R400): none of this applies to a tile that is not sealed. -/
def tileUse (m : Memory) (a header : Nat) (tenant : Nat) : TileUse :=
  let h := m.read header 32
  if !(bit (field h 6 2) 15) then {}
  else if field h 0 4 != crc32c (tilePayload m a (field h 8 8) ++ h.drop 4) then
    { crcFail := true, poison := (List.range 64).map (a / 64 + ·) }
  else if field h 4 1 != tenant then { stranger := true }
  else { poison := ((List.range 64).filter (fun g => bit (field h 8 8) g)).map (a / 64 + ·) }

/-- A failed tile CRC in the consumer's die (R400, R417). -/
def Device.tileCrcEvent (d : Device) (die a : Nat) : Device :=
  (d.count (pageMem die + 0x138)).event (pageMem die) 4 (stCrcFail + 4 * 0x100 + memUnit a * 0x10000) [a % 2 ^ 32, a / 2 ^ 32, 0]

/-- A write of an engine in pieces of 64 bytes, or narrow and refused (R31, R387). -/
def Part.put (p : Part) (a : Nat) (data : List Byte) (poisoned : Bool) (agent : Nat) : Part :=
  if isNarrow a data.length then (if p.dev.reachable a then p.onDev (·.refuseNarrow a data.length agent) else p)
  else if data.length % 64 = 0 then
    p.writePieces a data (if poisoned then List.range (data.length / 64) else [])
  else if p.dev.reachable a && p.dev.reachable (a + data.length - 1) then
    p.onMem (·.write a data (if poisoned then granules a data.length else []))
  else p

/-- Bytes replaced within one granule, which is read and written whole. A poisoned granule stays so (R385, R403). -/
def Part.patch (p : Part) (a : Nat) (data : List Byte) : Part :=
  let g := a / 64 * 64
  let p := p.touch g 64
  let old := p.mem.read g 64
  p.writePieces g (old.take (a - g) ++ data ++ old.drop (a - g + data.length)) (if p.mem.poison.contains (g / 64) then [0] else [])

/-- A tile sealed (R398): its header, with the granules that are poisoned now. -/
def Part.seal (p : Part) (a header tenant format source : Nat) : Part :=
  let mask := sumNat ((List.range 64).map (fun g => if p.mem.poison.contains (a / 64 + g) then 2 ^ g else 0))
  let rest := leBytes 1 tenant ++ leBytes 1 format ++ leBytes 2 (source + 0x8000) ++ leBytes 8 mask ++ List.replicate 16 0
  p.patch header (leBytes 4 (crc32c (tilePayload p.mem a mask ++ rest)) ++ rest)

end Sys2Proof.Machine
end

