-- ==== Sys2Proof/Machine/Plans.lean ====
section
/-! DEFINITION. The plan image and its checks, stream fetch, and the heat boundary: arrivals, releases and domain faults
(R180 to R218). -/

namespace Sys2Proof.Machine

/-! ### The image (R181, R616) -/

/-- 128 bits as bytes, one for each core of a set (R616). -/
def coreBits (inSet : Nat → Bool) : List Byte :=
  (List.range 64).map (fun i => BitVec.ofNat 8 (sumNat ((List.range 8).map (fun j => if inSet (8 * i + j) then 2 ^ j else 0))))

/-- The module's fuse-map digest (R616). -/
def Device.coreset (d : Device) : List Byte := sha256 (coreBits d.isFenced ++ coreBits d.isDead)

/-- An entry of the heat table. -/
def heatEntry (m : Memory) (base i : Nat) : HeatEntry :=
  let e := base + 0x80 + 128 * i
  ⟨m.nat e 2, m.nat (e + 2) 1, m.nat (e + 4) 4, (List.range 16).map (fun k => m.nat (e + 8 + 2 * k) 2),
    (List.range 16).map (fun k => m.nat (e + 0x28 + k) 1)⟩

/-- The header and heat table of an image (readings: log entry 37). -/
def readPlan (m : Memory) (a : Nat) : Plan :=
  { addr := a, planId := m.nat (a + 8) 8, hopNs := m.nat (a + 0x30) 4, bndGap := m.nat (a + 0x34) 4
    relLead := m.nat (a + 0x38) 4, levels := m.nat (a + 0x3C) 1 % 64, entry := m.nat (a + 0x40) 2
    totalLen := m.nat (a + 0x44) 4, heats := (List.range (m.nat (a + 0x3E) 2)).map (heatEntry m a) }

/-- The levels that a plan carries, in increasing order. -/
def Plan.levelList (q : Plan) : List Nat := (List.range 6).filter (fun k => bit q.levels k)

/-- The level whose streams run at a level: the next slower one that the plan carries (R183). -/
def Plan.runLevel (q : Plan) (level : Nat) : Nat :=
  ((List.range 6).find? (fun k => decide (level ≤ k) && bit q.levels k)).getD 5

/-- The place of a level's block in a stream directory. -/
def Plan.blockOf (q : Plan) (level : Nat) : Nat := (q.levelList.filter (fun k => decide (k < level))).length

/-- The address of a stream's directory entry. -/
def Plan.dirEntry (q : Plan) (heat level c : Nat) : Nat :=
  q.addr + ((q.heats[heat]?).map (·.dir)).getD 0 + 4096 * q.blockOf level + 8 * c

/-- A stream of an image as its checks see it. -/
structure StreamRef where
  heat : Nat
  level : Nat
  core : Nat
  off : Nat
  count : Nat
  deriving DecidableEq, Repr

/-- Every stream of an image that holds a word. -/
def planStreams (m : Memory) (q : Plan) : List StreamRef :=
  (List.range q.heats.length).flatMap (fun h => q.levelList.flatMap (fun l => (List.range 512).filterMap (fun c =>
    let e := q.dirEntry h l c
    if m.nat (e + 4) 2 = 0 then none else some ⟨h, l, c, m.nat e 4, m.nat (e + 4) 2⟩)))

/-- The words of a stream. -/
def StreamRef.words (s : StreamRef) (m : Memory) (q : Plan) : List Nat :=
  (List.range s.count).map (fun i => m.nat (q.addr + s.off + 16 * i) 16)

/-! ### The checks of R182 -/

/-- The digest of an image with its DIGEST field read as zero (R181). -/
def imageDigest (m : Memory) (a n : Nat) : List Byte :=
  sha256 (m.read a 0x60 ++ List.replicate 32 0 ++ m.read (a + 0x80) (n - 0x80))

/-- An image is well formed apart from its streams' places (check 1). -/
def wellFormedHeader (q : Plan) : Bool :=
  let n := q.heats.length
  decide (q.totalLen ≤ 0x10000000) && n != 0 && decide (q.entry < n) && decide (0x80 + 128 * n ≤ q.totalLen) &&
  q.heats.all (fun h => decide (h.next < n) && decide (h.kind ≤ 2) && decide (h.dir + 4096 * q.levelList.length ≤ q.totalLen))

/-- Check 1. -/
def check1 (m : Memory) (q : Plan) : Bool :=
  m.nat q.addr 4 == 0x5058424E && m.nat (q.addr + 4) 2 == 1 && wellFormedHeader q &&
  imageDigest m q.addr q.totalLen == m.read (q.addr + 0x60) 32 &&
  (planStreams m q).all (fun s => decide (s.off + 16 * s.count ≤ q.totalLen))

/-- Check 5 on one stream. -/
def check5 (q : Plan) (s : StreamRef) (ws : List Nat) : Bool :=
  match ws with
  | [] => true
  | w :: _ =>
    let h := heatWord w
    decide (s.count ≤ 4096) && wOp w == opHeat && h.nwords == s.count && h.heatIdx == s.heat && h.level == s.level &&
    ((q.heats[s.heat]?).map (·.kind)) == some h.kind

/-- The heat length that a stream names. -/
def streamLen (ws : List Nat) : Nat := (heatWord (ws.headD 0)).len

/-- Ticks that neither decrease nor pass the heat length (check 6). -/
def ticksOk (len : Nat) : Nat → List Nat → Bool
  | _, [] => true
  | t, w :: l => decide (t ≤ wTick w) && decide (wTick w ≤ len) && ticksOk len (wTick w) l

/-- Every XFER word has its EXT word (check 8). -/
def pairsOk : List Nat → Bool
  | [] => true
  | [w] => wOp w != opXfer
  | w :: v :: l => (wOp w != opXfer || (wOp v == opExt && wTick v == wTick w)) && pairsOk (v :: l)

/-- The reheat windows of a stream. -/
def windowsOf (ws : List Nat) : List (Nat × Nat) :=
  (ws.filter (fun w => wOp w == opWindow)).map (fun w => (wTick w, wTick w + 64 * windowUnits w))

/-- No PASS, FULL or ABORT word inside a window (check 9). -/
def check9 (ws : List Nat) : Bool :=
  let wins := windowsOf ws
  ws.all (fun w => !(wOp w == opPass || wOp w == opFull || wOp w == opAbort) ||
    wins.all (fun q => decide (wTick w < q.1) || decide (q.2 ≤ wTick w)))

/-- The slots that a stream names lie below the limit of its level (check 10). -/
def check10 (level : Nat) (ws : List Nat) : Bool :=
  ws.all (fun w => wOp w != opPass || decide ((passWord w).slot < concurrency level))

/-- What check 12 remembers of the tile last begun in an entry: the fields that its words repeat, whether its last word belonged to
its first join, and the words of its last join still to come. -/
structure TileSeen where
  fields : List Nat
  shape : Nat
  first : Bool
  left : Option Nat
  deriving DecidableEq, Repr

/-- The fields that every PASS word of a tile repeats. -/
def tileFields (p : PassWord) : List Nat := [p.inFmt, p.fmt, p.shape, p.region, p.rt, p.tileId]

/-- Whether a PASS word begins a new tile in its entry: it carries FIRST, and the tile before it is whole, or has left its first
join. -/
def opensTile (p : PassWord) : Option TileSeen → Bool
  | none => p.first
  | some t => p.first && (t.left == some 0 || !t.first)

/-- What is remembered after a PASS word. A word outside every tile leaves it as it is. -/
def seenAfter (p : PassWord) (old : Option TileSeen) : Option TileSeen :=
  let ends : Option Nat := if p.last then some (p.joinN - 1) else none
  if opensTile p old then some ⟨tileFields p, p.shape, true, ends⟩
  else old.map (fun t => { t with
    first := p.first && t.first
    left := match t.left with
      | some n => some (n - 1)
      | none => ends })

/-- A PASS word agrees with the tile that it belongs to (check 12). -/
def wordAgrees (p : PassWord) (old : Option TileSeen) : Bool :=
  opensTile p old || (match old with
    | some t => t.left == some 0 || t.fields == tileFields p
    | none => true)

/-- The tiles that an EPI or TREE word is over, and the shape it names. -/
def tilesOver (w : Nat) : List Nat × Nat :=
  if wOp w = opTree then ([(treeWord w).tile], (treeWord w).shape)
  else if wOp w = opEpi then ((if (epiWord w).gated then [(epiWord w).tile, (epiWord w).tile2] else [(epiWord w).tile]), (epiWord w).shape)
  else ([], 0)

/-- Check 12 over the words that issue in one class. -/
def check12 : SMap TileSeen → List Nat → Bool
  | _, [] => true
  | m, w :: l =>
    if wOp w = opPass then
      let p := passWord w
      let old := smapFind m p.tile
      wordAgrees p old && check12 (match seenAfter p old with
        | some t => smapSet m p.tile t
        | none => m) l
    else
      let named := tilesOver w
      named.1.all (fun e => match smapFind m e with
        | some t => t.shape == named.2
        | none => true) && check12 m l

/-- Check 12 over a stream, in every class. -/
def check12All (ws : List Nat) : Bool := (List.range 16).all (fun c => check12 [] (ws.filter (fun w => inClass w c)))

/-- The first failed check of R182, 0 when an image passes (readings: log entry 37). -/
def Device.failedCheck (d : Device) (m : Memory) (q : Plan) : Nat :=
  if !(check1 m q) then 1
  else if m.read (q.addr + 0x10) 32 != d.coreset then 2
  else if q.hopNs < d.get (pageHeat + 0x150) then 3
  else if !(bit q.levels 5) then 4
  else
    let ss := (planStreams m q).map (fun s => (s, s.words m q))
    let sameLen := ss.all (fun s => ss.all (fun t =>
      s.1.heat != t.1.heat || s.1.level != t.1.level || streamLen s.2 == streamLen t.2))
    if !(ss.all (fun s => check5 q s.1 s.2) && sameLen) then 5
    else if !(ss.all (fun s => ticksOk (streamLen s.2) 0 s.2)) then 6
    else if !(ss.all (fun s => s.2.all wordOk)) then 7
    else if !(ss.all (fun s => pairsOk s.2)) then 8
    else if !(ss.all (fun s => check9 s.2)) then 9
    else if !(ss.all (fun s => check10 s.1.level s.2)) then 10
    else if ss.any (fun s => d.isFenced s.1.core) then 11
    else if !(ss.all (fun s => check12All s.2)) then 12
    else 0

/-! ### Loading -/

/-- HEAT_NUM (R221). -/
def Device.heatNum (d : Device) : Nat := d.get64 (pageHeat + 0x10C)

/-- An event of the heat control page (R222). -/
def Device.heatEvent (d : Device) (b status extra : Nat) : Device :=
  let n := d.heatNum
  d.event pageHeat b (status + b * 0x100 + extra * 0x10000) [n % 2 ^ 32, n / 2 ^ 32]

/-- The device with its heat control changed. -/
def Device.onHeat (d : Device) (f : HeatCtl → HeatCtl) : Device := { d with heat := f d.heat }

/-- The cores that are not fenced (R3). -/
def Device.usable (d : Device) : List Nat := (List.range 512).filter (fun c => !(d.isFenced c))

/-- The sequencers of all usable cores in a state (R219). -/
def Device.setSeqs (d : Device) (st : Nat) : Device :=
  d.usable.foldl (fun d c => d.setBits (pageSeq c + 0x100) 2 0 st) d

/-- HC_STATE.STATE set (R221). -/
def Device.setHeatState (d : Device) (st : Nat) : Device := d.setBits (pageHeat + 0x100) 2 0 st

/-- A measurement register extended (R563). -/
def Device.extendMr (d : Device) (i : Nat) (x : List Byte) : Device :=
  { d with sec := { d.sec with mrs := listModify d.sec.mrs i (fun r => sha256 (r ++ x)) } }

/-- LOAD and START refused in the safe state (R530) (readings: log entry 37). -/
def Device.refuseSafe (d : Device) (v agent : Nat) : Device := (d.heatEvent 6 stTrimInvalid 0).refuseCtrl pageHeat v agent

/-- PLAN_LOAD (R182, R511, R530) (readings: log entry 37). -/
def opPlanLoad (agent : Nat) (d : Device) : Device :=
  if d.heat.loading.isSome || d.power.fault then d.refuseCtrl pageHeat 8 agent
  else if d.safe then d.refuseSafe 8 agent
  else d.wakeAll.onHeat (fun h => { h with loading := some (d.get64 (pageHeat + 0x160) % 2 ^ 40) })

/-- A plan installed (R182, R221, R563); no stream of an earlier plan stays fetched (readings: log entry 37). -/
def Device.installPlan (d : Device) (q : Plan) (digest : List Byte) : Device :=
  let d := { d with cores := d.cores.map (fun (e : Nat × CoreState) => (e.1, { e.2 with spare := none })) }
  let d := d.onHeat (fun h => { h with plan := some q, stale := false })
  let d := ((d.set64 (pageHeat + 0x104) q.planId).set (pageHeat + 0x154) q.hopNs).extendMr 3 digest
  if d.heat.started then d else (d.setHeatState 1).setSeqs 1

/-- PLAN_LOAD_DONE (R182). Nothing happens while a die it waits for wakes (R511) (readings: log entry 37). -/
def opPlanLoadDone (p : Part) : Part :=
  match p.dev.heat.loading with
  | none => p
  | some a =>
    if !p.dev.allAwake then p
    else
      let q := readPlan p.mem a
      let p := p.touch a (Nat.min q.totalLen 0x10000000)
      let n := p.dev.failedCheck p.mem q
      let p := p.onDev (·.onHeat (fun h => { h with loading := none }))
      if n = 0 then p.onDev (·.installPlan q (p.mem.read (a + 0x60) 32)) else p.onDev (·.heatEvent 6 stOk n)

/-! ### Releases and domain faults -/

/-- Whether this module is the domain's root, or node 0 of its group (R196). -/
def Device.isRoot (d : Device) : Bool := d.node == 0
def Device.isLead (d : Device) : Bool := d.node % 16 == 0

/-- The number of groups in the domain (R460), one before enumeration. -/
def Device.groupCount (d : Device) : Nat := Nat.max 1 (bits (d.get (pageMesh + 0x100)) 21 16)

/-- The modules that a release travels on to from this one (R197). -/
def Device.releaseTo (d : Device) : List Nat :=
  (if d.isRoot then (List.range d.groupCount).tail.map (· * 16) else []) ++
  (if d.isLead then (List.range 16).tail.map (d.node + ·) else [])

/-- A release sent on down the tree. -/
def Device.forwardRelease (d : Device) (r : Release) : Device :=
  d.releaseTo.foldl (fun d n => d.cellTo n (.heatRelease r.heatNum r.start r.level r.replay r.fault r.classes)) d

/-- The slots of the faulted heat and of the next one forgotten: their requests are admitted again (R201). -/
def Device.forgetSlots (d : Device) : Device :=
  let clear := fun (y : DieServing) => { y with cur := [], next := [], adpNow := [], adpNext := [], staged := [], filled := false }
  { d with serving := { d.serving with dies := d.serving.dies.map (fun e => (e.1, clear e.2)), walked := [], logits := [], broken := [] } }

/-- The domain faults at this module (R201, R260): sequencers halt, deferred effects and waiters go (readings: log entry 38). -/
def Device.domainFault (d : Device) (status node : Nat) : Device :=
  let d := d.onHeat (fun h => { h with
    started := false, starting := false, release := none, modules := [], groups := [], dies := [], proposals := []
    arrived := false })
  let d := (({ d with deferred := [], replayAsked := false }).setHeatState 4).setSeqs 4 |>.forgetSlots
  (d.onSync (fun s => { s with waiters := [] })).heatEvent 3 status node

/-- The root declares a domain fault and releases it (R201). -/
def Device.declareFault (d : Device) (status node : Nat) : Device :=
  if d.heat.started then
    let r : Release := ⟨d.heatNum % 2 ^ 32, d.now, d.perfLevel, false, true, []⟩
    (d.forwardRelease r).domainFault status node
  else d

/-- The module leaves service: the root declares a domain fault first, and the sequencers halt (R43, R256). No plan is
loaded or started after it (readings: log entry 64). -/
def Device.leaveService (d : Device) : Device :=
  let d := if d.isRoot then d.declareFault stOk d.node else d
  (d.onHeat (fun h => { h with started := false, starting := false, loading := none, release := none })).setSeqs 4

/-- The node to which an arrival of this module goes: node 0 of its group, or the root (R196). -/
def Device.arriveTo (d : Device) : Nat := if d.isLead then 0 else d.node / 16 * 16

/-- A fault or a loss of lock reported with the next express cell (R255, R618) (readings: log entry 38). -/
def Device.reportFault (d : Device) (fault unlock : Bool) : Device :=
  if d.isRoot then d.declareFault stOk d.node
  else d.cellTo d.arriveTo (.heatArrive (d.heatNum % 2 ^ 32) false fault unlock d.perfLevel 0 d.node false)

/-! ### Stream fetch (R190, R617, R618) -/

/-- The heat program that comes next and the level it runs at: that of the release when it has come, and after a held heat
the program it displaced (R373). -/
def Device.nextProgram (d : Device) (q : Plan) : Nat × Nat :=
  let follow := if d.planRuns then d.billet.displaced.getD (((q.heats[d.heat.prog]?).map (·.next)).getD 0) else q.entry
  match d.heat.release with
  | some r => (if r.replay then d.heat.prog else follow, r.level)
  | none => (follow, d.perfLevel)

/-- A stream as fetched from the image (R617) (readings: log entry 37). -/
def fetchStream (m : Memory) (q : Plan) (heat level c : Nat) : Spare :=
  let e := q.dirEntry heat (q.runLevel level) c
  if m.poisoned e 8 then ⟨heat, level, [], [], true⟩
  else
    let a := q.addr + m.nat e 4
    let n := Nat.min (m.nat (e + 4) 2) 4096
    ⟨heat, level, (List.range n).map (fun i => m.nat (a + 16 * i) 16), (List.range n).filter (fun i => m.poisoned (a + 16 * i) 16), false⟩

/-- The granules a fetch reads, checked by the codeword decoder. -/
def Part.touchStream (p : Part) (q : Plan) (heat level c : Nat) : Part :=
  let e := q.dirEntry heat (q.runLevel level) c
  (p.touch e 8).touch (q.addr + p.mem.nat e 4) (16 * Nat.min (p.mem.nat (e + 4) 2) 4096)

/-- A core's spare buffer filled; a poisoned directory entry is reported to the root, which faults the domain (R618). -/
def Part.fetchInto (p : Part) (q : Plan) (heat level c : Nat) : Part :=
  let p := p.touchStream q heat level c
  let s := fetchStream p.mem q heat level c
  let p := p.onDev (·.onCore c (fun x => { x with spare := some s }))
  if s.dead then p.onDev (·.reportFault true false) else p

/-- STREAM_FETCH (readings: log entry 37). -/
def opStreamFetch (c : Nat) (p : Part) : Part :=
  match p.dev.heat.plan with
  | none => p
  | some q =>
    let n := p.dev.nextProgram q
    if p.dev.isFenced c then p else p.fetchInto q n.1 n.2 c

/-! ### The release of R198 -/

/-- The start tick by the lengths of heats and gap: the first tick of R198. -/
def Device.earliestStart (d : Device) (q : Plan) : Nat := d.heat.start + d.heat.len + q.bndGap

/-- What a module does with a release (R197, R198, R206, R213, R505) (readings: log entry 38). -/
def Device.takeRelease (d : Device) (r : Release) : Device :=
  let q := d.heat.plan
  let late := d.planRuns && (match q with
    | some q => decide (d.earliestStart q < r.start)
    | none => false)
  let d := (d.set64 (pageHeat + 0x114) r.start).onHeat (fun h => { h with release := some r, modules := [], groups := [] })
  let d := if late then d.heatEvent 0 stOk 0 else d
  let d := if r.replay then ({ d with deferred := [] }).heatEvent 1 stOk 0 else d
  if r.level = d.perfLevel then d
  else
    let w := d.get (pagePwr + 0x100)
    ({ d with power := { d.power with clockDone := false, railDone := false } }).set (pagePwr + 0x100)
      (withBits (withBits w 10 8 r.level) 12 12 1) |>.heatEvent 4 stOk 0

/-- The class of every group, from the groups' arrivals. -/
def Device.groupClasses (d : Device) : List Nat :=
  (List.range 32).map (fun g => ((d.heat.groups.find? (fun a => a.node == 16 * g)).map (·.cls)).getD 0)

/-- The level of the next heat: the slowest request; at the initial barrier P5 unless the plan carries it (R197) (readings: log entry 37). -/
def Device.nextLevel (d : Device) (q : Plan) : Nat :=
  let slow := d.heat.groups.foldl (fun m a => Nat.max m a.level) 0
  if d.planRuns || bit q.levels slow then slow else 5

/-- The root computes and sends the release (HEAT_RELEASE_SEND, R198, R213). A heat under voltage or frequency stress has the lead
of a level change before and after it (R579) (readings: log entry 38). -/
def Device.sendRelease (d : Device) (q : Plan) : Device :=
  let level := d.nextLevel q
  let stress := level == 0 && d.heat.groups.any (·.stress)
  let second := d.now + q.relLead + (if level = d.perfLevel ∧ !stress ∧ !d.heat.stressed then 0 else 4000)
  let first := if d.planRuns then d.earliestStart q else 0
  let r : Release :=
    ⟨d.heatNum % 2 ^ 32, Nat.max first second, level, d.heat.groups.any (·.replay), false, d.groupClasses⟩
  let d := if d.planRuns && decide (first < second) then d.count (pageHeat + 0x11C) else d
  ((d.onHeat (fun h => { h with stressNext := stress })).forwardRelease r).takeRelease r

/-- The domain has arrived when every group has (R196); a fault or a mismatch declares a domain fault (R201, R218) (readings: log entry 38). -/
def Device.domainArrive (d : Device) : Device :=
  match d.heat.groups.find? (fun a => a.fault || a.unlock || a.heatNum != d.heatNum % 2 ^ 32) with
  | some a => d.declareFault stOk a.missing
  | none =>
    if d.heat.groups.length < d.groupCount then d
    else match d.heat.plan with
      | some q => d.sendRelease q
      | none => d.declareFault stOk d.node

/-- The arrivals of a group combined (R197). -/
def combineArrivals (node : Nat) (l : List Arrival) : Arrival :=
  ⟨node, (l.headD ⟨0, 0, false, false, false, 0, 0, 0, false⟩).heatNum, l.any (·.replay), l.any (·.fault), l.any (·.unlock),
    l.foldl (fun m a => Nat.max m a.level) 0, l.foldl (fun m a => Nat.max m a.cls) 0,
    ((l.find? (fun a => a.fault || a.unlock)).map (·.node)).getD node, l.any (·.stress)⟩

/-- A group's arrival reaches the root (readings: log entry 38). -/
def Device.groupArrive (d : Device) (a : Arrival) : Device :=
  (d.onHeat (fun h => { h with groups := h.groups.filter (fun b => b.node != a.node) ++ [a] })).domainArrive

/-- A module's arrival reaches node 0 of its group: a fault, a loss of lock or another heat number goes on at once, and
the group arrives with its 16 modules (R196, R197, R618) (readings: log entry 38). -/
def Device.moduleArrive (d : Device) (a : Arrival) : Device :=
  let d := d.onHeat (fun h => { h with modules := h.modules.filter (fun b => b.node != a.node) ++ [a] })
  let wrong := d.heat.modules.any (fun b => b.fault || b.unlock || b.heatNum != a.heatNum)
  if wrong || decide (16 ≤ d.heat.modules.length) then
    let g := { combineArrivals d.node d.heat.modules with
      fault := wrong && !(d.heat.modules.any (·.unlock))
      missing := ((d.heat.modules.find? (fun b => b.fault || b.unlock || b.heatNum != a.heatNum)).map (·.node)).getD d.node }
    if d.isRoot then d.groupArrive g
    else d.cellTo 0 (.heatArrive g.heatNum g.replay g.fault g.unlock g.level g.cls g.missing g.stress)
  else d

/-- The level that a module requests: the slower of the firmware's and the thermal one (R212) (readings: log entry 37). -/
def Device.levelAsked (d : Device) : Nat :=
  let w := d.get (pageHeat + 0x138)
  Nat.min 5 (Nat.max (bits w 2 0) (bits w 6 4))

/-- Whether the arrival carries REPLAY, and the request denied beyond the limit (R205, R207). -/
def Device.replayFlag (d : Device) : Bool × Device :=
  if !d.replayAsked then (false, d)
  else
    let d' := { d with replayAsked := false }
    if d.heat.replays < bits (d.get (pageHeat + 0x134)) 3 0 then (true, d')
    else (false, (d'.count (pageHeat + 0x124)).heatEvent 2 stUnmended 0)

/-- The module asks for voltage or frequency stress in the maintenance heat that comes next (R579) (readings: log entry 70). -/
def Device.asksStress (d : Device) : Bool :=
  match d.heat.plan with
  | none => false
  | some q => ((q.heats[(d.nextProgram q).1]?).map (·.kind)) == some 1 && bits (d.get (pageHis + 0x10C)) 1 0 != 0 && d.levelAsked == 0

/-- The module's arrival sent up (MODULE_ARRIVE, R197); at the initial barrier a module without a plan arrives with a
mismatch (R218). -/
def Device.sendArrival (d : Device) (fault : Bool) : Device :=
  let (replay, d) := d.replayFlag
  let a : Arrival := ⟨d.node, d.heatNum % 2 ^ 32, replay, fault || d.heat.stale, false, d.levelAsked,
    d.heat.proposals.foldl (fun m e => Nat.max m e.2) 0, d.node, d.asksStress⟩
  let d := d.onHeat (fun h => { h with arrived := true })
  if d.isLead then d.moduleArrive a
  else d.cellTo d.arriveTo (.heatArrive a.heatNum a.replay a.fault a.unlock a.level a.cls a.missing a.stress)

/-- The module's plan is not the root's (R218): how a module comes to know the root's PLAN_ID the spec does not say, so that another
module than the root takes it as a free value (readings: log entry 68). -/
def Device.planMismatch (d : Device) : Bool :=
  match d.heat.plan with
  | none => true
  | some q => !d.isRoot && q.planId != (Config.rootPlan d.free).toNat

/-- The initial barrier reached once every die is awake (R510, R218) (readings: log entry 68). -/
def Device.initialArrival (d : Device) : Device :=
  if d.heat.starting && d.allAwake then
    (d.drawn.onHeat (fun h => { h with starting := false })).sendArrival d.planMismatch
  else d

/-- PLAN_START (R218, R254, R510, R520, R530) (readings: log entry 37). -/
def opPlanStart (agent : Nat) (d : Device) : Device :=
  if d.safe then d.refuseSafe 4 agent
  else if !(bit (d.get (pageTb 4 + 0x108)) 0) || d.heat.started || d.heat.loading.isSome || d.power.fault then
    d.refuseCtrl pageHeat 4 agent
  else
    let d := { d with power := { d.power with blocked := [] }, deferred := [], replayAsked := false }
    let d := d.onHeat (fun h => { h with
      started := true, starting := true, arrived := false, dies := [], proposals := [], release := none, replays := 0 })
    (d.set64 (pageHeat + 0x10C) 0).wakeAll.initialArrival

/-- The module arrives when its four dies have, and a held heat when the firmware has ended it (R196, R215). -/
def Device.tryArrive (d : Device) : Device :=
  if d.planRuns && !d.heat.arrived && (List.range 4).all (fun i => d.heat.dies.contains i) &&
    (d.heat.kind != 2 || d.heat.holdDone) then d.sendArrival false else d

/-- HOLD_DONE (R215) (readings: log entry 39). -/
def opHoldDone (agent : Nat) (d : Device) : Device :=
  if d.heatState = 3 then (d.onHeat (fun h => { h with holdDone := true })).tryArrive else d.refuseCtrl pageHeat 2 agent

/-- Whether a core's engines have completed the heat's work (R196). -/
def CoreState.quiet (x : CoreState) : Bool :=
  x.joins.isEmpty && x.fullQ.isEmpty && x.vecQ.isEmpty && x.treeQ.isEmpty && x.epiQ.isEmpty && x.epiOut.isEmpty &&
  x.attnQ.isEmpty && x.retries.isEmpty && x.drains.isEmpty

/-- Whether an anvil has no pass and no abort in hand. -/
def AnvilState.quiet (x : AnvilState) : Bool := x.queue.isNone && x.run.isNone && x.tree.isEmpty && x.aborts == 0

/-- Whether a core has issued its BOUND word and its engines are done (R196); a core to which the plan gives no words in the heat
has nothing to issue (readings: log entry 38). -/
def Device.coreArrived (d : Device) (c : Nat) : Bool :=
  let x := d.core c
  x.bound && !(d.power.blocked.contains c) && x.quiet &&
  (List.range 68).all (fun a => (d.anvil (68 * c + a)).quiet) && d.transfers.all (fun t => t.core != c)

/-- Whether a die may arrive: its cores, its engines and its admission are done (R196). -/
def Device.dieReady (d : Device) (die : Nat) : Bool :=
  d.planRuns && !(d.heat.dies.contains die) && d.heat.proposals.any (fun e => e.1 == die) &&
    (d.usable.filter (fun c => c / 128 == die)).all (fun c => d.coreArrived c)

/-- A die arrives, and the module behind the last one (R196). -/
def Device.dieArrive (d : Device) (die : Nat) : Device := (d.onHeat (fun h => { h with dies := setInsert h.dies die })).tryArrive

/-- The first node that has not arrived at the root, in increasing node address (R201). -/
def Device.firstMissing (d : Device) : Nat :=
  match (List.range 16).find? (fun n => !(d.heat.modules.any (fun a => a.node == n))) with
  | some n => if d.heat.groups.any (fun a => a.node == 0) then
      16 * (((List.range d.groupCount).find? (fun g => !(d.heat.groups.any (fun a => a.node == 16 * g)))).getD 0) else n
  | none => 16 * (((List.range d.groupCount).find? (fun g => !(d.heat.groups.any (fun a => a.node == 16 * g)))).getD 0)

/-- BOUNDARY_TIMEOUT (R201, R215): at the root, while no release has gone out for a heat that is not held (readings: log entry 38). -/
def opBoundaryTimeout (d : Device) : Device :=
  if d.isRoot && d.planRuns && d.heat.release.isNone && d.heat.kind != 2 then
    (d.reach (d.heat.start + d.heat.len + d.get (pageHeat + 0x130))).declareFault stTimeout d.firstMissing
  else d

/-- An arrival that comes before this module's own start: it is kept for the initial barrier when its heat number is that of a
start (R197, R218). -/
def Device.earlyArrival (d : Device) (a : Arrival) : Device :=
  let keep : List Arrival → List Arrival := fun l => l.filter (fun b => b.node != a.node) ++ [a]
  if a.heatNum ≠ 0 then d
  else if d.isRoot && decide (16 ≤ a.node) then d.onHeat (fun h => { h with groups := keep h.groups })
  else if d.isLead then d.onHeat (fun h => { h with modules := keep h.modules })
  else d

/-- An arrival cell (HEAT_ARRIVE_CELL, R197): group arrivals come to the root from other groups. -/
def Device.arriveCell (d : Device) (a : Arrival) : Device :=
  if !d.heat.started then d.earlyArrival a
  else if d.isRoot && decide (16 ≤ a.node) then d.groupArrive a
  else if d.isLead then d.moduleArrive a
  else d

/-- A release cell (HEAT_RELEASE_CELL, R197, R201). -/
def Device.releaseCell (d : Device) (r : Release) : Device :=
  if !d.heat.started || r.heatNum != d.heatNum % 2 ^ 32 || d.isRoot then d
  else
    let d := d.forwardRelease r
    if r.fault then ((d.reach r.start).drawn).domainFault stOk (Config.missingNode d.free).toNat
    else d.takeRelease r

def execStreamFetch (c : Core) (s : State) : Host.Outcome State Fault Refusal := s.onPart (opStreamFetch c.val)
def execPlanLoad (agent : Agent) (s : State) : Host.Outcome State Fault Refusal :=
  s.onDev (fun d => d.written agent.toNat (opPlanLoad agent.toNat))
def execPlanLoadDone (s : State) : Host.Outcome State Fault Refusal := s.onPart opPlanLoadDone
def execPlanStart (agent : Agent) (s : State) : Host.Outcome State Fault Refusal :=
  s.onDev (fun d => d.written agent.toNat (opPlanStart agent.toNat))
def execHoldDone (agent : Agent) (s : State) : Host.Outcome State Fault Refusal :=
  s.onDev (fun d => d.written agent.toNat (opHoldDone agent.toNat))
def execBoundaryTimeout (s : State) : Host.Outcome State Fault Refusal := s.onDev opBoundaryTimeout

end Sys2Proof.Machine
end

