-- ==== Sys2Proof/Machine/Transcend.lean ====
section
/-! DEFINITION. Correctly rounded exp, log, tanh, sin and cos in FP32 (R176), and the activation functions (R122, R136).
A function is computed in fixed point with 600 fraction bits and an error below 2^200 units of the last place; both
ends of that interval round to the same FP32 value, which is then the nearest one. -/

namespace Sys2Proof.Machine

/-- The fraction bits of the fixed-point numbers, 1.0, and the error bound. -/
def fxBits : Nat := 600
def fxOne : Int := (2 : Int) ^ fxBits
def fxErr : Int := (2 : Int) ^ 200

/-- A product in fixed point, rounded down. -/
def fxMul (a b : Int) : Int := a * b / fxOne
/-- A quotient in fixed point, rounded down. -/
def fxDiv (a b : Int) : Int := a * fxOne / b

/-- A finite number in fixed point; exact for every FP32 value. -/
def fxOf (neg : Bool) (m : Nat) (e : Int) : Int :=
  let v : Int := (m * 2 ^ (e + fxBits).toNat : Nat)
  if neg then -v else v

/-- A fixed-point number times a power of two in FP32. -/
def fxRound (v k : Int) : U32 := BitVec.ofNat 32 (fp32.round (decide (v < 0)) v.natAbs (k - fxBits) false)

/-- The FP32 value that both ends of the error interval round to. The value is open where they differ. -/
def fxResult (op : Nat) (x : U32) (v k : Int) : U32 :=
  let lo := fxRound (v - fxErr) k
  if lo = fxRound (v + fxErr) k then lo else Config.roundedValue op x

/-- The sum of an exponential series: terms from the i-th on. -/
def expSum (r : Int) : Nat → Nat → Int → Int
  | 0, _, _ => 0
  | n + 1, i, term => term + expSum r n (i + 1) (fxMul term r / (i + 1))

/-- The sum of an inverse tangent series, of alternating sign or not: terms of z^(2i + 1) / (2i + 1). -/
def atanSum (alt : Bool) (z2 : Int) : Nat → Nat → Int → Int
  | 0, _, _ => 0
  | n + 1, i, term =>
    (if alt && i % 2 == 1 then -(term / (2 * i + 1)) else term / (2 * i + 1)) + atanSum alt z2 n (i + 1) (fxMul term z2)

/-- The inverse hyperbolic tangent and the inverse tangent of a small number. -/
def fxAtanh (z : Int) : Int := atanSum false (fxMul z z) 260 0 z
def fxAtan (z : Int) : Int := atanSum true (fxMul z z) 260 0 z

/-- ln 2 and π / 2. -/
def fxLn2 : Int := 2 * fxAtanh (fxOne / 3)
def fxHalfPi : Int := 8 * fxAtan (fxOne / 5) - 2 * fxAtan (fxOne / 239)

/-- e^x as a fixed-point number in 0.5 to 1.5 and a power of two. -/
def fxExp (x : Int) : Int × Int :=
  let k := (x + fxLn2 / 2) / fxLn2
  (expSum (x - k * fxLn2) 120 0 fxOne, k)

/-- The exponential (R176). -/
def fExp (x : U32) : U32 :=
  match f32 x with
  | .nan => toF32 .nan
  | .inf neg => if neg then 0 else x
  | .fin neg m e =>
    if m = 0 then 0x3F800000
    else if fxOf false m e ≥ 200 * fxOne then (if neg then 0 else BitVec.ofNat 32 (fp32.infBits false))
    else
      let r := fxExp (fxOf neg m e)
      fxResult 0 x r.1 r.2

/-- The logarithm (R176). -/
def fLog (x : U32) : U32 :=
  match f32 x with
  | .nan => toF32 .nan
  | .inf neg => if neg then toF32 .nan else x
  | .fin neg m e =>
    if m = 0 then BitVec.ofNat 32 (fp32.infBits true)
    else if neg then toF32 .nan
    else if x = 0x3F800000 then 0
    else
      let n := bitLength m
      let y := fxOf false m (-(n : Int))
      let (y, k) := if y * 4 < 3 * fxOne then (2 * y, e + n - 1) else (y, e + n)
      fxResult 1 x (k * fxLn2 + 2 * fxAtanh (fxDiv (y - fxOne) (y + fxOne))) 0

/-- The hyperbolic tangent (R176). -/
def fTanh (x : U32) : U32 :=
  match f32 x with
  | .nan => toF32 .nan
  | .inf neg => if neg then 0xBF800000 else 0x3F800000
  | .fin neg m e =>
    if m = 0 then x
    else if fxOf false m e ≥ 16 * fxOne then (if neg then 0xBF800000 else 0x3F800000)
    else
      let r := fxExp (2 * fxOf neg m e)
      let y := if r.2 < 0 then r.1 / 2 ^ (-r.2).toNat else r.1 * 2 ^ r.2.toNat
      fxResult 2 x (fxDiv (y - fxOne) (y + fxOne)) 0

/-- The sine series from x, and the cosine series. -/
def sinSum (x2 : Int) : Nat → Nat → Int → Int
  | 0, _, _ => 0
  | n + 1, i, term => term + sinSum x2 n (i + 2) (-(fxMul term x2) / ((i + 1) * (i + 2)))

/-- The sine and the cosine of an angle in fixed point. -/
def fxSinCos (x : Int) : Int × Int :=
  let k := (x + fxHalfPi / 2) / fxHalfPi
  let r := x - k * fxHalfPi
  let s := sinSum (fxMul r r) 80 1 r
  let c := sinSum (fxMul r r) 80 0 fxOne
  if k % 4 = 0 then (s, c) else if k % 4 = 1 then (c, -s) else if k % 4 = 2 then (-s, -c) else (-c, s)

/-- The sine (R176). -/
def fSin (x : U32) : U32 :=
  match f32 x with
  | .fin neg m e => if m = 0 then x else fxResult 3 x (fxSinCos (fxOf neg m e)).1 0
  | _ => toF32 .nan

/-- The cosine (R176). -/
def fCos (x : U32) : U32 :=
  match f32 x with
  | .fin neg m e => if m = 0 then 0x3F800000 else fxResult 4 x (fxSinCos (fxOf neg m e)).2 0
  | _ => toF32 .nan

/-! ### Activation functions (R122, R136) -/

/-- An FP32 result, flushed in compatibility mode (R135). -/
def keep (compat : Bool) (w : U32) : U32 := if compat then flushF32 w else w

/-- ReLU. -/
def relu (x : U32) : U32 :=
  match f32 x with
  | .nan => toF32 .nan
  | .inf neg => if neg then 0 else x
  | .fin neg m _ => if neg || m == 0 then 0 else x

/-- SiLU, every operation rounded in the order written. -/
def silu (compat : Bool) (x : U32) : U32 :=
  match f32 x with
  | .nan => toF32 .nan
  | .inf neg => if neg then 0x80000000 else x
  | .fin _ _ _ =>
    let k := keep compat
    k (fMul x (k (fDiv 0x3F800000 (k (fAdd 0x3F800000 (k (fExp (x ^^^ 0x80000000))))))))

/-- GELU, every operation rounded in the order written. -/
def gelu (compat : Bool) (x : U32) : U32 :=
  match f32 x with
  | .nan => toF32 .nan
  | .inf neg => if neg then 0x80000000 else x
  | .fin _ _ _ =>
    let k := keep compat
    let cube := k (fMul x (k (fMul x x)))
    let inner := k (fMul 0x3F4C422A (k (fAdd x (k (fMul 0x3D372713 cube)))))
    k (fMul (k (fMul 0x3F000000 x)) (k (fAdd 0x3F800000 (k (fTanh inner)))))

end Sys2Proof.Machine
end

