-- ==== Sys2Proof/Machine/Bellows.lean ====
section
/-! DEFINITION. The bellows: walks over page lists, attention, the append of new tokens, and retries (R280 to R292,
R297, R211). -/

namespace Sys2Proof.Machine

/-! ### Slot-table entries and walk descriptors -/

/-- A slot-table entry (R324). -/
structure SlotEntry where
  addr : Nat
  record : Nat
  home : Nat
  kind : Nat
  flags : Nat
  ntok : Nat
  pos : Nat
  walk : Nat
  input : Nat
  deriving DecidableEq, Repr

/-- The address of an entry of a bank (R322). -/
def Device.slotAddr (d : Device) (die bank e : Nat) : Nat :=
  d.get64 (pageSrv die + 0x104) % 2 ^ 40 + bank * 0x21000 + 32 * e

/-- The bank of the current heat (R322). -/
def Device.slotBank (d : Device) (die : Nat) : Nat := d.get (pageSrv die + 0x164) % 2

/-- A slot-table entry as memory holds it. -/
def slotEntry (m : Memory) (a : Nat) : SlotEntry :=
  ⟨a, m.nat a 2, m.nat (a + 2) 2 % 512, m.nat (a + 4) 1, m.nat (a + 5) 1, m.nat (a + 6) 2, m.nat (a + 8) 4,
    m.nat (a + 0x10) 8 % 2 ^ 40, m.nat (a + 0x18) 8 % 2 ^ 40⟩

/-- The entry of the current heat. -/
def Part.slotNow (p : Part) (die e : Nat) : SlotEntry := slotEntry p.mem (p.dev.slotAddr die (p.dev.slotBank die) e)

/-- Whether an entry is walked and sampled: not empty and not dropped (R324, R325). -/
def SlotEntry.live (s : SlotEntry) : Bool := s.kind != 0 && !(bit s.flags 0)

/-- A walk descriptor (R280). -/
structure WalkDesc where
  addr : Nat
  dir : Nat
  q : Nat
  out : Nat
  newkv : Nat
  first : Nat
  last : Nat
  stride : Nat
  flags : Nat
  nq : Nat
  win : Nat
  deriving DecidableEq, Repr

def walkDesc (m : Memory) (a : Nat) : WalkDesc :=
  ⟨a, m.nat a 8 % 2 ^ 40, m.nat (a + 8) 8 % 2 ^ 40, m.nat (a + 0x10) 8 % 2 ^ 40, m.nat (a + 0x18) 8 % 2 ^ 40,
    m.nat (a + 0x20) 2, m.nat (a + 0x22) 2, inRange 1 32 (m.nat (a + 0x24) 1), m.nat (a + 0x25) 1,
    inRange 1 512 (m.nat (a + 0x26) 2), m.nat (a + 0x28) 4⟩

def WalkDesc.partials (w : WalkDesc) : Bool := bit w.flags 0
def WalkDesc.appends (w : WalkDesc) : Bool := bit w.flags 1
def WalkDesc.causal (w : WalkDesc) : Bool := bit w.flags 2
def WalkDesc.window (w : WalkDesc) : Bool := bit w.flags 3
def WalkDesc.overflowIn (w : WalkDesc) : Bool := bit w.flags 4

/-- A key position is masked for a query position (R285). -/
def WalkDesc.masked (w : WalkDesc) (q k : Nat) : Bool :=
  (w.causal && decide (q < k)) || (w.window && decide (k + w.win ≤ q))

/-- What a walk works on: the cluster, the ATTN word's head group, the slot's entry, its descriptor, the layer slot. -/
structure WalkJob where
  cluster : Nat
  entry : Nat
  group : Nat
  lslot : Nat
  slot : SlotEntry
  desc : WalkDesc
  layer : LayerSlot
  deriving DecidableEq, Repr

/-- The die and core 0 of a cluster (R19). -/
def clusterDie (k : Nat) : Nat := k / 8
def clusterCore (k : Nat) : Nat := k / 8 * 128 + k % 8 * 16

def Part.walkJob (p : Part) (k word entry : Nat) : WalkJob :=
  let a := attnWord word
  let s := p.slotNow (clusterDie k) entry
  ⟨k, entry, a.hgrp, a.lslot, s, walkDesc p.mem s.walk, p.layerSlot a.lslot⟩

/-- What a walk reads before its list (R385): its slot entry, its descriptor and its layer slot. -/
def Part.touchJob (p : Part) (k word entry : Nat) : Part :=
  let s := p.dev.slotAddr (clusterDie k) (p.dev.slotBank (clusterDie k)) entry
  let p := p.touch s 32
  p.touchAll [((slotEntry p.mem s).walk, 64), (p.dev.layerSlotAddr (attnWord word).lslot, 16)]

/-- The step of an overflow token that no page takes (R298). -/
def WalkJob.spills (j : WalkJob) : Bool := bit j.slot.flags 3

/-- The query heads of the group. -/
def WalkJob.queryHeads (j : WalkJob) : List Nat := (j.layer.heads j.group).flatMap (fun h => (List.range j.layer.gqa).map (h * j.layer.gqa + ·))

/-! ### The snapshot (R282, R293) -/

/-- A page list and its directory as a walk read them. -/
structure Snapshot where
  tenant : Nat
  nshard : Nat
  shard : Nat
  overflow : Nat
  length : Nat
  count : Nat
  entries : List Nat
  deriving DecidableEq, Repr

/-- How the read of a list ends: with a status, with a failed CRC, or with a snapshot. -/
inductive SnapRead where
  | ends (status : Nat)
  | crcFail
  | ok (s : Snapshot)
  deriving DecidableEq, Repr

/-- A range that arrives poisoned: poisoned granules and absent addresses (readings: log entry 47). -/
def Part.arrivesBad (p : Part) (a n : Nat) : Bool :=
  p.mem.poisoned a n || !(p.dev.reachable a && p.dev.reachable (a + n - 1))

/-- The list pointer of a layer slot in a directory (R276). -/
def listPointer (m : Memory) (dir s : Nat) : Nat := m.nat (dir + 64 + 8 * s) 8

/-- The directory, the list header and the entries read (R282). A COUNT above the largest list fails the CRC check (readings: log entry 58). -/
def Part.readList (p : Part) (dir s : Nat) : Part × SnapRead :=
  let p := (p.touch dir 64).touch (dir + 64 + s / 8 * 64) 64
  if p.arrivesBad dir 64 || p.arrivesBad (dir + 64 + s / 8 * 64) 64 then (p, .ends stPoisoned)
  else
    let ptr := listPointer p.mem dir s
    if !(bit ptr 63) then (p, .ends stListChanged)
    else
      let a := ptr % 2 ^ 40
      let p := p.touch a 64
      if p.arrivesBad a 64 then (p, .ends stPoisoned)
      else
        let count := p.mem.nat (a + 8) 4
        if 16384 < count then (p, .crcFail)
        else
          let p := p.touch (a + 64) (4 * count)
          if count != 0 && p.arrivesBad (a + 64) (4 * count) then (p, .ends stPoisoned)
          else if crc32c (p.mem.read (a + 64) (4 * count)) != p.mem.nat (a + 12) 4 then (p, .crcFail)
          else (p, .ok
            { tenant := p.mem.nat (dir + 4) 1, nshard := inRange 1 16 (p.mem.nat (dir + 13) 1), shard := p.mem.nat (dir + 12) 1
              overflow := p.mem.nat (dir + 16) 8 % 2 ^ 40, length := p.mem.nat a 4, count := count
              entries := elements 4 count (p.mem.read (a + 64) (4 * count)) })

/-- A page of a walk: its list entry's place, block, snapshot positions, and the new tokens that fall in it. -/
structure PageVisit where
  index : Nat
  block : Nat
  n : Nat
  fresh : List Nat
  deriving DecidableEq, Repr

/-- The number of new tokens, the overflow token in front (R299). -/
def WalkJob.newTokens (j : WalkJob) : Nat := j.desc.nq + (if j.desc.overflowIn then 1 else 0)

/-- The position of the first query token. -/
def WalkJob.queryBase (j : WalkJob) (s : Snapshot) : Nat := s.length + (if j.desc.overflowIn then 1 else 0)

/-- Every key of a page lies outside every query's window (R282). -/
def WalkJob.outside (j : WalkJob) (s : Snapshot) (v : PageVisit) : Bool :=
  j.desc.window && ((List.range v.n).map (256 * v.block + ·) ++ v.fresh.map (s.length + ·)).all (fun k =>
    (List.range j.desc.nq).all (fun i => decide (k + j.desc.win ≤ j.queryBase s + i)))

/-- The last list entry that a walk takes. -/
def WalkJob.lastEntry (j : WalkJob) (s : Snapshot) : Nat :=
  if j.desc.last = 0xFFFF then s.count else Nat.min (j.desc.last + 1) s.count

/-- The pages that a walk streams, in walk order. -/
def WalkJob.visits (j : WalkJob) (s : Snapshot) : List PageVisit :=
  let steps := (j.lastEntry s - j.desc.first + j.desc.stride - 1) / j.desc.stride
  ((List.range steps).map (fun m =>
    let i := j.desc.first + j.desc.stride * m
    let b := i * s.nshard + s.shard
    let fresh := if j.spills then [] else (List.range j.newTokens).filter (fun t => (s.length + t) / 256 == b)
    ⟨i, b, Nat.min (s.length - 256 * b) 256, fresh⟩)).filter (fun v => !(v.n == 0 && v.fresh.isEmpty) && !(j.outside s v))

/-! ### New tokens (R289, R290) -/

/-- A new token's keys (kind 0) or values (kind 1) of a head, BF16. The overflow token comes from the overflow slot. -/
def Part.newElements (p : Part) (j : WalkJob) (s : Snapshot) (token kind h : Nat) : List Nat :=
  let row := 2 * j.layer.kvh * j.layer.dim
  let own := fun i => j.desc.newkv + (kind * j.desc.nq + i) * row + 2 * h * j.layer.dim
  let held := s.overflow + j.lslot * 64 * ceilDiv (4 * j.layer.kvh * j.layer.dim) 64 + kind * row + 2 * h * j.layer.dim
  let a := if j.desc.overflowIn then (if token = 0 then held else own (token - 1)) else own token
  elements 2 j.layer.dim (p.mem.read a (2 * j.layer.dim))

/-- Whether a new token's source row arrives poisoned. -/
def Part.newPoisoned (p : Part) (j : WalkJob) (s : Snapshot) (token : Nat) : Bool :=
  let row := 2 * j.layer.kvh * j.layer.dim
  if j.desc.overflowIn && token == 0 then
    p.mem.poisoned (s.overflow + j.lslot * 64 * ceilDiv (2 * row) 64) (2 * row)
  else
    let i := if j.desc.overflowIn then token - 1 else token
    p.mem.poisoned (j.desc.newkv + i * row) row || p.mem.poisoned (j.desc.newkv + (j.desc.nq + i) * row) row

/-- The rows of new keys and values, and the overflow slot, that a walk reads (R385). -/
def WalkJob.newRows (j : WalkJob) (s : Snapshot) : List (Nat × Nat) :=
  let row := 2 * j.layer.kvh * j.layer.dim
  [(j.desc.newkv, 2 * j.desc.nq * row)] ++
    (if j.desc.overflowIn then [(s.overflow + j.lslot * 64 * ceilDiv (2 * row) 64, 2 * row)] else [])

/-- An FP32 value from BF16 bits. -/
def bf16F32 (w : Nat) : U32 := BitVec.ofNat 32 (w * 0x10000)

/-- The largest magnitude of new elements; the spec gives none where one is a NaN. -/
def freshMax (l : List Nat) : U32 :=
  let m := l.foldl (fun a w => Nat.max a (w % 2 ^ 15 * 0x10000)) 0
  if 0x7F800000 < m then Config.nanMagnitude m else BitVec.ofNat 32 m

/-- The scale that a page's first tokens set (R289). -/
def firstScale (headroom amax : U32) : U32 :=
  if amax = 0 then oneF32 else BitVec.ofNat 32 (fp32.div ((f32 amax).mul (f32 headroom)) (Fp.ofInt 448))

/-- An element's FP8 code, and whether it saturated (R289, R290). -/
def freshCode (scale : U32) (w : Nat) : Conversion := convertFp e4m3 (fMul (bf16F32 w) (fDiv oneF32 scale))

/-- The scale of a head of a page: the one that stands, or the one that this walk's tokens set. -/
def Part.pageScale (p : Part) (j : WalkJob) (s : Snapshot) (v : PageVisit) (page kind h : Nat) : U32 :=
  let a := page + 0x40 + 0x40 * kind
  if p.mem.valid.contains (a / 64) || v.fresh.isEmpty then BitVec.ofNat 32 (p.mem.nat (a + 4 * h) 4)
  else
    let headroom := if v.fresh.length = 256 then oneF32 else BitVec.ofNat 32 (p.dev.get (pageKv + 0x108))
    firstScale headroom (freshMax (v.fresh.flatMap (fun t => p.newElements j s t kind h)))

/-- A page as the bellows streams it: for each head of the group, its scales, and the keys and values of its tokens with
their positions, in chunks of 16 (R284). -/
structure HeadStream where
  head : Nat
  ks : U32
  vs : U32
  /-- Each token: its position, its keys and its values as FP32. -/
  chunks : List (List (Nat × List U32 × List U32))
  deriving DecidableEq, Repr

/-- FP8 codes as FP32 values. -/
def codesF32 (l : List Nat) : List U32 := l.map (fun c => toF32 (e4m3.decode c))

/-- A head of a page as it streams: the snapshot tokens, then the new ones. -/
def Part.headStream (p : Part) (j : WalkJob) (s : Snapshot) (v : PageVisit) (page h : Nat) : HeadStream :=
  let l := j.layer
  let scale := fun kind => p.pageScale j s v page kind h
  let old := (List.range v.n).map (fun t => (256 * v.block + t,
    codesF32 (elements 1 l.dim (p.mem.read (page + l.keyAt h t) l.dim)),
    codesF32 (elements 1 l.dim (p.mem.read (page + l.valueAt h t) l.dim))))
  let code := fun kind t => codesF32 ((p.newElements j s t kind h).map (fun w => (freshCode (scale kind) w).code))
  let new := v.fresh.map (fun t => (s.length + t, code 0 t, code 1 t))
  ⟨h, fMul (scale 0) l.scale, scale 1, chunks 16 ((v.n + 15) / 16) old ++ chunks 16 ((new.length + 15) / 16) new⟩

/-- The overflow token as its own step attends it (R298). -/
def Part.spillStream (p : Part) (j : WalkJob) (s : Snapshot) (h : Nat) : HeadStream :=
  let e := fun kind => (p.newElements j s 0 kind h).map (fun w => Config.overflowElement (BitVec.ofNat 16 w))
  ⟨h, j.layer.scale, oneF32, [[(s.length, e 0, e 1)]]⟩

/-! ### Attention (R284 to R287) -/

/-- The running maximum, sum and output of one query head. -/
structure Softmax where
  m : U32
  l : U32
  o : List U32
  deriving DecidableEq, Repr

def negInf : U32 := 0xFF800000

/-- The larger of two scores; a NaN spreads. -/
def scoreMax (a b : U32) : U32 :=
  if (f32 a).isNan || (f32 b).isNan then nanF32 else if (f32 a).lt (f32 b) then b else a

/-- One chunk (R284): the scores of its 16 tokens, none where a token is masked. -/
def Softmax.chunk (x : Softmax) (vs : U32) (tokens : List (Option U32 × List U32)) : Softmax :=
  let mc := tokens.foldl (fun m t => match t.1 with
    | some s => scoreMax m s
    | none => m) x.m
  if mc = negInf then x
  else
    let a := fExp (fSub x.m mc)
    let p : List U32 := tokens.map (fun t => match t.1 with
      | some s => fExp (fSub s mc)
      | none => 0)
    let term := fun e => padTo 16 (0 : U32) ((tokens.zip p).map (fun t => match t.1.1 with
      | some _ => fMul t.2 (t.1.2.getD e 0)
      | none => 0))
    { m := mc, l := fAdd (fMul x.l a) (treeSum (padTo 16 0 p))
      o := (x.o.zipIdx 0).map (fun oe => fAdd (fMul oe.1 a) (fMul (treeSum (term oe.2)) vs)) }

/-- The score of a token for a query (R284, R285). -/
def score (w : WalkDesc) (ks : U32) (qpos : Nat) (q : List U32) (t : Nat × List U32 × List U32) : Option U32 :=
  if w.masked qpos t.1 then none else some (fMul (treeSum ((q.zip t.2.1).map (fun e => fMul e.1 e.2))) ks)

/-- One query head over the streams of its KV head. -/
def attend (w : WalkDesc) (dim qpos : Nat) (q : List U32) (streams : List HeadStream) : Softmax :=
  streams.foldl (fun x h => h.chunks.foldl (fun x c => x.chunk h.vs (c.map (fun t => (score w h.ks qpos q t, t.2.2)))) x)
    ⟨negInf, 0, List.replicate dim 0⟩

/-- A query head's output bytes (R286, R287). -/
def Softmax.bytes (x : Softmax) (partials : Bool) : List Byte :=
  if partials then (x.m :: x.l :: x.o).flatMap (fun w => leBytes 4 w.toNat)
  else x.o.flatMap (fun o => leBytes 2 (if (f32 x.l).isZero then 0 else (convertFp bf16 (fDiv o x.l)).code))

/-- The bytes of one query head's output. -/
def WalkJob.headBytes (j : WalkJob) : Nat := if j.desc.partials then 8 + 4 * j.layer.dim else 2 * j.layer.dim

/-- The output of a walk: every query token's query heads. -/
def WalkJob.outBytes (j : WalkJob) : Nat := j.desc.nq * j.queryHeads.length * j.headBytes

/-- The query heads of a walk after every page (readings: log entry 58). -/
def Part.attendAll (p : Part) (j : WalkJob) (s : Snapshot) (streams : List HeadStream) : List Softmax :=
  (List.range j.desc.nq).flatMap (fun i => (j.queryHeads.zipIdx 0).map (fun (hi : Nat × Nat) =>
    let a := j.desc.q + 2 * j.layer.dim * (i * j.queryHeads.length + hi.2)
    let q := (elements 2 j.layer.dim (p.mem.read a (2 * j.layer.dim))).map bf16F32
    attend j.desc j.layer.dim (j.queryBase s + i) q (streams.filter (fun h => h.head == hi.1 / j.layer.gqa))))

/-! ### Counters and events of the bellows page (R308, R313) -/

def Device.bellowsEvent (d : Device) (j : WalkJob) (b status index : Nat) : Device :=
  d.eventSt (pageBellows j.cluster) b status [j.desc.addr % 2 ^ 32, index, j.desc.addr / 2 ^ 32]

/-- Core 0's identity, which a cluster's bellows writes under. -/
def Device.bellowsAgent (d : Device) (k : Nat) : Nat := d.seqAgent (clusterCore k)

/-- A walk that ends on a list check (R282, R297) (readings: log entry 58). -/
def Device.listCheck (d : Device) (j : WalkJob) (index : Nat) : Device :=
  (d.count (pageBellows j.cluster + 0x11C)).bellowsEvent j 0 stListChanged index

/-- The status and page count written into the descriptor (R280) (readings: log entry 58). -/
def Part.endDescriptor (p : Part) (j : WalkJob) (status pages : Nat) : Part :=
  p.patch (j.desc.addr + 0x2C) (leBytes 1 status ++ p.mem.read (j.desc.addr + 0x2D) 1 ++ leBytes 2 pages)

/-- A walk's status kept for the commit (R333). -/
def Device.keepStatus (d : Device) (j : WalkJob) (status : Nat) : Device :=
  let key := 4096 * clusterDie j.cluster + j.entry
  { d with serving := { d.serving with
    walked := smapSet d.serving.walked key (smapGet d.serving.walked [] key ++ [status]) } }

/-- An entry marked dropped in the slot table, counted once (R211, R283) (readings: log entry 58). -/
def Part.dropSlot (p : Part) (die entry : Nat) : Part :=
  let s := p.slotNow die entry
  if bit s.flags 0 then p
  else (p.patch (s.addr + 5) [BitVec.ofNat 8 (s.flags + 1)]).onDev (·.count (pageSrv die + 0x138))

/-- A walk ended with a status other than OK (R283). -/
def Part.endWalk (p : Part) (j : WalkJob) (status pages : Nat) : Part :=
  let p := p.put j.desc.out (List.replicate j.outBytes 0) false (p.dev.bellowsAgent j.cluster)
  let p := (p.endDescriptor j status pages).dropSlot (clusterDie j.cluster) j.entry
  p.onDev (fun d => (d.count (pageBellows j.cluster + 0x104)).keepStatus j status)

/-- A walk ended by a poisoned directory, list or page header, whose request ends at the commit (R283). -/
def Part.endPoisoned (p : Part) (j : WalkJob) (pages : Nat) : Part :=
  (p.endWalk j stPoisoned pages).onDev (fun d => { d with serving := { d.serving with
    broken := setInsert d.serving.broken (4096 * clusterDie j.cluster + j.entry) } })

/-! ### The append (R281, R289, R298) -/

/-- The scale granules that a page's first tokens set. -/
def Part.writeScales (p : Part) (j : WalkJob) (s : Snapshot) (v : PageVisit) (page : Nat) (bad : Bool) : Part :=
  let granule := fun kind => (List.range 16).flatMap (fun h =>
    leBytes 4 (if h < j.layer.kvh then (p.pageScale j s v page kind h).toNat else 0))
  if p.mem.valid.contains ((page + 0x40) / 64) then p
  else (p.writePieces (page + 0x40) (granule 0) (if bad then [0] else [])).writePieces (page + 0x80) (granule 1) (if bad then [0] else [])

/-- One new token of one head written into its page, and the tile sealed behind its last granule (R274) (readings: log entry 58). -/
def Part.appendHead (p : Part) (j : WalkJob) (n page t h : Nat) (tenant : Nat) (kind : Nat) (codes : List Nat) (bad : Bool) : Part :=
  let l := j.layer
  let a := page + (if kind = 0 then l.keyAt h t else l.valueAt h t)
  let p := p.writePieces a (codes.map (BitVec.ofNat 8)) (if bad then List.range (l.dim / 64) else [])
  let perTile := 4096 / l.dim
  if t % perTile = perTile - 1 then
    let base := a + l.dim - 4096
    p.seal base (p.dev.pageTileHeader n base) tenant 2 (p.dev.node + 512 * clusterDie j.cluster)
  else p

/-- The new tokens of a page appended for every KV head (R281, R289) (readings: log entry 58). -/
def Part.appendPage (p : Part) (j : WalkJob) (s : Snapshot) (v : PageVisit) (n : Nat) : Part :=
  let page := p.dev.pageAddr n
  let bad := fun t => p.newPoisoned j s t
  let codes := fun kind h t => (p.newElements j s t kind h).map (freshCode (p.pageScale j s v page kind h))
  let all := v.fresh.flatMap (fun t => (List.range j.layer.kvh).flatMap (fun h => [(t, h, 0, codes 0 h t), (t, h, 1, codes 1 h t)]))
  let sat := sumNat (all.map (fun e => (e.2.2.2.filter (·.saturated)).length))
  let marked := all.map (fun e => (e, bad e.1))
  let p := p.writeScales j s v page (v.fresh.any bad)
  let p := marked.foldl (fun p (e : (Nat × Nat × Nat × List Conversion) × Bool) =>
    p.appendHead j n page ((s.length + e.1.1) % 256) e.1.2.1 s.tenant e.1.2.2.1 (e.1.2.2.2.map (·.code)) e.2) p
  p.onDev (fun d =>
    let d := d.count (pageBellows j.cluster + 0x114) v.fresh.length
    if sat = 0 then d else (d.count (pageBellows j.cluster + 0x118) sat).bellowsEvent j 3 stOk v.index)

/-- The directory's OVF_FULL (R298, R299). -/
def Part.setOverflowFull (p : Part) (dir : Nat) (on : Bool) : Part :=
  let f := p.mem.nat (dir + 5) 1
  p.patch (dir + 5) [BitVec.ofNat 8 (withBits f 3 3 (flag on))]

/-- The overflow token written to its slot, in BF16 (R298). -/
def Part.spill (p : Part) (j : WalkJob) (s : Snapshot) : Part :=
  let row := 2 * j.layer.kvh * j.layer.dim
  let n := 64 * ceilDiv (2 * row) 64
  let data := padTo n 0 (p.mem.read j.desc.newkv row ++ p.mem.read (j.desc.newkv + j.desc.nq * row) row)
  let bad := p.newPoisoned j s 0
  (p.writePieces (s.overflow + j.lslot * n) data (if bad then List.range (n / 64) else [])).setOverflowFull j.desc.dir true

/-! ### The stream of a walk (R282) -/

/-- What a walk has gathered. -/
structure WalkRun where
  streams : List HeadStream := []
  pages : Nat := 0
  bytes : Nat := 0
  /-- The list entry of the first page that poisons the output (R292, R313). -/
  badAt : Option Nat := none
  deriving DecidableEq, Repr

/-- How a page visit ends: with the walk going on, or with its end by a status, or by a poisoned header. -/
inductive PageEnd where
  | goes (r : WalkRun)
  | ends (status : Nat)
  | header
  deriving DecidableEq, Repr

/-- The tiles of a page that hold the keys and values which a walk reads (R274). -/
def WalkJob.tilesRead (j : WalkJob) (page n : Nat) : List Nat :=
  let l := j.layer
  let perTile := 4096 / l.dim
  (l.heads j.group).flatMap (fun h => (List.range (ceilDiv n perTile)).flatMap (fun i =>
    [page + l.keyAt h (i * perTile), page + l.valueAt h (i * perTile)]))

/-- The granules that a walk reads in a page. -/
def WalkJob.granulesRead (j : WalkJob) (page n : Nat) : List Nat :=
  if n = 0 then []
  else (j.layer.heads j.group).flatMap (fun h =>
    granules (page + j.layer.keyAt h 0) (n * j.layer.dim) ++ granules (page + j.layer.valueAt h 0) (n * j.layer.dim))

/-- Every codeword of a page that a walk reads, checked (R385). -/
def Part.touchPage (p : Part) (j : WalkJob) (n : Nat) (v : PageVisit) : Part :=
  let page := p.dev.pageAddr n
  let p := (p.touch page 64).touch (page + 0x40) 128
  let p := (j.tilesRead page v.n).foldl (fun p a => p.touch (p.dev.pageTileHeader n a) 32) p
  (j.layer.heads j.group).foldl (fun p h =>
    (p.touch (page + j.layer.keyAt h 0) (v.n * j.layer.dim)).touch (page + j.layer.valueAt h 0) (v.n * j.layer.dim)) p

/-- One page of a walk (R282) (readings: log entry 58). -/
def Part.visitPage (p : Part) (j : WalkJob) (s : Snapshot) (v : PageVisit) (r : WalkRun) : Part × PageEnd :=
  let e := s.entries.getD v.index 0
  let n := bits e 23 0
  if !(bit e 31) || p.dev.poolBad n then (p.onDev (·.listCheck j v.index), .ends stListChanged)
  else
    let p := p.touchPage j n v
    let page := p.dev.pageAddr n
    if p.arrivesBad page 64 then (p, .header)
    else if p.mem.nat (page + 4) 1 != s.tenant then
      (p.onDev (fun d => (d.count (pageBellows j.cluster + 0x134)).bellowsEvent j 4 stTenant v.index), .ends stTenant)
    else if !(v.fresh.isEmpty) && bit e 28 then
      (p.onDev (fun d =>
        ((d.count (pageBellows j.cluster + 0x12C)).bellowsEvent j 1 stListChanged v.index).listCheck j v.index), .ends stListChanged)
    else if p.mem.poisoned (page + 0x40) 128 then (p, .header)
    else
      let tiles := j.tilesRead page v.n
      let uses := tiles.map (fun a => (a, tileUse p.mem a (p.dev.pageTileHeader n a) s.tenant))
      if uses.any (fun u => u.2.stranger) then
        (p.onDev (fun d => (d.count (pageBellows j.cluster + 0x134)).bellowsEvent j 4 stTenant v.index), .ends stTenant)
      else
        let failed := uses.filter (fun u => u.2.crcFail)
        let p := p.onDev (fun d => failed.foldl (fun d u =>
          ((d.count (pageBellows j.cluster + 0x124)).tileCrcEvent (clusterDie j.cluster) u.1).record (unitBellows j.cluster) 7 stCrcFail
            (pageMem (clusterDie j.cluster))) d)
        let read := j.granulesRead page v.n
        let bad := read.any (fun g => p.mem.poison.contains g || uses.any (fun u => u.2.poison.contains g)) ||
          tiles.any (fun a => p.mem.poisoned (p.dev.pageTileHeader n a) 32) ||
          v.fresh.any (fun t => p.newPoisoned j s t)
        let streams := (j.layer.heads j.group).map (fun h => p.headStream j s v page h)
        let taken := 192 + 2 * j.layer.dim * (v.n + v.fresh.length) * (j.layer.heads j.group).length
        let p := if j.desc.appends && !(v.fresh.isEmpty) then p.appendPage j s v n else p
        (p, .goes { streams := r.streams ++ streams, pages := r.pages + 1, bytes := r.bytes + taken,
                     badAt := r.badAt.or (if bad then some v.index else none) })

/-- The pages of a walk one after another, until one ends it, with what the walk had gathered before that one. -/
def Part.visitAll (j : WalkJob) (s : Snapshot) : List PageVisit → WalkRun → Part → Part × PageEnd × WalkRun
  | [], r, p => (p, .goes r, r)
  | v :: l, r, p =>
    match p.visitPage j s v r with
    | (p, .goes r) => Part.visitAll j s l r p
    | (p, e) => (p, e, r)

/-- The pages that a walk has walked and the bytes that it has taken in, counted (R308). -/
def Device.countIntake (d : Device) (k : Nat) (r : WalkRun) : Device :=
  (d.count (pageBellows k + 0x108) r.pages).count64 (pageBellows k + 0x10C) r.bytes

/-- The overflow token falls to this walk: its block would stand at an entry of the walk (R298). -/
def WalkJob.takesSpill (j : WalkJob) (s : Snapshot) : Bool :=
  let b := s.length / 256
  let i := b / s.nshard
  j.spills && b % s.nshard == s.shard && decide (j.desc.first ≤ i) && (i - j.desc.first) % j.desc.stride == 0 &&
  (j.desc.last == 0xFFFF || decide (i ≤ j.desc.last))

/-- A walk that has streamed its pages: the outputs and the status (R286, R287, R292) (readings: log entry 58). -/
def Part.deliver (p : Part) (j : WalkJob) (s : Snapshot) (r : WalkRun) : Part :=
  let spill := j.takesSpill s
  let streams := r.streams ++ (if spill then (j.layer.heads j.group).map (fun h => p.spillStream j s h) else [])
  let out := p.attendAll j s streams
  let bad := r.badAt.isSome || p.arrivesBad j.desc.q (j.desc.nq * j.queryHeads.length * 2 * j.layer.dim) || (spill && p.newPoisoned j s 0)
  let empty := if j.desc.partials then 0 else (out.filter (fun x => (f32 x.l).isZero)).length
  let p := if spill && j.desc.appends then p.spill j s else p
  let p := if j.desc.overflowIn && j.desc.appends then p.setOverflowFull j.desc.dir false else p
  let p := p.put j.desc.out (out.flatMap (·.bytes j.desc.partials)) bad (p.dev.bellowsAgent j.cluster)
  let p := p.endDescriptor j (if bad then stPoisoned else stOk) r.pages
  p.onDev (fun d =>
    let d := (d.count (pageBellows j.cluster + 0x104)).countIntake j.cluster r
    let d := (d.count (pageBellows j.cluster + 0x130) empty).keepStatus j (if bad then stPoisoned else stOk)
    if bad then (d.count (pageBellows j.cluster + 0x128)).bellowsEvent j 2 stPoisoned (r.badAt.getD 0) else d)

/-- A walk behind its snapshot: its queries and new rows are read (R385), then its pages stream. -/
def Part.streamWalk (p : Part) (j : WalkJob) (s : Snapshot) : Part :=
  let fresh := (j.visits s).any (fun v => !(v.fresh.isEmpty)) || j.takesSpill s
  let p := p.touchAll ((j.desc.q, j.desc.nq * j.queryHeads.length * 2 * j.layer.dim) :: (if fresh then j.newRows s else []))
  match Part.visitAll j s (j.visits s) {} p with
  | (p, .goes r, _) => p.deliver j s r
  | (p, .ends st, r) => (p.onDev (·.countIntake j.cluster r)).endWalk j st r.pages
  | (p, .header, r) => (p.onDev (·.countIntake j.cluster r)).endPoisoned j r.pages

/-! ### Slots beyond the cap (R211) -/

/-- The live entries of an ATTN word from a place on. -/
def Part.liveEntries (p : Part) (die : Nat) (a : AttnWord) (done : Nat) : List Nat :=
  ((List.range (a.count - done)).map (a.first + done + ·)).filter (fun e => decide (e < 4096) && (p.slotNow die e).live)

/-- The slots left out of an ATTN word. -/
def Part.leaveOut (p : Part) (k idx : Nat) (entries : List Nat) : Part :=
  entries.foldl (fun p e => (p.dropSlot (clusterDie k) e).onDev (fun d =>
    (d.count (pageHeat + 0x12C)).seqEvent (clusterCore k) 4 stOk opAttn idx)) p

/-! ### WALK and WALK_RETRY -/

/-- A descriptor that arrives poisoned names no output: the slot is dropped and its request ends. -/
def Part.endPoisonedAt (p : Part) (j : WalkJob) : Part :=
  (p.dropSlot (clusterDie j.cluster) j.entry).onDev (fun d =>
    let d := (d.count (pageBellows j.cluster + 0x104)).keepStatus j stPoisoned
    { d with serving := { d.serving with broken := setInsert d.serving.broken (4096 * clusterDie j.cluster + j.entry) } })

/-- The pages that the words of the heat's class may walk together (R208). -/
def Device.pageBudget (d : Device) (die : Nat) : Nat :=
  match (d.heat.plan.bind (fun q => q.heats[d.heat.prog]?)) with
  | some h => h.attPages.getD (d.cls (128 * die)) 0
  | none => 0xFFFF

/-- A further walk of n pages would pass its word's PAGE_CAP, or the budget of the class (R208, R211). -/
def Device.overCap (d : Device) (k idx cap n : Nat) : Bool :=
  let walked := (d.core (clusterCore k)).attnPages
  decide (cap < smapGet walked 0 idx + n) || decide (d.pageBudget (clusterDie k) < sumNat (walked.map (·.2)) + n)

/-- The pages of a walk charged to its word. -/
def Device.chargePages (d : Device) (k idx n : Nat) : Device :=
  d.onCore (clusterCore k) (fun x => { x with attnPages := smapSet x.attnPages idx (smapGet x.attnPages 0 idx + n) })

/-- The walk of one entry of the word in front: what becomes of the word (readings: log entry 58). -/
def Part.walkEntry (p : Part) (k : Nat) (op : AttnOp) (e : Nat) : Part × AttnOp :=
  let a := attnWord op.word
  let p := p.touchJob k op.word e
  let j := p.walkJob k op.word e
  let next := { op with done := e + 1 - a.first }
  if p.arrivesBad j.slot.walk 64 then (p.endPoisonedAt j, next)
  else
    match p.readList j.desc.dir j.lslot with
    | (p, .ends st) =>
      if st = stPoisoned then (p.endPoisoned j 0, next)
      else ((p.onDev (·.listCheck j 0)).endWalk j st 0, next)
    | (p, .crcFail) =>
      (p.onDev (fun d => (d.listCheck j 0).onCore (clusterCore k) (fun x => { x with retries := x.retries ++ [⟨op.idx, op.word, e⟩] })), next)
    | (p, .ok s) =>
      let n := (j.visits s).length
      if p.dev.overCap k op.idx a.pageCap n then
        (p.leaveOut k op.idx (p.liveEntries (clusterDie k) a (e - a.first)), { next with done := a.count })
      else ((p.onDev (·.chargePages k op.idx n)).streamWalk j s, next)

/-- The ATTN words of a cluster's bellows set. -/
def Device.setAttn (d : Device) (k : Nat) (q : List AttnOp) : Device := d.onCore (clusterCore k) (fun x => { x with attnQ := q })

/-- ATTN (R282): a word that core 0 of a cluster issues enters the bellows' queue of two. -/
def opAttnIssue (c : Nat) (d : Device) : Device :=
  match d.next c (isOp opAttn) with
  | some (i, w, tick, d) =>
    if c % 16 ≠ 0 then d
    else if 3 ≤ (d.core c).attnQ.length then d.dropWord c i tick w
    else d.onCore c (fun x => { x with attnQ := x.attnQ ++ [{ idx := i, word := w }] })
  | none => d

/-- The word in front once its entries before a place are done: gone when no live entry of it is left (R325). -/
def Part.settleWord (p : Part) (k : Nat) (op : AttnOp) (rest : List AttnOp) : Part :=
  let left := p.liveEntries (clusterDie k) (attnWord op.word) op.done
  p.onDev (·.setAttn k (if left.isEmpty then rest else op :: rest))

/-- WALK: the next walk of the word in front (R282). A maintenance heat walks no slot (R216). -/
def opWalk (k : Nat) (errors : EccFaults) (p : Part) : Part :=
  let p := p.onMem (·.arise errors)
  match (p.dev.core (clusterCore k)).attnQ with
  | [] => p
  | op :: rest =>
    if p.dev.heat.kind = 1 then p.onDev (·.setAttn k rest)
    else
      match p.liveEntries (clusterDie k) (attnWord op.word) op.done with
      | [] => p.onDev (·.setAttn k rest)
      | e :: _ =>
        let r := p.walkEntry k op e
        r.1.settleWord k r.2 rest

/-- The latency of a DRAM read of a die from a die, in ticks (R23). -/
def dramLatency (die a : Nat) : Nat :=
  let there := memDie a
  if there = die ∨ 4 ≤ there then 120 else if there + die = 3 then 240 else 180

/-- Whether a walk ends within a number of ticks (R288). -/
def Part.walkFits (p : Part) (j : WalkJob) (s : Snapshot) (left : Nat) : Bool :=
  let f := coreClock p.dev.perfLevel
  let heads := (j.layer.heads j.group).length
  let vs := j.visits s
  let tokens := sumNat (vs.map (fun v => v.n + v.fresh.length)) * heads
  let bytes := 192 * vs.length + 2 * j.layer.dim * tokens
  let queries := j.layer.gqa * j.desc.nq
  let added := if j.desc.appends then sumNat (vs.map (fun v => v.fresh.length)) * 2 * j.layer.kvh * j.layer.dim else 0
  let die := clusterDie j.cluster
  let page := match vs.head? with
    | some v => p.dev.pageAddr (bits (s.entries.getD v.index 0) 23 0)
    | none => j.desc.dir
  let reads := dramLatency die j.desc.dir + dramLatency die (listPointer p.mem j.desc.dir j.lslot % 2 ^ 40) + dramLatency die page
  let stream := Nat.max (144 * bytes) (Nat.max (9 * 2 * j.layer.dim * tokens * queries) (1000 * tokens * queries))
  decide (640 * f * reads + stream + 144 * added + 6144000 ≤ 640 * f * left)

/-- A retried walk, and how it ends (R297); one that would pass the cap is left out (R208, R211) (readings: log entry 58). -/
def Part.retryWalk (p : Part) (k : Nat) (r : WalkRetry) (left : Nat) : Part :=
  let p := p.touchJob k r.word r.entry
  let j := p.walkJob k r.word r.entry
  let repeated := fun (p : Part) => p.onDev (·.count (pageBellows k + 0x120))
  match p.readList j.desc.dir j.lslot with
  | (p, .ends st) => if st = stPoisoned then (repeated p).endPoisoned j 0 else (repeated p).endWalk j st 0
  | (p, .crcFail) => (repeated p).endWalk j stListChanged 0
  | (p, .ok s) =>
    let n := (j.visits s).length
    if p.dev.overCap k r.idx (attnWord r.word).pageCap n then p.leaveOut k r.idx [r.entry]
    else if p.walkFits j s left then (repeated (p.onDev (·.chargePages k r.idx n))).streamWalk j s
    else p.endWalk j stListChanged 0

/-- WALK_RETRY (R297): in the reheat window of the cluster's core 0; behind the window, or at the end of a heat without
one, the walk ends. -/
def opWalkRetry (k : Nat) (p : Part) : Part :=
  let c := clusterCore k
  match (p.dev.core c).retries with
  | [] => p
  | r :: rest =>
    let p' := p.onDev (·.onCore c (fun x => { x with retries := rest }))
    match (p.dev.core c).window with
    | some w => p'.retryWalk k r (w.endTick - p.dev.tick (clusterDie k))
    | none => if (p.dev.core c).bound then p'.endWalk (p.walkJob k r.word r.entry) stListChanged 0 else p

def execAttn (c : Core) (s : State) : Host.Outcome State Fault Refusal := s.onDev (opAttnIssue c.val)
def execWalk (k : Cluster) (errors : EccFaults) (s : State) : Host.Outcome State Fault Refusal := s.onPart (opWalk k.val errors)
def execWalkRetry (k : Cluster) (s : State) : Host.Outcome State Fault Refusal := s.onPart (opWalkRetry k.val)

end Sys2Proof.Machine
end

