-- ==== Sys2Proof/Machine/KvStore.lean ====
section
/-! DEFINITION. The page store as the die control processors keep it: grants, page lists and their versions, copies, and the
prefix tree (R275 to R279, R293 to R306). -/

namespace Sys2Proof.Machine

/-! ### Access to the serving state -/

def Device.onServing (d : Device) (f : Serving → Serving) : Device := { d with serving := f d.serving }
def Device.sequence (d : Device) (k : Nat) : Option Sequence := smapFind d.serving.seqs k
def Device.setSequence (d : Device) (k : Nat) (x : Sequence) : Device := d.onServing (fun s => { s with seqs := smapSet s.seqs k x })
def Device.onSequence (d : Device) (k : Nat) (f : Sequence → Sequence) : Device :=
  match d.sequence k with
  | some x => d.setSequence k (f x)
  | none => d
def Device.dieServing (d : Device) (die : Nat) : DieServing := smapGet d.serving.dies {} die
def Device.onDie (d : Device) (die : Nat) (f : DieServing → DieServing) : Device :=
  d.onServing (fun s => { s with dies := smapSet s.dies die (f (d.dieServing die)) })

/-- Free memory offered to a die control processor. -/
def Device.addSpace (d : Device) (die : Nat) (l : List Nat) : Device := d.onDie die (fun x => { x with space := x.space ++ l })

/-- BELLOWS_EPOCH (R296). -/
def Device.epoch (d : Device) : Nat := d.get64 (pageKv + 0x120)

/-! ### Events of the page-store and KV store pages (R313) -/

def Device.pageStoreEvent (d : Device) (die b seqId pool : Nat) (status : Nat := stOk) : Device :=
  d.eventSt (pagePst die) b status [seqId, pool]
def Device.kvEvent (d : Device) (b index : Nat) (digest : List Byte) : Device :=
  d.eventSt pageKv b stOk [index, leNat (digest.take 4)]

/-! ### Pages held and free (R279, R296, R306) -/

/-- One more holder of a page. -/
def Device.holdPage (d : Device) (n : Nat) : Device :=
  d.onServing (fun s => { s with refs := smapSet s.refs n (smapGet s.refs 0 n + 1) })

/-- One holder less: a page without any waits for its epoch (R296). -/
def Device.dropPage (d : Device) (n : Nat) : Device :=
  let r := smapGet d.serving.refs 0 n
  let d' := d.onServing (fun s => { s with refs := smapSet s.refs n (r - 1) })
  if r ≤ 1 then d'.onServing (fun s => { s with retired := s.retired ++ [(n, d.epoch)] }) else d'

/-- The pages of a pool that are held or wait for their epoch. -/
def Device.heldIn (d : Device) (die pool : Nat) : List Nat :=
  (d.serving.refs.map (·.1)).filter (fun n => pageDieOf n == die && pagePool n == pool)

/-- POOL_FREE (R309). -/
def Device.poolFree (d : Device) (die pool : Nat) : Nat :=
  if d.poolOn die pool then d.poolPages die pool - (d.heldIn die pool).length else 0

/-- POOL_LOW (R309). -/
def Device.poolLow (d : Device) (die : Nat) : Nat := d.get (pagePst die + 0x150)

/-- A retired page freed (R296) (readings: log entry 59). -/
def Device.freePage (d : Device) (n : Nat) : Device :=
  (d.onServing (fun s => { s with refs := smapErase s.refs n, remote := setErase s.remote n })).count (pagePst (pageDieOf n) + 0x168)

/-- The pages freed at a commit: those retired two epochs ago or more (R296) (readings: log entry 59). -/
def Device.freeRetired (d : Device) : Device :=
  let due := d.serving.retired.filter (fun r => decide (r.2 + 2 ≤ d.epoch))
  due.foldl (fun d r => d.freePage r.1)
    (d.onServing (fun s => { s with retired := s.retired.filter (fun r => !(decide (r.2 + 2 ≤ d.epoch))) }))

/-- The free pages of a die in its fitting pools (R270, R279) (readings: log entry 59). -/
def Device.freePages (d : Device) (footprint die : Nat) : List Nat :=
  (List.range 4).flatMap (fun p =>
    if d.poolOn die p && decide (footprint ≤ d.poolGranule die p) then
      ((List.range (d.poolPages die p)).map (pageNumber die p)).filter (fun n => (smapFind d.serving.refs n).isNone)
    else [])

/-- The free pages that may serve an allocation die (R279): those of another die only when that die has none that fits (readings: log entry 59). -/
def Device.pagesFor (d : Device) (footprint alloc : Nat) : List Nat :=
  match d.freePages footprint alloc with
  | [] => ((List.range 4).filter (· != alloc)).flatMap (d.freePages footprint)
  | l => l

/-- A page drawn for an allocation die (R279): which of the free ones the spec leaves open (readings: log entry 59). -/
def Device.drawPage (d : Device) (alloc footprint seqId : Nat) : Option (Nat × Device) :=
  let l := d.pagesFor footprint alloc
  match l[Config.pageChoice d.free l.length % l.length]? with
  | none => none
  | some n =>
    let d := d.drawn
    let die := pageDieOf n
    let before := d.poolFree die (pagePool n)
    let d := d.holdPage n
    let d := if die = alloc then d
      else (d.onServing (fun s => { s with remote := setInsert s.remote n })).pageStoreEvent die 2 seqId (pagePool n)
    some (n, if decide (d.poolLow die ≤ before) && decide (before ≤ d.poolLow die) then d.pageStoreEvent die 1 seqId (pagePool n) else d)

/-! ### Lists (R277, R278, R294, R295) -/

/-- The entries that a shard's list needs for a number of positions of the whole sequence (R278). -/
def Sequence.entriesFor (x : Sequence) (positions : Nat) : Nat :=
  let blocks := ceilDiv positions 256
  if blocks ≤ x.shard then 0 else (blocks - x.shard + x.nshard - 1) / x.nshard

/-- The global block of an entry. -/
def Sequence.blockOf (x : Sequence) (i : Nat) : Nat := i * x.nshard + x.shard

/-- The allocation die of an entry (R279) (readings: log entry 59). -/
def Sequence.allocDie (x : Sequence) (i : Nat) : Nat := if x.striped then i % 4 else x.die

/-- The sequence with a list changed. -/
def Sequence.onList (x : Sequence) (s : Nat) (f : SeqList → SeqList) : Sequence := { x with lists := listModify x.lists s f }

/-- The planned entries of a layer slot. -/
def Sequence.planned (x : Sequence) (s : Nat) : List Nat := ((x.lists[s]?).map (·.ents)).getD []

/-- A list entry of a page (R277). -/
def listEntry (page : Nat) (shared : Bool) : Nat := 2 ^ 31 + (if shared then 2 ^ 28 else 0) + page

/-- A list of a sequence grown by a number of entries, each with a page granted, as far as CAP (R277, R298). -/
def Device.growList (footprint k s : Nat) : Nat → Device → Option Device
  | 0, d => some d
  | n + 1, d =>
    match d.sequence k with
    | none => none
    | some x =>
      let i := (x.planned s).length
      if 16384 ≤ i then none else
      match d.drawPage (x.allocDie i) footprint x.seqId with
      | none => none
      | some (page, d) =>
        Device.growList footprint k s n (d.onSequence k (fun x =>
          { x.onList s (fun l => { l with ents := l.ents ++ [listEntry page false] }) with
            grants := x.grants ++ [⟨page, s, x.blockOf i⟩] }))

/-- Every list of a sequence grown to hold a number of positions, or nothing where a page is missing (R298). -/
def Part.growTo (p : Part) (k positions : Nat) : Option Device :=
  match p.dev.sequence k with
  | none => none
  | some x => (List.range x.lists.length).foldl (fun (acc : Option Device) s =>
      acc.bind (Device.growList (p.layerSlot s).footprint k s (x.entriesFor positions - (x.planned s).length))) (some p.dev)

/-- A list cut to a number of entries: a grant that has not taken effect goes back at once. -/
def Device.cutList (d : Device) (k s n : Nat) : Device :=
  match d.sequence k with
  | none => d
  | some x =>
    let gone := ((x.planned s).drop n).map (fun e => bits e 23 0)
    let back := x.grants.filter (fun g => g.lslot == s && gone.contains g.page)
    let d := d.setSequence k { x.onList s (fun l => { l with ents := l.ents.take n }) with
      grants := x.grants.filter (fun g => !(back.contains g)) }
    back.foldl (fun d g => d.dropPage g.page) d

/-- Every list of a sequence cut to the entries of a number of positions (R346). -/
def Device.cutTo (d : Device) (k positions : Nat) : Device :=
  match d.sequence k with
  | none => d
  | some x => (List.range x.lists.length).foldl (fun d s =>
      if x.entriesFor positions < (x.planned s).length then d.cutList k s (x.entriesFor positions) else d) d

/-- The granule that a grant writes at the front of a page (R273). -/
def pageHeader (l : LayerSlot) (x : Sequence) (flags lslot block : Nat) : List Byte :=
  let dcode := if l.dim = 64 then 0 else if l.dim = 128 then 1 else 2
  padTo 64 0 (leBytes 2 1 ++ leBytes 1 l.kvh ++ leBytes 1 dcode ++ leBytes 1 x.tenant ++ leBytes 1 flags ++ leBytes 1 lslot ++
    leBytes 1 0 ++ leBytes 4 x.seqId ++ leBytes 4 block ++ leBytes 4 x.modelGen)

/-- A page's payload and tile headers made invalid (R275, R394). -/
def Part.clearPage (p : Part) (n : Nat) : Part :=
  let a := p.dev.pageAddr n
  let size := p.dev.poolGranule (pageDieOf n) (pagePool n)
  let h := p.dev.pageTileHeader n a
  (p.onMem (·.clear (a / 64) ((a + size) / 64))).onMem (·.clear (h / 64) ((h + size / 128) / 64))

/-- A VM_CLEAR of the die control processor, as the memory page shows it when it is done (R393, R394, R416); the range of
one that the firmware has in progress stays shown. -/
def Device.showClear (d : Device) (die a bytes : Nat) : Device :=
  let page := pageMem die
  let d := if (smapGet d.mems {} die).clears != [] then d
    else ((d.set (page + 0x148) (a % 2 ^ 32)).set (page + 0x14C) (a / 2 ^ 32 + (bytes / 64 - 1) * 0x1000)).set (page + 0x150) (2 ^ 31)
  d.event page 7 (7 * 0x100 + memUnit a * 0x10000) [a % 2 ^ 32, a / 2 ^ 32]

/-- The two VM_CLEAR commands of a page's grant: its payload, then its tile headers (R394). -/
def Device.showClears (d : Device) (n : Nat) : Device :=
  let a := d.pageAddr n
  let size := d.poolGranule (pageDieOf n) (pagePool n)
  let h := d.pageTileHeader n a
  (d.showClear (pageDieOf n) a size).showClear (pageDieOf n) h (size / 128)

/-- A grant takes effect (R199, R275, R394). -/
def Part.applyGrant (p : Part) (x : Sequence) (g : Grant) : Part :=
  let p := (p.clearPage g.page).onDev (·.showClears g.page)
  let p := p.writePieces (p.dev.pageAddr g.page) (pageHeader (p.layerSlot g.lslot) x 0 g.lslot g.block) []
  p.onDev (fun d =>
    let die := pageDieOf g.page
    let d := d.count (pagePst die + 0x164)
    if d.serving.remote.contains g.page then d.count (pagePst die + 0x158) else d)

/-- A list header (R277). -/
def listHeader (x : Sequence) (s gen length : Nat) (ents : List Nat) : List Byte :=
  let body := ents.flatMap (leBytes 4)
  padTo 64 0 (leBytes 4 length ++ leBytes 4 gen ++ leBytes 4 ents.length ++ leBytes 4 (crc32c body) ++ leBytes 4 16384 ++
    leBytes 4 x.seqId ++ leBytes 1 s)

/-- A list written where it stands: the entries, then the header (R294). -/
def Part.writeList (p : Part) (x : Sequence) (s addr gen length : Nat) (ents : List Nat) : Part :=
  let body := ents.flatMap (leBytes 4)
  (p.writePieces (addr + 64) (padTo (granuleUp body.length) 0 body) []).writePieces addr (listHeader x s gen length ents) []

/-- The list pointer of a layer slot rewritten with its directory granule (R276, R295). -/
def Part.writePointer (p : Part) (x : Sequence) (s addr : Nat) : Part := p.patch (x.dir + 64 + 8 * s) (leBytes 8 (2 ^ 63 + addr))

/-- The directory header written, OVF_FULL as it stands (R276, R298). -/
def Part.writeDirectory (p : Part) (x : Sequence) : Part :=
  let full := bit (p.mem.nat (x.dir + 5) 1) 3
  let flags := flag x.striped + 2 * flag x.starved + 4 * flag x.oldGen + 8 * flag full
  p.writePieces x.dir (padTo 64 0 (leBytes 4 x.seqId ++ leBytes 1 x.tenant ++ leBytes 1 flags ++ leBytes 1 x.lists.length ++
    leBytes 1 x.die ++ leBytes 4 x.modelGen ++ leBytes 1 x.shard ++ leBytes 1 x.nshard ++ leBytes 2 0 ++ leBytes 8 x.ovf)) []

/-- Whether a list is a longer form of another (R294). -/
def extends_ (old new : List Nat) : Bool := new.take old.length == old

/-- One list published at a commit: in place, or as a new version in free memory (R294, R295). Pages that the new version
leaves out are retired. -/
def Part.publishList (p : Part) (k s length : Nat) : Part :=
  match p.dev.sequence k with
  | none => p
  | some x =>
    match x.lists[s]? with
    | none => p
    | some l =>
      if extends_ l.pub l.ents then
        if l.pub = l.ents ∧ length = x.length then p
        else (p.writeList x s l.addr l.gen length l.ents).onDev (·.onSequence k (·.onList s (fun l => { l with pub := l.ents })))
      else
        match (p.dev.dieServing x.die).space with
        | [] => p
        | a :: rest =>
          let p := (p.writeList x s a (l.gen + 1) length l.ents).writePointer x s a
          p.onDev (fun d =>
            let d := (d.onDie x.die (fun y => { y with space := rest })).count (pagePst x.die + 0x170)
            let d := d.onSequence k (·.onList s (fun l => { l with addr := a, gen := l.gen + 1, pub := l.ents }))
            let now := l.ents.map (fun e => bits e 23 0)
            ((l.pub.map (fun e => bits e 23 0)).filter (fun n => !(now.contains n))).foldl (fun d n => d.dropPage n) d)

/-- A sequence's grants and lists take effect at a commit (R199) (readings: log entry 59). -/
def Part.publish (p : Part) (k length : Nat) : Part :=
  match p.dev.sequence k with
  | none => p
  | some x =>
    let p := x.grants.foldl (fun p g => p.applyGrant x g) p
    let p := p.onDev (·.onSequence k (fun x => { x with grants := [] }))
    let p := (List.range x.lists.length).foldl (fun p s => p.publishList k s length) p
    (p.onDev (·.onSequence k (fun x => { x with length := length }))).writeDirectory x

/-! ### Sequences -/

/-- A sequence created with its directory, its overflow region and an empty list for each layer slot, in free memory of its
die; nothing where that memory does not suffice (R276, R298) (readings: log entry 59). -/
def Part.newSequence (p : Part) (k : Nat) (x : Sequence) : Option Part :=
  let n := p.layerSlots
  match (p.dev.dieServing x.die).space with
  | dir :: ovf :: rest =>
    if rest.length < n then none
    else
      let x := { x with dir := dir, ovf := ovf, lists := (rest.take n).map (fun a => ⟨a, 1, [], []⟩) }
      let p := p.onDev (fun d => (d.onDie x.die (fun y => { y with space := rest.drop n })).setSequence k x)
      let p := (p.writePieces dir (List.replicate 64 0) []).writeDirectory x
      let p := p.writePieces (dir + 64) (List.replicate 1024 0) []
      some ((List.range n).foldl (fun p s =>
        (p.writeList x s (rest.getD s 0) 1 0 []).writePointer x s (rest.getD s 0)) p)
  | _ => none

/-! ### The prefix tree (R301 to R306) -/

def Device.pfxOn (d : Device) : Bool := bit (d.get (pageKv + 0x118)) 31
def Device.pfxSize (d : Device) : Nat := 2 ^ bits (d.get (pageKv + 0x118)) 4 0
def Device.pfxEntry (d : Device) (i : Nat) : Nat := d.get64 (pageKv + 0x110) % 2 ^ 40 + 64 * i

/-- A tenant's scope key (R571): zeros where none is installed. -/
def Device.scopeKey (d : Device) (tenant : Nat) : List Byte := smapGet d.sec.keys (List.replicate 32 0) (256 + tenant)

/-- The digests of the whole blocks of a prompt (R301). -/
def digestChain (key : List Byte) (gen : Nat) : List Byte → List (List Byte) → List (List Byte)
  | _, [] => []
  | prev, tokens :: l =>
    let x := (sha256 (key ++ leBytes 4 gen ++ prev ++ tokens)).take 16
    x :: digestChain key gen x l

/-- The 8 entries in which a digest is sought (R303). -/
def Device.pfxPlaces (d : Device) (digest : List Byte) : List Nat :=
  (List.range 8).map (fun i => (leNat digest % d.pfxSize + i) % d.pfxSize)

/-- A prefix-table entry that may be read: a poisoned one counts as a miss and is never evicted (R403). -/
def Part.pfxSound (p : Part) (i : Nat) : Bool := !(p.mem.poisoned (p.dev.pfxEntry i) 64)

def Part.pfxState (p : Part) (i : Nat) : Nat := p.mem.nat (p.dev.pfxEntry i + 0x11) 1
def Part.pfxRefs (p : Part) (i : Nat) : Nat := p.mem.nat (p.dev.pfxEntry i + 0x18) 4
def Part.pfxUse (p : Part) (i : Nat) : Nat := p.mem.nat (p.dev.pfxEntry i + 0x20) 8
def Part.pfxGen (p : Part) (i : Nat) : Nat := p.mem.nat (p.dev.pfxEntry i + 0x14) 4

/-- The valid entry of a digest, tenant and generation (readings: log entry 59). -/
def Part.pfxFind (p : Part) (digest : List Byte) (tenant gen : Nat) : Option Nat :=
  (p.dev.pfxPlaces digest).find? (fun i =>
    let a := p.dev.pfxEntry i
    p.pfxSound i && p.pfxState i == 1 && p.mem.read a 16 == digest && p.mem.nat (a + 0x10) 1 == tenant && p.pfxGen i == gen)

/-- The token identifiers that a page-set record stores. -/
def Part.setTokens (p : Part) (i : Nat) : List Byte := p.mem.read (p.mem.nat (p.dev.pfxEntry i + 0x28) 8 % 2 ^ 40 + 0x200) 1024

/-- The pages of a block entered as shared, in every list that holds one (R300, R304). -/
def Sequence.share (x : Sequence) (page : Nat) : Sequence :=
  { x with lists := x.lists.map (fun l => { l with ents := l.ents.map (fun e => if bits e 23 0 = page then withBits e 28 28 1 else e) }) }

/-- A hit on an own entry (R304). -/
def Part.pfxHit (p : Part) (k i : Nat) : Part :=
  let a := p.dev.pfxEntry i
  let pages := smapGet p.dev.serving.sets [] i
  let p := (p.patch (a + 0x18) (leBytes 4 (p.pfxRefs i + 1))).patch (a + 0x20) (leBytes 8 p.dev.now)
  p.onDev (fun d =>
    let d := pages.foldl (fun d n => d.holdPage n) (d.count (pageKv + 0x130))
    let d := d.onServing (fun s => { s with seqs := s.seqs.map (fun e => (e.1, pages.foldl (fun x n => x.share n) e.2)) })
    d.onSequence k (fun x => { x with
      tree := x.tree ++ [i]
      lists := (x.lists.zip pages).map (fun e => { e.1 with ents := e.1.ents ++ [listEntry e.2 true] }) }))

/-- What a holding module reads of a block from the home module: its digest and its tokens (R302) (readings: log entry 59). -/
def Device.remoteBlock (d : Device) : List Byte × List Byte :=
  ((List.range 16).map (fun i => Config.remoteByte d.free i), (List.range 1024).map (fun i => Config.remoteByte d.free (16 + i)))

/-- The lookup of a block that another module's shard holds, in that module's table (R305, R307): whether it hits is free
(readings: log entry 59). -/
def Device.remoteLookup (d : Device) : Bool × Device := (Config.remoteHit d.free, d.drawn)

/-- The lookups of a prompt's blocks in increasing order, as far as the first miss (R305), and the number of hits. The chain
and the blocks' tokens are given; each module seeks the blocks of its own shard (R307) (readings: log entry 59). -/
def Part.lookups (p : Part) (k tenant gen hits : Nat) : List (List Byte × List Byte × Nat) → Part × Nat
  | [] => (p, hits)
  | (digest, tokens, b) :: l =>
    match p.dev.sequence k with
    | none => (p, hits)
    | some x =>
      if b % x.nshard ≠ x.shard then
        let r := p.dev.remoteLookup
        if r.1 then ({ p with dev := r.2 } : Part).lookups k tenant gen (hits + 1) l else ({ p with dev := r.2 }, hits)
      else
        let p := (p.onDev (·.count (pageKv + 0x12C))).touchAll ((p.dev.pfxPlaces digest).map (fun i => (p.dev.pfxEntry i, 64)))
        match p.pfxFind digest tenant gen with
        | none => (p, hits)
        | some i =>
          let p := p.touch (p.mem.nat (p.dev.pfxEntry i + 0x28) 8 % 2 ^ 40) 0x600
          if p.mem.poisoned (p.mem.nat (p.dev.pfxEntry i + 0x28) 8 % 2 ^ 40) 0x600 then (p, hits)
          else if p.setTokens i != tokens then
            (p.onDev (fun d => ((d.count (pageKv + 0x134)).kvEvent 0 i digest).onSequence k (fun x =>
              { x with collided := x.collided ++ [b] })), hits)
          else (p.pfxHit k i).lookups k tenant gen (hits + 1) l

/-- An entry removed from the tree and its pages dropped (R306). -/
def Part.pfxRemove (p : Part) (i : Nat) : Part :=
  let pages := smapGet p.dev.serving.sets [] i
  let p := p.patch (p.dev.pfxEntry i + 0x11) [2]
  p.onDev (fun d =>
    let d := (d.count (pageKv + 0x144)).onServing (fun s => { s with sets := smapErase s.sets i })
    pages.foldl (fun d n => d.dropPage n) (d.set (pageKv + 0x128) (d.get (pageKv + 0x128) - 1)))

/-- The entry with REFS zero and the oldest LAST_USE among some. -/
def Part.pfxOldest (p : Part) (places : List Nat) : Option Nat :=
  (places.filter (fun i => p.pfxSound i && p.pfxState i == 1 && p.pfxRefs i == 0)).foldl (fun best i => match best with
    | none => some i
    | some j => if p.pfxUse i < p.pfxUse j then some i else some j) none

/-- The pages of a block in every layer slot of a sequence. -/
def Sequence.blockPages (x : Sequence) (b : Nat) : List Nat :=
  x.lists.map (fun l => bits (l.ents.getD (b / x.nshard) 0) 23 0)

/-- A block written into an entry of the table, with its page-set record (R303, R306). -/
def Part.pfxWrite (p : Part) (k i b set : Nat) (digest tokens : List Byte) : Part :=
  match p.dev.sequence k with
  | none => p
  | some x =>
    let pages := x.blockPages b
    let a := p.dev.pfxEntry i
    let p := p.writePieces set (padTo 0x200 0 (pages.flatMap (leBytes 4)) ++ padTo 0x400 0 tokens) []
    let p := p.writePieces a (digest ++ padTo 48 0 (leBytes 1 x.tenant ++ [1] ++ leBytes 1 pages.length ++ [0] ++
      leBytes 4 x.modelGen ++ leBytes 4 1 ++ leBytes 4 b ++ leBytes 8 p.dev.now ++ leBytes 8 set)) []
    let p := pages.foldl (fun p n =>
      let f := p.dev.pageAddr n + 5
      p.patch f [BitVec.ofNat 8 (withBits (p.mem.nat f 1) 0 0 1)]) p
    p.onDev (fun d =>
      let d := pages.foldl (fun d n => d.holdPage n) ((d.count (pageKv + 0x138)).set (pageKv + 0x128) (d.get (pageKv + 0x128) + 1))
      (d.onServing (fun s => { s with sets := smapSet s.sets i pages })).onSequence k (fun x => { x with tree := x.tree ++ [i] }))

/-- Where a block goes in the table: the first empty or removed of its 8 entries, else the one with REFS zero and the oldest
LAST_USE, which is to be evicted (R306). -/
def Part.pfxPlace (p : Part) (digest : List Byte) : Option (Nat × Bool) :=
  let places := p.dev.pfxPlaces digest
  match places.find? (fun i => p.pfxSound i && p.pfxState i != 1) with
  | some i => some (i, false)
  | none => (p.pfxOldest places).map (·, true)

/-- The insertion of a block of a prompt (R306) (readings: log entry 59). -/
def Part.pfxInsert (p : Part) (k b : Nat) (digest tokens : List Byte) : Part :=
  match p.dev.sequence k with
  | none => p
  | some x =>
    if x.collided.contains b || !p.dev.pfxOn then p
    else if (p.pfxFind digest x.tenant x.modelGen).isSome then p.onDev (·.count (pageKv + 0x13C))
    else
      match p.pfxPlace digest with
      | none => p.onDev (fun d => (d.count (pageKv + 0x140)).kvEvent 1 ((d.pfxPlaces digest).headD 0) digest)
      | some (i, evicts) =>
        match (p.dev.dieServing x.die).space with
        | [] => p
        | set :: rest =>
          let p := p.onDev (·.onDie x.die (fun y => { y with space := rest }))
          (if evicts then p.pfxRemove i else p).pfxWrite k i b set digest tokens

/-- The pages of a pool that wait for their epoch. -/
def Device.waitingIn (d : Device) (die pool : Nat) : Nat :=
  (d.serving.retired.filter (fun r => pageDieOf r.1 == die && pagePool r.1 == pool)).length

/-- Entries evicted, oldest first, while a pool's free pages and those that the evictions give stay below its watermark
(R306). The number of pages that waited before is given. -/
def Part.evictFor (die pool waited : Nat) : Nat → Part → Part
  | 0, p => p
  | n + 1, p =>
    if p.dev.poolLow die ≤ p.dev.poolFree die pool + (p.dev.waitingIn die pool - waited) || !(p.dev.poolOn die pool) then p
    else match p.pfxOldest (p.dev.serving.sets.map (·.1)) with
      | some i => Part.evictFor die pool waited n (p.pfxRemove i)
      | none => p

/-- Every pool below its watermark served by evictions (R306) (readings: log entry 59). -/
def Part.evictLow (p : Part) : Part :=
  (List.range 16).foldl (fun p i =>
    Part.evictFor (i / 4) (i % 4) (p.dev.waitingIn (i / 4) (i % 4)) p.dev.serving.sets.length p) p

/-- One sequence less on a prefix entry; an old-generation entry goes when none is left (R306). -/
def Part.pfxRelease (p : Part) (i : Nat) : Part :=
  if !(p.pfxSound i) then p
  else
    let r := p.pfxRefs i
    let p := p.patch (p.dev.pfxEntry i + 0x18) (leBytes 4 (r - 1))
    if r ≤ 1 && p.pfxState i == 1 && p.pfxGen i != p.dev.get (pageBlt + 0x100) then p.pfxRemove i else p

/-- Old-generation entries without holders removed when the generation changes (R306). -/
def Part.pfxNewGeneration (p : Part) : Part :=
  (p.dev.serving.sets.map (·.1)).foldl (fun p i =>
    if p.pfxSound i && p.pfxRefs i == 0 && p.pfxGen i != p.dev.get (pageBlt + 0x100) then p.pfxRemove i else p) p

/-- The pages and prefix entries of a sequence dropped (R306, R332). -/
def Part.dropSequence (p : Part) (k : Nat) : Part :=
  match p.dev.sequence k with
  | none => p
  | some x =>
    let pages := (x.lists.flatMap (fun l => l.pub ++ l.ents.filter (fun e => !(l.pub.any (fun o => bits o 23 0 == bits e 23 0))))).map (fun e => bits e 23 0)
    let p := x.tree.foldl (fun p i => p.pfxRelease i) p
    p.onDev (fun d =>
      let copies := (d.dieServing x.die).copies.filter (fun c => c.seq == k)
      let d := (pages ++ copies.map (·.target)).foldl (fun d n => d.dropPage n) d
      let d := d.onDie x.die (fun y => { y with copies := y.copies.filter (fun c => c.seq != k) })
      d.onServing (fun s => { s with seqs := smapErase s.seqs k, starved := setErase s.starved k }))

/-! ### Copies (R300) -/

/-- The valid positions of a page within a sequence. -/
def Sequence.validIn (x : Sequence) (index : Nat) : Nat := Nat.min (x.length - 256 * x.blockOf index) 256

/-- Granules copied with their poison marks. -/
def Part.copyGranules (p : Part) (src dst n : Nat) : Part :=
  p.writePieces dst (p.mem.read src (64 * n)) ((List.range n).filter (fun i => p.mem.poison.contains (src / 64 + i)))

/-- The content of a page copied: header, scales, and the keys and values of its valid positions, with their poison marks;
then COPIED is set in the copy (R300). -/
def Part.copyPage (p : Part) (x : Sequence) (c : PageCopy) : Part :=
  let l := p.layerSlot c.lslot
  let src := p.dev.pageAddr c.source
  let dst := p.dev.pageAddr c.target
  let n := x.validIn c.index
  let p := (p.applyGrant x ⟨c.target, c.lslot, x.blockOf c.index⟩).copyGranules src dst 3
  let p := p.patch (dst + 5) [BitVec.ofNat 8 (withBits (p.mem.nat (dst + 5) 1) 1 1 1)]
  (List.range l.kvh).foldl (fun p h =>
    (p.copyGranules (src + l.keyAt h 0) (dst + l.keyAt h 0) (n * l.dim / 64)).copyGranules (src + l.valueAt h 0)
      (dst + l.valueAt h 0) (n * l.dim / 64)) p

/-- COW_COPY_DONE: the oldest copy of the die is complete; the next commit publishes the version that names it (R300). -/
def opCowCopyDone (die : Nat) (space : List Nat) (p : Part) : Part :=
  let p := p.onDev (·.addSpace die space)
  match (p.dev.dieServing die).copies with
  | [] => p
  | c :: rest =>
    let p := p.onDev (·.onDie die (fun y => { y with copies := rest }))
    match p.dev.sequence c.seq with
    | none => p.onDev (·.dropPage c.target)
    | some x =>
      (p.copyPage x c).onDev (fun d =>
        (d.onSequence c.seq (·.onList c.lslot (fun l => { l with ents := listSet l.ents c.index (listEntry c.target false) }))).count
          (pagePst die + 0x16C))

def execCowCopyDone (d : Die) (space : List Addr) (s : State) : Host.Outcome State Fault Refusal :=
  s.onPart (opCowCopyDone d.val (space.map (·.toNat)))

end Sys2Proof.Machine
end

