-- ==== Sys2Proof/Machine/Tenants.lean ====
section
/-! DEFINITION. Where a tenant may read and write (R316, R567, R568). -/

namespace Sys2Proof.Machine

/-- The base of the request records and the address of one (R314). -/
def Device.recBase (d : Device) : Nat := d.get64 (pageAdp + 0x100) % 2 ^ 40
def Device.recAddr (d : Device) (r : Nat) : Nat := d.recBase + 320 * r

/-- A tenant's entry of the tenant serving table (R316). -/
def Device.tenSrv (d : Device) (t : Nat) : Nat := d.get64 (pageAdp + 0x108) % 2 ^ 40 + 16 * t

/-- The first record and the number of records of a tenant. -/
def Part.recRange (p : Part) (t : Nat) : Nat × Nat := (p.mem.nat (p.dev.tenSrv t) 2, p.mem.nat (p.dev.tenSrv t + 2) 2)

/-- A write of a session, or a frame with its tenant tag, noted beside the records that it reaches (R318); a writer without a
tenant leaves none. -/
def Device.noteWriter (d : Device) (tenant a n : Nat) : Device :=
  let last := Nat.min 8191 ((a + n - 1 - d.recBase) / 320)
  let first := (a - d.recBase) / 320
  if a + n ≤ d.recBase ∨ n = 0 then d
  else (List.range (last + 1 - first)).foldl (fun d i =>
    let r := first + i
    { d with serving := { d.serving with
        writers := if tenant < 64 then smapSet d.serving.writers r tenant else smapErase d.serving.writers r } }) d

/-- Whether a range lies in one region of a tenant (R567); a write needs one that is not read-only. -/
def Device.inRegion (d : Device) (tenant a n : Nat) (write : Bool) : Bool :=
  (List.range 128).any (fun i =>
    let b := d.get (pageTen + 0x100 + 8 * i)
    let s := d.get (pageTen + 0x104 + 8 * i)
    bit b 31 && bits b 29 24 == tenant && !(write && bit b 30) &&
    decide (bits b 22 0 * 0x10000 ≤ a) && decide (a + n ≤ (bits b 22 0 + bits s 22 0) * 0x10000))

/-- Whether a range lies in the tenant's own records; a write only in granules 0 to 2 of one record (R568). -/
def Part.inRecords (p : Part) (tenant a n : Nat) (write : Bool) : Bool :=
  let (first, count) := p.recRange tenant
  let lo := p.dev.recAddr first
  decide (lo ≤ a) && decide (a + n ≤ lo + 320 * count) && (!write || decide ((a - lo) % 320 + n ≤ 192))

/-- Whether an access with a tenant tag passes (R568) (readings: log entry 50). -/
def Part.tenantMay (p : Part) (tenant a n : Nat) (write : Bool) : Bool :=
  p.dev.inRegion tenant a n write || p.inRecords tenant a n write

/-- A refused access counted on the tenant page (R568, R575, R577). -/
def Device.tenantRefused (d : Device) (tenant a : Nat) : Device :=
  (d.count (pageTen + 0x540)).eventSt pageTen 1 stTenant [tenant, a % 2 ^ 32]

end Sys2Proof.Machine
end

