-- ==== Sys2Proof/Machine/Requests.lean ====
section
/-! DEFINITION. Request records: submission, acceptance and refusal, adapters and grammars, and the end of a request (R314 to
R319, R338 to R343, R569). -/

namespace Sys2Proof.Machine

def Device.request (d : Device) (r : Nat) : Option Request := smapFind d.serving.reqs r
def Device.setRequest (d : Device) (r : Nat) (q : Request) : Device := d.onServing (fun s => { s with reqs := smapSet s.reqs r q })
def Device.onRequest (d : Device) (r : Nat) (f : Request → Request) : Device :=
  match d.request r with
  | some q => d.setRequest r (f q)
  | none => d

/-- The die whose control processor owns a record (R314), and that processor's identity (R226). -/
def recordDie (r : Nat) : Nat := r / 2048
def Device.dieAgent (d : Device) (die : Nat) : Nat := agentId d.node 1 die

/-! ### Fields of granules 0 and 1 (R315) -/

abbrev RecCopy := List Byte
def rcReqId (c : RecCopy) : Nat := field c 0x00 4
def rcTenant (c : RecCopy) : Nat := field c 0x04 1
def rcKind (c : RecCopy) : Nat := field c 0x06 1
def rcRank (c : RecCopy) : Nat := field c 0x07 1
def rcAdapter (c : RecCopy) : Nat := field c 0x08 4
def rcPromptLen (c : RecCopy) : Nat := field c 0x0C 4
def rcPrompt (c : RecCopy) : Nat := field c 0x10 8
def rcOut (c : RecCopy) : Nat := field c 0x18 8
def rcOutCap (c : RecCopy) : Nat := field c 0x20 4
def rcMaxNew (c : RecCopy) : Nat := field c 0x24 4
def rcTtft (c : RecCopy) : Nat := field c 0x28 4
def rcTbt (c : RecCopy) : Nat := field c 0x2C 4
def rcDoneObj (c : RecCopy) : Nat := field c 0x30 2
def rcDraftMax (c : RecCopy) : Nat := field c 0x32 1
def rcGrammarId (c : RecCopy) : Nat := field c 0x33 1
def rcTemp (c : RecCopy) : U32 := BitVec.ofNat 32 (field c 0x40 4)
def rcTopP (c : RecCopy) : U32 := BitVec.ofNat 32 (field c 0x44 4)
def rcTopK (c : RecCopy) : Nat := field c 0x48 2
def rcMaskKind (c : RecCopy) : Nat := field c 0x4A 1
def rcGrammar (c : RecCopy) : Nat := field c 0x4C 2
def rcMaskN (c : RecCopy) : Nat := field c 0x4E 2
def rcMask (c : RecCopy) : Nat := field c 0x50 8
def rcSeed (c : RecCopy) : Nat := field c 0x58 8
def rcGstart (c : RecCopy) : Nat := field c 0x60 4
def rcStop (c : RecCopy) : List Nat := (List.range 4).map (fun i => field c (0x64 + 4 * i) 4)
def rcHash (c : RecCopy) : List Byte := (c.drop 0x40).take 32

/-! ### The record's granules in memory -/

/-- Granule 2 of a request (R315). -/
def Request.granule (q : Request) (starved : Bool) : List Byte :=
  let mflags := flag q.oldGen + 2 * flag q.ttftMiss + 4 * flag q.tbtMiss + 8 * flag starved
  padTo 64 0 (leBytes 1 q.state ++ leBytes 1 q.status ++ leBytes 1 q.endReason ++ leBytes 1 mflags ++ leBytes 4 q.seqId ++
    leBytes 4 q.emitted ++ leBytes 4 q.modelGen ++ leBytes 8 q.tArrive ++ leBytes 8 q.tFirst ++ leBytes 8 q.tLast ++
    leBytes 4 q.maxGap ++ leBytes 2 q.adpSlot ++ leBytes 2 0 ++ leBytes 4 q.draftProp ++ leBytes 4 q.draftAcc ++ leBytes 4 q.gstate)

/-- Whether the sequence of a record is starved. -/
def Device.isStarved (d : Device) (r : Nat) : Bool := ((d.sequence r).map (·.starved)).getD false

/-- A request shown in its record (R314). -/
def Part.writeRequest (p : Part) (r : Nat) (q : Request) : Part :=
  p.writePieces (p.dev.recAddr r + 0x80) (q.granule (p.dev.isStarved r)) []

/-- A request changed and shown. -/
def Part.updateRequest (p : Part) (r : Nat) (f : Request → Request) : Part :=
  match p.dev.request r with
  | some q => (p.onDev (·.setRequest r (f q))).writeRequest r (f q)
  | none => p

/-- An event of the serving or the adapter page about a record (R351). -/
def Device.recordEvent (d : Device) (page b status r reqId : Nat) : Device := d.eventSt page b status [r, reqId]

/-- The signal to a record's DONE_OBJ (readings: log entry 60). -/
def Device.signalDone (d : Device) (r : Nat) (c : RecCopy) : Device := d.sendSignals [.add (rcDoneObj c) 1 (d.dieAgent (recordDie r))]

/-! ### Refusal and end -/

/-- A record refused at acceptance (R318), with a signal to DONE_OBJ; one that arrived poisoned names no object (R403)
(readings: log entry 60). -/
def Part.refuseRecord (p : Part) (r tenant tArrive status : Nat) (c : RecCopy) : Part :=
  let die := recordDie r
  let q : Request := { copy := c, tenant := tenant, state := 6, status := status, endReason := 7, tArrive := tArrive }
  (p.writeRequest r q).onDev (fun d =>
    let d := d.onDie die (fun y => { y with found := y.found.filter (fun f => f.1 != r) })
    let d := (d.count (pageSrv die + 0x128)).recordEvent (pageSrv die) 2 status r (rcReqId c)
    if status = stPoisoned then d else d.signalDone r c)

/-- An adapter slot's entry (R341). -/
def Device.adpEntry (d : Device) (s : Nat) : Nat := d.get64 (pageAdp + 0x110) % 2 ^ 40 + 64 * s
def Part.adpState (p : Part) (s : Nat) : Nat := p.mem.nat (p.dev.adpEntry s + 8) 1
def Part.adpRefs (p : Part) (s : Nat) : Nat := p.mem.nat (p.dev.adpEntry s + 12) 4
def Part.adpIs (p : Part) (s ident tenant : Nat) : Bool :=
  p.mem.nat (p.dev.adpEntry s) 4 == ident && p.mem.nat (p.dev.adpEntry s + 9) 1 == tenant
def Part.setAdpRefs (p : Part) (s n : Nat) : Part := p.patch (p.dev.adpEntry s + 12) (leBytes 4 n)

/-- ADP_READY and ADP_RETIRING count the slots of a state (R349). -/
def Device.bumpAdp (d : Device) (state : Nat) (up : Bool) : Device :=
  let r := pageAdp + (if state = 2 then 0x130 else 0x134)
  if state = 2 ∨ state = 3 then d.set r (if up then d.get r + 1 else d.get r - 1) else d

/-- An adapter slot brought to a state. -/
def Part.setAdpState (p : Part) (s st : Nat) : Part :=
  let old := p.adpState s
  (p.patch (p.dev.adpEntry s + 8) (leBytes 1 st)).onDev (fun d => (d.bumpAdp old false).bumpAdp st true)

/-- A slot freed (R342, R343). -/
def Part.freeAdapter (p : Part) (s : Nat) : Part :=
  let p := p.setAdpState s 0
  p.writePieces (p.dev.adpEntry s) (List.replicate 64 0) []

/-- A request ends (R332): its record shows it, the sequence and the adapter reference are dropped, and DONE_OBJ is
signalled. -/
def Part.endRequest (p : Part) (r reason status : Nat) : Part :=
  match p.dev.request r with
  | none => p
  | some q =>
    let q := { q with state := 6, status := status, endReason := reason }
    let p := (p.writeRequest r q).dropSequence r
    let p := if q.adpSlot = 0xFFFF then p else p.setAdpRefs q.adpSlot (p.adpRefs q.adpSlot - 1)
    p.onDev (fun d =>
      let d := (d.onServing (fun s => { s with reqs := smapErase s.reqs r })).count (pageSrv (recordDie r) + 0x12C)
      d.signalDone r q.copy)

/-! ### Submission (R317) -/

/-- The tenant whose submission counter an object is (R316). -/
def Part.submitTenant (p : Part) (o : Nat) : Option Nat :=
  (List.range 64).find? (fun t => p.mem.nat (p.dev.tenSrv t + 4) 2 == o && (p.recRange t).2 != 0)

/-- Whether a tenant is enabled (R316). -/
def Part.tenantOn (p : Part) (t : Nat) : Bool := bit (p.mem.nat (p.dev.tenSrv t + 10) 1) 0

/-! ### The checks of acceptance (R318, R569) -/

/-- The bytes of a record's mask. -/
def Device.maskLen (d : Device) (c : RecCopy) : Nat :=
  if rcMaskKind c = 1 then ceilDiv (d.get (pageAdp + 0x12C)) 8 else if rcMaskKind c = 2 then 4 * rcMaskN c else 0

/-- The tenant owns what the record names. -/
def Part.recordOwned (p : Part) (r t : Nat) (c : RecCopy) : Bool :=
  let d := p.dev
  rcTenant c == t && ((smapFind d.serving.writers r).getD t) == rcTenant c && d.tenantOf (rcDoneObj c) == some t && p.tenantOn t &&
  (if rcKind c = 0 then
    d.inRegion t (rcPrompt c) (4 * rcPromptLen c) false && d.inRegion t (rcOut c) (4 * rcOutCap c) true &&
    (d.maskLen c == 0 || d.inRegion t (rcMask c) (d.maskLen c) false)
  else if rcKind c = 1 ∨ rcKind c = 3 then d.inRegion t (rcPrompt c) (64 * rcPromptLen c) false
  else true)

/-- Every field lies in its range (R315, R318) (readings: log entry 60). -/
def recordFieldsOk (d : Device) (c : RecCopy) : Bool :=
  let temp := f32 (rcTemp c)
  let topP := f32 (rcTopP c)
  rcOut c % 64 == 0 && rcOutCap c % 16 == 0 && decide (rcDraftMax c ≤ 8) &&
  (if rcKind c = 0 then
    decide (1 ≤ rcPromptLen c) && decide (rcPromptLen c ≤ 4194304) &&
    decide (1 ≤ rcMaxNew c) && decide (rcMaxNew c + 8 ≤ rcOutCap c) &&
    !(temp.isNan) && !(temp.lt (.fin false 0 0)) && (Fp.fin false 0 0).lt topP && !((Fp.ofInt 1).lt topP) &&
    decide (rcTopK c ≤ 1024) && decide (rcMaskKind c ≤ 2) && (decide (rcGrammar c < 256) || rcGrammar c == 0xFFFF) &&
    (rcMaskKind c != 2 || (decide (1 ≤ rcMaskN c) && decide (rcMaskN c ≤ 4096)))
  else if rcKind c = 1 then
    decide (1 ≤ rcRank c) && decide (rcRank c ≤ 64) && decide (rcPromptLen c ≤ 1024 * bits (d.get (pageAdp + 0x120)) 15 0)
  else true)

/-- The ready slot of an identity (R343). -/
def Part.readySlot (p : Part) (ident tenant : Nat) : Option Nat :=
  (List.range 1024).find? (fun s => p.adpState s == 2 && p.adpIs s ident tenant)

/-- A grammar directory entry (R338). -/
def Device.grmEntry (d : Device) (g : Nat) : Nat := d.get64 (pageAdp + 0x124) % 2 ^ 40 + 16 * g
def Part.grammarOf (p : Part) (g tenant : Nat) : Bool :=
  p.mem.nat (p.dev.grmEntry g + 13) 1 == 1 && p.mem.nat (p.dev.grmEntry g + 12) 1 == tenant

/-- The status of a refusal, none where the record is accepted (R318, R403) (readings: log entry 60). -/
def Part.recordProblem (p : Part) (r t : Nat) (c : RecCopy) : Option Nat :=
  if p.mem.poisoned (p.dev.recAddr r) 128 then some stPoisoned
  else if !(p.recordOwned r t c) then some stTenant
  else if !(recordFieldsOk p.dev c) then some stOk
  else if rcKind c = 0 ∧ ((rcAdapter c ≠ 0 ∧ (p.readySlot (rcAdapter c) t).isNone) ∨
      (rcGrammar c ≠ 0xFFFF ∧ !(p.grammarOf (rcGrammar c) t))) then some stOk
  else none

/-- A record found in STATE 1: taken up, or refused when it cannot be read or names no kind (R15, R318, R403) (readings: log entry 60). -/
def Part.findRecord (p : Part) (r tenant tArrive : Nat) : Part :=
  let a := p.dev.recAddr r
  let p := p.touch a 128
  let c := p.mem.read a 128
  if p.mem.poisoned a 128 then p.refuseRecord r tenant tArrive stPoisoned c
  else if 4 < rcKind c then p.refuseRecord r tenant tArrive (if p.recordOwned r tenant c then stOk else stTenant) c
  else p.onDev (·.onDie (recordDie r) (fun y => { y with found := y.found ++ [(r, tenant, tArrive)] }))

/-- SUBMIT_NOTIFY (R317) (readings: log entry 60). -/
def opSubmitNotify (die o : Nat) (p : Part) : Part :=
  let p := p.onDev (·.onSync (fun s => { s with notify := dropFirst (fun n => n == (die, o)) s.notify }))
  let p := p.touch (p.dev.tenSrv 0) 1024
  match p.submitTenant o with
  | none => p
  | some t =>
    let arrive := (((smapFind p.dev.sync.objs o).bind (·.lastSig)).map (·.2)).getD 0
    let (first, count) := p.recRange t
    ((List.range count).map (first + ·)).foldl (fun p r =>
      let p := if r < 8192 && recordDie r == die then p.touch (p.dev.recAddr r + 0x80) 64 else p
      if r < 8192 && recordDie r == die && p.mem.nat (p.dev.recAddr r + 0x80) 1 == 1 && (p.dev.request r).isNone &&
        !((p.dev.dieServing die).found.any (fun f => f.1 == r)) then p.findRecord r t arrive else p) p

/-- What an acceptance reads (R385): the record, its tenant's entry, the adapter table and the directory entry of its grammar. -/
def Part.touchRecord (p : Part) (r : Nat) : Part :=
  let p := p.touch (p.dev.recAddr r) 128
  let c := p.mem.read (p.dev.recAddr r) 128
  p.touchAll ([(p.dev.tenSrv (rcTenant c), 16)] ++ (if rcKind c ≤ 2 then [(p.dev.adpEntry 0, 65536)] else []) ++
    (if rcGrammar c < 256 then [(p.dev.grmEntry (rcGrammar c), 16)] else []))

/-- A found record of a kind: its tenant, arrival and granules 0 and 1. -/
def Part.foundRecord (p : Part) (r kind : Nat) : Option (Nat × Nat × RecCopy) :=
  match (p.dev.dieServing (recordDie r)).found.find? (fun f => f.1 == r) with
  | none => none
  | some f =>
    let c := p.mem.read (p.dev.recAddr r) 128
    if rcKind c = kind then some (f.2.1, f.2.2, c) else none

/-- A record accepted (R319). -/
def Part.acceptRecord (p : Part) (r tenant tArrive : Nat) (c : RecCopy) (f : Request → Request) : Part :=
  let die := recordDie r
  let q : Request := f { copy := c, tenant := tenant, state := 2, tArrive := tArrive, modelGen := p.dev.get (pageBlt + 0x100) }
  let p := p.writePieces (p.dev.recAddr r + 0xC0) (List.replicate 128 0) []
  (p.writeRequest r q).onDev (fun d =>
    (d.onDie die (fun y => { y with found := y.found.filter (fun e => e.1 != r) })).setRequest r q |>.count (pageSrv die + 0x124))

/-! ### Generate records (R319) -/

/-- The whole blocks of a prompt, with their numbers. -/
def promptBlocks (m : Memory) (c : RecCopy) : List (List Byte × Nat) :=
  (List.range (rcPromptLen c / 256)).map (fun b => (m.read (rcPrompt c + 1024 * b) 1024, b))

/-- The SEQ_ID of a new sequence (R319): one that no sequence has (readings: log entry 59). -/
def Device.newSeqId (d : Device) : Nat :=
  (freshFrom (Config.seqIdChoice d.free).toNat (2 ^ 32) (d.serving.seqs.map (·.2.seqId))).getD 0

/-- The digest chain of a prompt written beside the record, in free memory (R302) (readings: log entry 59). -/
def Part.writeChain (p : Part) (die : Nat) (chain : List (List Byte)) : Option Part :=
  if chain = [] then some p else
  match (p.dev.dieServing die).space with
  | [] => none
  | a :: rest =>
    let body := chain.flatten
    some ((p.onDev (·.onDie die (fun y => { y with space := rest }))).writePieces a (padTo (granuleUp body.length) 0 body) [])

/-- GENERATE_RECORD. Nothing happens while the free memory offered does not hold the new sequence (readings: log entry 60). -/
def opGenerateRecord (r : Nat) (space : List Nat) (p : Part) : Part :=
  let die := recordDie r
  let p := (p.onDev (·.addSpace die space)).touchRecord r
  match p.foundRecord r 0 with
  | none => p
  | some (t, arrive, c) =>
    match p.recordProblem r t c with
    | some st => p.refuseRecord r t arrive st c
    | none =>
      let p := p.touch (rcPrompt c) (4 * rcPromptLen c)
      let d := p.dev
      let nshard := bits (d.get (pageKv + 0x10C)) 4 0
      let gen := d.get (pageBlt + 0x100)
      let blocks := promptBlocks p.mem c
      let chain := digestChain (d.scopeKey t) gen (List.replicate 16 0) (blocks.map (·.1))
      let slot := if rcAdapter c = 0 then 0xFFFF else (p.readySlot (rcAdapter c) t).getD 0xFFFF
      let x : Sequence :=
        { seqId := d.newSeqId, tenant := t, die := die, dir := 0, ovf := 0, striped := decide (1 < nshard), modelGen := gen
          shard := d.node % 16 % nshard, nshard := nshard, digests := chain }
      match (p.newSequence r x).bind (·.writeChain die chain) with
      | none => p
      | some p =>
        let p := p.acceptRecord r t arrive c (fun q => { q with
          seqId := x.seqId, adpSlot := slot, gstate := rcGstart c, draftNext := rcDraftMax c })
        let p := p.onDev (·.drawn)
        let p := if slot = 0xFFFF then p else p.setAdpRefs slot (p.adpRefs slot + 1)
        let (p, hits) := if p.dev.pfxOn then p.lookups r t gen 0 ((chain.zip blocks).map (fun e => (e.1, e.2.1, e.2.2))) else (p, 0)
        let p := if rcPromptLen c ≤ 256 * hits then p.onDev (·.onRequest r (fun q => { q with state := 4 })) else p
        p.publish r (256 * hits)

/-! ### Adapter records (R341 to R343) -/

/-- Slots that a tenant holds, ready or loading. -/
def Part.adaptersHeld (p : Part) (t : Nat) : Nat :=
  ((List.range 1024).filter (fun s => (p.adpState s == 1 || p.adpState s == 2) && p.mem.nat (p.dev.adpEntry s + 9) 1 == t)).length

/-- A load failed or refused (R349). -/
def Device.adapterFailed (d : Device) (r status : Nat) (c : RecCopy) : Device :=
  (d.count (pageAdp + 0x13C)).recordEvent pageAdp 1 status r (rcReqId c)

/-- A waiting load takes the lowest free slot (R342). -/
def Part.startLoad (p : Part) (r : Nat) : Part :=
  match p.dev.request r, (List.range 1024).find? (fun s => p.adpState s == 0) with
  | some q, some s =>
    let key := rcAdapter q.copy
    let gen := smapGet p.dev.serving.adpGens 0 key + 1
    let e := leBytes 4 (rcAdapter q.copy) ++ leBytes 4 gen ++ [1] ++ leBytes 1 q.tenant ++ leBytes 1 (rcRank q.copy) ++ [0] ++ leBytes 4 0 ++
      leBytes 8 (rcPrompt q.copy) ++ leBytes 4 (rcPromptLen q.copy) ++ leBytes 4 0
    (p.writePieces (p.dev.adpEntry s) (padTo 32 0 e ++ padTo 32 0 (rcHash q.copy)) []).onDev (·.onServing (fun v => { v with
      adpGens := smapSet v.adpGens key gen, loads := v.loads ++ [(r, s)] }))
  | _, _ => p

/-- ADAPTER_LOAD_RECORD: accepted or refused, or tried again while it waits for a slot (readings: log entry 61). -/
def opAdapterLoadRecord (r : Nat) (p : Part) : Part :=
  let p := p.touchRecord r
  match p.foundRecord r 1 with
  | none =>
    match p.dev.request r with
    | some q => if rcKind q.copy = 1 && !(p.dev.serving.loads.any (fun l => l.1 == r)) && !(p.dev.serving.ready.any (fun l => l.1 == r))
        then p.startLoad r else p
    | none => p
  | some (t, arrive, c) =>
    match p.recordProblem r t c with
    | some st => (p.refuseRecord r t arrive st c).onDev (·.adapterFailed r st c)
    | none =>
      if p.mem.nat (p.dev.tenSrv t + 8) 2 ≤ p.adaptersHeld t then
        (p.refuseRecord r t arrive stTenant c).onDev (·.adapterFailed r stTenant c)
      else (p.acceptRecord r t arrive c id).startLoad r

/-- The tiles of an adapter image of a length in granules (R395). -/
def imageTiles (len : Nat) : Nat := 64 * len / 4128

/-- An adapter image's tiles as their consumer finds them (R400). -/
def imageUse (m : Memory) (a len tenant : Nat) : List TileUse :=
  (List.range (imageTiles len)).map (fun i => tileUse m (a + 4096 * i) (a + 4096 * imageTiles len + 32 * i) tenant)

/-- Where a slot keeps its image (R341). -/
def Device.adpImage (d : Device) (s : Nat) : Nat :=
  d.get64 (pageAdp + 0x118) % 2 ^ 40 + s * 0x10000 * bits (d.get (pageAdp + 0x120)) 15 0

/-- ADAPTER_LOAD_DONE (R342) (readings: log entry 61). -/
def opAdapterLoadDone (r : Nat) (p : Part) : Part :=
  match p.dev.serving.loads.find? (fun l => l.1 == r), p.dev.request r with
  | some (_, s), some q =>
    let p := p.onDev (·.onServing (fun v => { v with loads := v.loads.filter (fun l => l.1 != r) }))
    let len := rcPromptLen q.copy
    let src := rcPrompt q.copy
    let p := p.touch src (64 * len)
    let uses := imageUse p.mem src len q.tenant
    let failed := (uses.filter (·.crcFail)).length
    let p := p.onDev (fun d => (List.range failed).foldl (fun d _ => d.tileCrcEvent (recordDie r) src) d)
    let status := if uses.any (·.stranger) then stTenant
      else if failed != 0 || sha256 (p.mem.read src (64 * len)) != rcHash q.copy then stCrcFail else stOk
    let p := p.copyGranules src (p.dev.adpImage s) len
    if status = stOk then p.onDev (·.onServing (fun v => { v with ready := v.ready ++ [(r, s)] }))
    else ((p.freeAdapter s).onDev (·.adapterFailed r status q.copy)).endRequest r 6 status
  | _, _ => p

/-- Adapter slots at a commit (R342, R343): loads become ready, older ready slots of the identity retire, retiring slots
without a binding are freed, and waiting loads take the free slots (readings: log entry 61). -/
def Part.commitAdapters (p : Part) : Part :=
  let ready := p.dev.serving.ready
  let p := p.onDev (·.onServing (fun v => { v with ready := [] }))
  let p := ready.foldl (fun p l =>
    match p.dev.request l.1 with
    | none => p
    | some q =>
      let old := (List.range 1024).filter (fun s => p.adpState s == 2 && p.adpIs s (rcAdapter q.copy) q.tenant)
      let p := (old.foldl (fun p s => p.setAdpState s 3) p).setAdpState l.2 2
      (p.onDev (fun d => (d.count (pageAdp + 0x138)).recordEvent pageAdp 0 stOk l.1 (rcReqId q.copy))).endRequest l.1 8 stOk) p
  let p := ((List.range 1024).filter (fun s => p.adpState s == 3 && p.adpRefs s == 0)).foldl (fun p s => p.freeAdapter s) p
  (p.dev.serving.reqs.filter (fun e => rcKind e.2.copy == 1 && !(p.dev.serving.loads.any (fun l => l.1 == e.1)))).foldl
    (fun p e => p.startLoad e.1) p

/-- A control record that is accepted and completes at once (END_REASON 8). -/
def Part.completeRecord (p : Part) (r t arrive : Nat) (c : RecCopy) : Part := (p.acceptRecord r t arrive c id).endRequest r 8 stOk

/-- ADAPTER_RETIRE_RECORD (R343) (readings: log entry 61). -/
def opAdapterRetireRecord (r : Nat) (p : Part) : Part :=
  let p := p.touchRecord r
  match p.foundRecord r 2 with
  | none => p
  | some (t, arrive, c) =>
    match p.recordProblem r t c with
    | some st => p.refuseRecord r t arrive st c
    | none =>
      let slots := (List.range 1024).filter (fun s => p.adpState s == 2 && p.adpIs s (rcAdapter c) t)
      (slots.foldl (fun p s => p.setAdpState s 3) p).completeRecord r t arrive c

/-! ### Grammar records (R338) -/

/-- A directory entry set or cleared, with GRM_INSTALLED. -/
def Part.setGrammar (p : Part) (g : Nat) (e : List Byte) : Part :=
  let a := p.dev.grmEntry g
  let was := p.mem.nat (a + 13) 1
  let now := field e 13 1
  (p.patch a e).onDev (fun d => d.set (pageAdp + 0x140) (d.get (pageAdp + 0x140) + now - was))

/-- GRAMMAR_INSTALL_RECORD (readings: log entry 61). -/
def opGrammarInstallRecord (r : Nat) (p : Part) : Part :=
  let p := p.touchRecord r
  match p.foundRecord r 3 with
  | none => p
  | some (t, arrive, c) =>
    match p.recordProblem r t c with
    | some st => p.refuseRecord r t arrive st c
    | none =>
      let p := p.touch (rcPrompt c) 64
      let e := leBytes 8 (rcPrompt c) ++ leBytes 4 (p.mem.nat (rcPrompt c + 4) 4) ++ leBytes 1 t ++ [1, 0, 0]
      (p.setGrammar (rcGrammarId c) e).completeRecord r t arrive c

/-- A table in use by a record in STATE 2 to 5. -/
def Device.grammarUsed (d : Device) (g : Nat) : Bool := d.serving.reqs.any (fun e => rcKind e.2.copy == 0 && rcGrammar e.2.copy == g)

/-- The removal of a table, once no record uses it. -/
def Part.removeGrammar (p : Part) (r : Nat) : Part :=
  match p.dev.request r with
  | some q =>
    if rcKind q.copy != 4 || p.dev.grammarUsed (rcGrammarId q.copy) then p
    else (p.setGrammar (rcGrammarId q.copy) (List.replicate 16 0)).endRequest r 8 stOk
  | none => p

/-- GRAMMAR_REMOVE_RECORD: accepted or refused, or tried again while it waits (readings: log entry 61). -/
def opGrammarRemoveRecord (r : Nat) (p : Part) : Part :=
  let p := p.touchRecord r
  match p.foundRecord r 4 with
  | none => p.removeGrammar r
  | some (t, arrive, c) =>
    match p.recordProblem r t c with
    | some st => p.refuseRecord r t arrive st c
    | none => (p.acceptRecord r t arrive c id).removeGrammar r

def execSubmitNotify (d : Die) (o : Obj) (s : State) : Host.Outcome State Fault Refusal := s.onPart (opSubmitNotify d.val o.val)
def execGenerateRecord (r : RecIx) (space : List Addr) (s : State) : Host.Outcome State Fault Refusal :=
  s.onPart (opGenerateRecord r.val (space.map (·.toNat)))
def execAdapterLoadRecord (r : RecIx) (s : State) : Host.Outcome State Fault Refusal := s.onPart (opAdapterLoadRecord r.val)
def execAdapterLoadDone (r : RecIx) (s : State) : Host.Outcome State Fault Refusal := s.onPart (opAdapterLoadDone r.val)
def execAdapterRetireRecord (r : RecIx) (s : State) : Host.Outcome State Fault Refusal := s.onPart (opAdapterRetireRecord r.val)
def execGrammarInstallRecord (r : RecIx) (s : State) : Host.Outcome State Fault Refusal := s.onPart (opGrammarInstallRecord r.val)
def execGrammarRemoveRecord (r : RecIx) (s : State) : Host.Outcome State Fault Refusal := s.onPart (opGrammarRemoveRecord r.val)

end Sys2Proof.Machine
end

