-- ==== Sys2Proof/Machine/Sampler.lean ====
section
/-! DEFINITION. The sampler: masks, grammar states, the draw, and the check of drafts (R334 to R340, R345). -/

namespace Sys2Proof.Machine

/-! ### Masks and grammar tables (R336, R338 to R340) -/

/-- A bitmap or list mask in memory. -/
inductive TokenMask where
  | all
  | bitmap (a : Nat)
  | list (tokens : List Nat)
  deriving DecidableEq, Repr

/-- A list mask. -/
def readList4 (m : Memory) (a n : Nat) : List Nat := elements 4 n (m.read a (4 * n))

/-- Whether a mask allows a token. -/
def TokenMask.allows (k : TokenMask) (m : Memory) (t : Nat) : Bool :=
  match k with
  | .all => true
  | .bitmap a => bit (m.byte (a + t / 8)).toNat (t % 8)
  | .list l => l.contains t

/-- The record's mask. -/
def recordMask (m : Memory) (c : RecCopy) : TokenMask :=
  if rcMaskKind c = 1 then .bitmap (rcMask c) else if rcMaskKind c = 2 then .list (readList4 m (rcMask c) (rcMaskN c)) else .all

/-- A state row of a grammar table (R339). -/
structure StateRow where
  mask : TokenMask
  accepts : Bool
  next : List (Nat × Nat)
  deflt : Nat
  deriving DecidableEq, Repr

/-- A state row read from a table. -/
def stateRow (m : Memory) (base s : Nat) : StateRow :=
  let a := base + 64 + 16 * s
  let mask := base + 64 * m.nat a 4
  let row := base + 64 * m.nat (a + 8) 4
  { mask := if m.nat (a + 4) 2 = 0 then .bitmap mask else .list (readList4 m mask (m.nat (a + 4) 2))
    accepts := bit (m.nat (a + 6) 1) 0
    next := (List.range (m.nat (a + 12) 2)).map (fun i => (m.nat (row + 8 * i) 4, m.nat (row + 8 * i + 4) 2))
    deflt := m.nat (a + 14) 2 }

/-- The grammar table of a record. -/
def Part.grammarBase (p : Part) (c : RecCopy) : Option Nat :=
  if rcGrammar c = 0xFFFF then none else some (p.mem.nat (p.dev.grmEntry (rcGrammar c)) 8 % 2 ^ 40)

/-- The row of the current state, when the record has a grammar; none where the state does not exist (R340). -/
def Part.grammarRow (p : Part) (c : RecCopy) (s : Nat) : Option (Option StateRow) :=
  match p.grammarBase c with
  | none => some none
  | some b => if p.mem.nat (b + 4) 4 ≤ s then none else some (some (stateRow p.mem b s))

/-- The parts of a state row that a sampler reads (R339): the row, its mask and its transitions. -/
def Part.rowRanges (p : Part) (base s : Nat) : List (Nat × Nat) :=
  let a := base + 64 + 16 * s
  let n := p.mem.nat (a + 4) 2
  [(a, 16), (base + 64 * p.mem.nat a 4, if n = 0 then ceilDiv (p.dev.get (pageAdp + 0x12C)) 8 else 4 * n),
    (base + 64 * p.mem.nat (a + 8) 4, 8 * p.mem.nat (a + 12) 2)]

/-- The state after a token (R340) (readings: log entry 61). -/
def nextState (row : Option StateRow) (s token : Nat) : Nat :=
  match row with
  | none => s
  | some r => ((r.next.find? (fun e => e.1 == token)).map (·.2)).getD r.deflt

/-! ### One row (R334, R335) -/

/-- How the sampling of a row ends. -/
inductive RowEnd where
  | token (t : Nat)
  | empty
  | free
  deriving DecidableEq, Repr

/-- A candidate placed in decreasing logit, then increasing identifier. -/
def placeCandidate (x : Nat × U32) : List (Nat × U32) → List (Nat × U32)
  | [] => [x]
  | y :: l => if (f32 y.2).lt (f32 x.2) then x :: y :: l else y :: placeCandidate x l

/-- Candidates in order. -/
def sortCandidates (l : List (Nat × U32)) : List (Nat × U32) := l.foldl (fun acc x => placeCandidate x acc) []

/-- Each weight with the running sum before it and with it. -/
def runningSums : U32 → List (Nat × U32) → List (Nat × U32 × U32)
  | _, [] => []
  | s, (t, w) :: l => (t, s, fAdd s w) :: runningSums (fAdd s w) l

/-- The draw of a position (R335): 24 bits over 2^24 (readings: log entry 61). -/
def drawAt (seed p : Nat) : U32 := toF32 (.fin false ((philox [p, 0, 0, 0] seed).headD 0 / 256) (-24))

/-- The candidates that step 8 keeps, each with its running sum (readings: log entry 61). -/
def keptTokens (topP : U32) (l : List (Nat × U32)) : List (Nat × U32) :=
  let sums := runningSums 0 l
  let limit := fMul topP ((sums.getLast?.map (·.2.2)).getD 0)
  (sums.takeWhile (fun e => (f32 e.2.1).lt (f32 limit))).map (fun e => (e.1, e.2.2))

/-- Steps 5 to 9 over the tokens left above minus infinity, in increasing identifier. -/
def pickToken (c : RecCopy) (pos : Nat) (l : List (Nat × U32)) : RowEnd :=
  let sorted := sortCandidates l
  if (f32 (rcTemp c)).isZero then (match sorted with
    | [] => .empty
    | x :: _ => .token x.1)
  else
    let inv := fRecip (rcTemp c)
    let scaled := sortCandidates ((l.map (fun e => (e.1, fMul e.2 inv))).filter (fun e => e.2 != negInf))
    let top := scaled.take (if rcTopK c = 0 then 1024 else rcTopK c)
    let largest := (top.head?.map (·.2)).getD negInf
    let kept := keptTokens (rcTopP c) (top.map (fun e => (e.1, fExp (fSub e.2 largest))))
    let total := (kept.getLast?.map (·.2)).getD 0
    let u := fMul (drawAt (rcSeed c) pos) total
    match kept.find? (fun e => (f32 u).lt (f32 e.2)) with
    | some e => .token e.1
    | none => match kept.getLast? with
      | some e => .token e.1
      | none => .free

/-- The tokens of a row left above minus infinity, and how many logits were NaN (steps 2 and 3). -/
def Part.leftTokens (p : Part) (c : RecCopy) (row : Option StateRow) (logits : List U32) : List (Nat × U32) × Nat :=
  let mask := recordMask p.mem c
  let nan := (logits.filter (fun x => (f32 x).isNan)).length
  (((logits.zipIdx 0).map (fun e => (e.2, e.1))).filter (fun e =>
    !((f32 e.2).isNan) && e.2 != negInf && mask.allows p.mem e.1 &&
    (match row with
      | some r => r.mask.allows p.mem e.1
      | none => true)), nan)

/-! ### A slot (R334, R340, R345) -/

/-- The sampler's outcome for a slot. -/
structure Sampled where
  next : Option Nat := none
  accN : Nat := 0
  sstat : Nat := 0
  sempty : Nat := 0
  gstate : Nat
  nan : Nat := 0
  deriving DecidableEq, Repr

/-- The rows of a slot in position order, the drafts still to compare first (readings: log entry 61). -/
def Part.sampleRows (p : Part) (c : RecCopy) : Nat → List Nat → List (Nat × Nat) → Sampled → Sampled
  | _, _, [], x => x
  | vocab, drafts, (a, pos) :: rows, x =>
    if p.arrivesBad a (4 * vocab) then { x with sstat := stPoisoned }
    else match p.grammarRow c x.gstate with
      | none => { x with sstat := stCrcFail }
      | some row =>
        let (left, nan) := p.leftTokens c row (elements 4 vocab (p.mem.read a (4 * vocab)) |>.map (BitVec.ofNat 32))
        let x := { x with nan := x.nan + nan }
        let accepts := (row.map (·.accepts)).getD false
        let took := fun (x : Sampled) (t : Nat) =>
          let x := { x with gstate := nextState row x.gstate t }
          if (p.grammarRow c x.gstate).isNone then { x with sstat := stCrcFail, next := some t }
          else match drafts with
            | d :: rest => if d = t then p.sampleRows c vocab rest rows { x with accN := x.accN + 1 } else { x with next := some t }
            | [] => { x with next := some t }
        if left.isEmpty then { x with sempty := if accepts then 2 else 1 }
        else match pickToken c pos left with
          | .token t => took x t
          | .empty => { x with sempty := if accepts then 2 else 1 }
          | .free => took x (Config.sampledToken (rcSeed c) pos).toNat

/-- The rows of a chunk before its last (R334): a poisoned one ends the slot, and NaN logits are counted; no token is taken
from them (readings: log entry 61). -/
def Part.chunkRows (p : Part) (vocab : Nat) : List (Nat × Nat) → Sampled → Sampled
  | [], x => x
  | (a, _) :: rows, x =>
    if p.arrivesBad a (4 * vocab) then { x with sstat := stPoisoned }
    else p.chunkRows vocab rows { x with
      nan := x.nan + (((elements 4 vocab (p.mem.read a (4 * vocab))).map (BitVec.ofNat 32)).filter (fun l => (f32 l).isNan)).length }

/-- The rows of a slot: of a chunk only the last gives a token. -/
def Part.sampleAll (p : Part) (c : RecCopy) (vocab kind : Nat) (drafts : List Nat) (rows : List (Nat × Nat)) (x : Sampled) : Sampled :=
  if kind = 3 then
    let x := p.chunkRows vocab rows.dropLast x
    if x.sstat = stOk then p.sampleRows c vocab [] (rows.drop (rows.length - 1)) x else x
  else p.sampleRows c vocab drafts rows x

/-- The greatest logit, the lowest token on a tie (R177, R334). -/
def argmaxToken (l : List (Nat × U32)) : Option Nat := (sortCandidates l).head?.map (·.1)

/-- The tokens that the draft model proposes greedily under the masks and the grammar, from a position and a grammar state
on (R344) (readings: log entry 69). -/
def Part.proposals (p : Part) (c : RecCopy) (entry : Nat) : Nat → Nat → Nat → List Nat
  | 0, _, _ => []
  | n + 1, pos, state =>
    match p.grammarRow c state with
    | none => []
    | some row =>
      let logits := (List.range (p.dev.get (pageAdp + 0x12C))).map (Config.draftLogit p.dev.free entry pos)
      match argmaxToken (p.leftTokens c row logits).1 with
      | none => []
      | some t => t :: p.proposals c entry n (pos + 1) (nextState row state t)

/-- NEW_K and NEW_DRAFT after a verify entry (R315, R344) (readings: log entry 69). -/
def Part.writeDrafts (p : Part) (r : Nat) (l : List Nat) : Part :=
  p.patch (p.dev.recAddr r + 0x100) (setField (setField (List.replicate 64 0) 0 1 l.length) 4 32
    (leNat ((padTo 8 0 l).flatMap (leBytes 4))))

/-- Granule 3 of a record with the sampler's outcome (R315). -/
def Part.writeSampled (p : Part) (r : Nat) (x : Sampled) : Part :=
  let a := p.dev.recAddr r + 0xC0
  let old := p.mem.read a 64
  let g := setField (setField (setField (setField (old.take 44 ++ List.replicate 20 0) 4 1 x.accN) 6 1 x.sstat) 7 1 x.sempty) 0x28 4 x.gstate
  p.patch a (match x.next with
    | some t => setField g 0 4 t
    | none => g)

/-- The statuses of the outputs that hold the rows of an entry (R333). -/
def Device.logitStatuses (d : Device) (c : Nat) (rows : List (Nat × Nat)) (n : Nat) : List Nat :=
  rows.flatMap (fun e => ((d.core c).outputsIn (e.1 / 64) (ceilDiv (e.1 % 64 + n) 64)).map (·.2.2))

/-- The statuses of an entry's logits kept for the commit (R333). -/
def Device.keepLogits (d : Device) (die entry : Nat) (l : List Nat) : Device :=
  { d with serving := { d.serving with logits := smapSet d.serving.logits (4096 * die + entry) l } }

/-- The number of an entry of the current bank. -/
def Device.entryOf (d : Device) (die : Nat) (s : SlotEntry) : Nat := (s.addr - d.slotAddr die (d.slotBank die) 0) / 32

/-- The grammar states that a slot's rows stand in while its drafts are accepted (R340, R345). -/
def Part.statesAlong (p : Part) (c : RecCopy) : Nat → List Nat → List Nat
  | s, [] => [s]
  | s, t :: l => match p.grammarRow c s with
    | some row => s :: p.statesAlong c (nextState row s t) l
    | none => [s]

/-- What a sampler reads beside the logits (R385): granule 3 of the record, its mask, and its grammar. -/
def Part.touchSampling (p : Part) (r : Nat) (q : Request) (drafts : List Nat) : Part :=
  let c := q.copy
  let p := p.touchAll [(p.dev.recAddr r + 0xC0, 64), (rcMask c, p.dev.maskLen c)]
  if rcGrammar c = 0xFFFF then p
  else
    let p := p.touch (p.dev.grmEntry (rcGrammar c)) 16
    match p.grammarBase c with
    | none => p
    | some b =>
      let p := p.touch b 64
      (p.statesAlong c q.gstate drafts).foldl (fun p s => p.touchAll (p.rowRanges b s)) p

/-- One slot of a SAMPLE word, its rows from a row of the block on. -/
def Part.sampleSlot (p : Part) (c die : Nat) (w : SampleWord) (s : SlotEntry) (row : Nat) : Part :=
  if !(s.live) || (s.home != 0x1FF && s.home != p.dev.node) then p
  else match p.dev.request s.record with
    | none => p
    | some q =>
      let vocab := p.dev.get (pageAdp + 0x12C)
      let at_ := fun i => (storeAddr c w.logits + 4 * vocab * (row + i), s.pos + i)
      let rows := (List.range s.ntok).map at_
      let drafts := if s.kind = 2 then elements 4 (s.ntok - 1) (p.mem.read (p.dev.recAddr s.record + 0xC8) 32) else []
      let p := (p.touchSampling s.record q drafts).touchAll (rows.map (fun e => (e.1, 4 * vocab)))
      let x := p.sampleAll q.copy vocab s.kind drafts rows { gstate := q.gstate }
      let p := (p.writeSampled s.record x).onDev (fun d =>
        let d := (d.count (pageSrv die + 0x148) x.nan).keepLogits die (d.entryOf die s) (d.logitStatuses c rows (4 * vocab))
        if x.sempty = 0 then d else d.count (pageSrv die + 0x14C))
      if s.kind != 2 || x.sstat != stOk then p
      else (p.writeDrafts s.record (p.proposals q.copy (p.dev.entryOf die s) (Nat.min 8 q.draftNext) (s.pos + x.accN + 1) x.gstate)).onDev (·.drawn)

/-- The entries of a SAMPLE word that have SAMPLE set, each with its first row (R334). -/
def sampledEntries : Nat → List SlotEntry → List (SlotEntry × Nat)
  | _, [] => []
  | row, s :: l => if bit s.flags 1 then (s, row) :: sampledEntries (row + s.ntok) l else sampledEntries row l

/-- The ticks that a SAMPLE word occupies its sampler (R337) (readings: log entry 61). -/
def Part.sampleTicks (p : Part) (entries : List (SlotEntry × Nat)) : Nat :=
  let row := ceilDiv ((ceilDiv (p.dev.get (pageAdp + 0x12C)) 64 + 256) * 100) (coreClock p.dev.perfLevel)
  sumNat (entries.map (fun e =>
    let grammar := (p.dev.request e.1.record).any (fun q => rcGrammar q.copy != 0xFFFF)
    e.1.ntok * (row + if grammar then 1500 else 0)))

/-- A SAMPLE word taken by its sampler: none when a word is in service and the queue of 2 is full (R191). -/
def CoreState.takeSample (x : CoreState) (tick ticks : Nat) : Option CoreState :=
  let live := x.sampling.filter (fun t => decide (tick < t))
  if 3 ≤ live.length then none else some { x with sampling := live ++ [live.getLast?.getD tick + ticks] }

/-- SAMPLE (R334): only core 0 of a cluster issues it, and a maintenance heat samples no slot (R216). -/
def opSampleWord (c : Nat) (p : Part) : Part :=
  match p.dev.next c (isOp opSample) with
  | none => p
  | some (i, w, tick, d) =>
    let p : Part := { p with dev := d }
    if c % 16 ≠ 0 ∨ p.dev.heat.kind = 1 then p
    else
      let x := sampleWord w
      let die := c / 128
      let entries := ((List.range x.count).map (x.first + ·)).filter (· < 4096)
      let rows := sampledEntries 0 (entries.map (p.slotNow die))
      match (p.dev.core c).takeSample tick (p.sampleTicks rows) with
      | none => { p with dev := p.dev.dropWord c i tick w }
      | some y => rows.foldl (fun p e => p.sampleSlot c die x e.1 e.2) { p with dev := p.dev.setCore c y }

def execSample (c : Core) (s : State) : Host.Outcome State Fault Refusal := s.onPart (opSampleWord c.val)

end Sys2Proof.Machine
end

