-- ==== Sys2Proof/Machine/Admission.lean ====
section
/-! DEFINITION. Admission: the next heat's slot table, page grants, the adapter list, the class proposal, shards, and the
arrival of a die (R196, R208, R209, R298 to R300, R322 to R331, R376). -/

namespace Sys2Proof.Machine

/-! ### Registers and order -/

def Device.genSlots (d : Device) (die : Nat) : Nat := bits (d.get (pageSrv die + 0x100)) 11 0
def Device.verSlots (d : Device) (die : Nat) : Nat := bits (d.get (pageSrv die + 0x100)) 23 12
def Device.adpMax (d : Device) (die : Nat) : Nat := bits (d.get (pageSrv die + 0x100)) 28 24

/-- The bank that the next heat uses. -/
def Device.nextBank (d : Device) (die : Nat) : Nat := 1 - d.slotBank die

/-- The positions that a request's prefill covers: its prompt, and the tokens that a refill carries (R376). -/
def Request.fill (q : Request) : Nat := rcPromptLen q.copy + q.refill

/-- The requests of a die that generate, by record. -/
def Device.requestsOf (d : Device) (die : Nat) : List (Nat × Request) :=
  d.serving.reqs.filter (fun e => recordDie e.1 == die && rcKind e.2.copy == 0)

/-- The deadline of a token, and of a first token (R326): without a target, the last. -/
def Request.tokenDue (q : Request) : Nat := if rcTbt q.copy = 0 then 2 ^ 80 else q.tLast + 1000 * rcTbt q.copy
def Request.firstDue (q : Request) : Nat := if rcTtft q.copy = 0 then 2 ^ 80 else q.tArrive + 1000 * rcTtft q.copy

/-- The slot that a sequence has in the current heat. -/
def DieServing.running (x : DieServing) (k : Nat) : List SlotUse := x.cur.filter (fun u => u.seq == k)

/-- Whether the current heat repeats another one (R206). -/
def Device.replaying (d : Device) : Bool := d.heat.replays != 0

/-! ### Grants, copies and starvation (R298 to R300) -/

/-- The entry of a list into which a sequence's next position falls, when that page holds some already. -/
def Sequence.partialEntry (x : Sequence) (s : Nat) : Option (Nat × Nat) :=
  let b := x.length / 256
  if x.length % 256 = 0 ∨ b % x.nshard ≠ x.shard then none
  else ((x.planned s)[b / x.nshard]?).map (fun e => (b / x.nshard, e))

/-- The holders of a page that keep it: one that gets a copy leaves it (R300). -/
def Device.keepers (d : Device) (page : Nat) : Nat :=
  smapGet d.serving.refs 0 page - (d.serving.dies.flatMap (fun e => e.2.copies.filter (fun c => c.source == page))).length

/-- A shared partial page before an append: its last holder takes it over, any other holder gets a copy (R300). -/
def Part.unshareList (p : Part) (k s : Nat) (d : Device) : Option Device :=
  match d.sequence k with
  | none => none
  | some x =>
    match x.partialEntry s with
    | none => some d
    | some (i, e) =>
      if !(bit e 28) || (d.dieServing x.die).copies.any (fun c => c.seq == k && c.lslot == s) then some d
      else if d.keepers (bits e 23 0) ≤ 1 then
        some (d.onSequence k (·.onList s (fun l => { l with ents := listSet l.ents i (withBits e 28 28 0) })))
      else match d.drawPage (x.allocDie i) (p.layerSlot s).footprint x.seqId with
        | none => none
        | some (page, d) => some (d.onDie x.die (fun y => { y with copies := y.copies ++ [⟨k, s, i, bits e 23 0, page⟩] }))

/-- Every page that a sequence needs for its next tokens, up to a number of positions; none where a page is missing. -/
def Part.provide (p : Part) (k positions : Nat) : Option Device :=
  match p.dev.sequence k with
  | none => none
  | some x =>
    match (List.range x.lists.length).foldl (fun (acc : Option Device) s => acc.bind (p.unshareList k s)) (some p.dev) with
    | none => none
    | some d => ({ p with dev := d } : Part).growTo k positions

/-- A sequence becomes PAGE_STARVED (R298). -/
def Device.starve (d : Device) (k : Nat) : Device :=
  match d.sequence k with
  | none => d
  | some x =>
    if x.starved then d
    else
      let d := (d.setSequence k { x with starved := true }).onServing (fun s => { s with starved := s.starved ++ [k] })
      let d := d.onRequest k (fun q => { q with state := 5, status := stStarved })
      (d.count (pagePst x.die + 0x160)).pageStoreEvent x.die 0 x.seqId 0 stStarved

/-- Pages for as many of a slot's tokens as they allow, at least one (R298): the number of tokens and the device. -/
def Part.provideSome (p : Part) (k base : Nat) : Nat → Option (Nat × Device)
  | 0 => none
  | n + 1 =>
    match p.provide k (base + n + 1) with
    | some d => some (n + 1, d)
    | none => p.provideSome k base n

/-- The starved sequences get their pages back in the order in which they starved, as far as pages go (R299). One that the
heat still runs is left for the next admission. -/
def Part.feedStarved : List Nat → Part → Part
  | [], p => p
  | k :: l, p =>
    match p.dev.sequence k, p.dev.request k with
    | some x, some q =>
      if (p.dev.dieServing x.die).running k != [] then Part.feedStarved l p
      else
        let need := if q.tFirst = 0 ∧ !(x.overflow) then Nat.min 512 (q.fill - x.length) else 2
        match p.provide k (x.length + need) with
        | none => p
        | some d =>
          let d := (d.onSequence k (fun x => { x with starved := false })).onServing (fun s => { s with starved := setErase s.starved k })
          let d := d.onRequest k (fun q => { q with state := if q.emitted = 0 ∨ x.length < q.fill then 3 else 4 })
          Part.feedStarved l { p with dev := d }
    | _, _ => Part.feedStarved l p

/-- A starved sequence still waits for pages, so that new admissions draw none (R299). -/
def Device.starvedWait (d : Device) : Bool :=
  d.serving.starved.any (fun k => match d.sequence k with
    | some x => (d.dieServing x.die).running k == []
    | none => false)

/-! ### Slots -/

/-- The adapter list with a slot, unless that would make it too long (R328). -/
def addAdapter (max slot : Nat) (l : List Nat) : Option (List Nat) :=
  if slot = 0xFFFF ∨ l.contains slot then some l
  else if l.length < max then some (setInsert l slot) else none

/-- What admission gathers for one die. -/
structure Gather where
  part : Part
  slots : List SlotUse := []
  adapters : List Nat := []
  deriving DecidableEq, Repr

/-- The lowest free entry of a range: one that neither a slot of this die nor a pinned one holds (R326, R330). -/
def Gather.freeEntry (g : Gather) (die lo hi : Nat) : Option Nat :=
  let taken := (g.slots ++ (g.part.dev.dieServing die).next.filter (·.pinned)).map (·.entry)
  (((List.range (hi - lo)).map (lo + ·)).find? (fun e => !(taken.contains e)))

/-- The holding modules of a sharded sequence (R307, R330). -/
def Device.holders (d : Device) (nshard : Nat) : List Nat :=
  ((List.range nshard).map (fun j => d.node - d.node % nshard + j)).filter (· != d.node)

/-- The pages that a holding module must grant for a range of positions. -/
def pagesToGrant (x : Sequence) (holder layers lo hi : Nat) : Nat :=
  let y := { x with shard := holder % x.nshard }
  (y.entriesFor hi - y.entriesFor lo) * layers

/-- The admission notes of a slot (R330). -/
def Device.sendNotes (d : Device) (die k : Nat) (u : SlotUse) : Device :=
  match d.sequence k with
  | none => d
  | some x =>
    let d := if u.awaited = [] then d else d.onDie die (fun y => { y with noted := some d.now })
    u.awaited.foldl (fun d h =>
      d.send (.shardNote h die u.entry u.kind u.ntok u.pos (pagesToGrant x h x.lists.length u.pos (u.pos + u.ntok)) k)) d

/-- One generating request admitted (R326, R298) (readings: log entry 60). -/
def Gather.generation (die : Nat) (g : Gather) (r : Nat) (q : Request) : Gather :=
  let d := g.part.dev
  match d.sequence r with
  | none => g
  | some x =>
    let gs := d.genSlots die
    let vs := d.verSlots die
    let mine := (g.slots.filter (fun u => ((d.request u.seq).map (·.tenant)) == some q.tenant && u.kind != 3)).length
    let now := (d.dieServing die).running r
    let drafts := Nat.min 8 (g.part.mem.nat (d.recAddr r + 0xC5) 1)
    let place := if drafts = 0 then none else g.freeEntry die gs (gs + vs)
    let verify := place.isSome
    match (if verify then place else g.freeEntry die 0 gs), addAdapter (d.adpMax die) q.adpSlot g.adapters with
    | some entry, some adapters =>
      if g.part.mem.nat (d.tenSrv q.tenant + 6) 2 ≤ mine then g
      else
        let extra := if x.overflow then 1 else 0
        let base := x.length + sumNat (now.map (·.ntok)) + extra
        let awaited := if x.nshard = 1 then [] else d.holders x.nshard
        let slot : SlotUse := { entry := entry, kind := if verify then 2 else 1, seq := r, ntok := 1, pos := x.length + extra, adp := q.adpSlot, overflowIn := x.overflow, awaited := awaited }
        let (slot, d) := match g.part.provideSome r base (if verify then 1 + drafts else 1) with
          | some (n, d) => ({ slot with ntok := n }, d)
          | none => ({ slot with overflow := true }, d.starve r)
        let d := (d.sendNotes die r slot).count (pageSrv die + 0x130)
        { part := { g.part with dev := d }, slots := g.slots ++ [slot], adapters := adapters }
    | _, _ => g

/-- The chunks of one request, in position order, while entries remain (R326, R327). -/
def Gather.chunks (die limit : Nat) (r : Nat) (q : Request) : Nat → Nat → Gather → Gather
  | 0, _, g => g
  | n + 1, start, g =>
    let d := g.part.dev
    let first := d.genSlots die + d.verSlots die
    match d.sequence r, g.freeEntry die first (Nat.min 4096 (first + limit)) with
    | some x, some entry =>
      let ntok := Nat.min 512 (q.fill - start)
      if q.fill ≤ start then g
      else match addAdapter (d.adpMax die) q.adpSlot g.adapters with
        | none => g
        | some adapters =>
          match g.part.provide r (start + ntok) with
          | none => { g with part := g.part.onDev (·.starve r) }
          | some d =>
            let slot : SlotUse := { entry := entry, kind := 3, seq := r, ntok := ntok, pos := start, last := decide (q.fill ≤ start + ntok), adp := q.adpSlot, awaited := if x.nshard = 1 then [] else d.holders x.nshard }
            let d := d.onRequest r (fun q => { q with state := 3, oldGen := q.oldGen && q.modelGen != d.get (pageBlt + 0x100) })
            let d := (d.sendNotes die r slot).count (pageSrv die + 0x134)
            Gather.chunks die limit r q n (start + ntok) { part := { g.part with dev := d }, slots := g.slots ++ [slot], adapters := adapters }
    | _, _ => g

/-- The most chunk entries for a request: those that no class trims where it is sharded (R330). -/
def chunkLimit (h : HeatEntry) (cls nshard : Nat) : Nat :=
  if nshard = 1 then h.chunkSlots.getD cls 0 else h.chunkSlots.foldl Nat.min (h.chunkSlots.headD 0)

/-- One request's prefill (R326). -/
def Gather.prefill (die cls : Nat) (h : HeatEntry) (g : Gather) (r : Nat) (q : Request) : Gather :=
  match g.part.dev.sequence r with
  | none => g
  | some x =>
    let now := (g.part.dev.dieServing die).running r
    Gather.chunks die (chunkLimit h cls x.nshard) r q 4096 (x.length + sumNat (now.map (·.ntok))) g

/-- The pages that an ATTN word walks on a bellows for a slot of the next heat (R208, R282) (readings: log entry 60). -/
def Part.plannedWalk (p : Part) (k : Nat) (a : AttnWord) (u : SlotUse) : Nat :=
  let die := clusterDie k
  match p.dev.sequence u.seq with
  | none => 0
  | some x =>
    let s := slotEntry p.mem (p.dev.slotAddr die (p.dev.nextBank die) u.entry)
    let w := walkDesc p.mem s.walk
    let j : WalkJob := ⟨k, u.entry, a.hgrp, a.lslot, { s with flags := 8 * flag u.overflow }, { w with nq := u.ntok }, p.layerSlot a.lslot⟩
    let length := x.length + sumNat (((p.dev.dieServing die).running u.seq).map (·.ntok))
    (j.visits ⟨x.tenant, x.nshard, x.shard, 0, length, (x.planned a.lslot).length, x.planned a.lslot⟩).length

/-- The pages that the words of a class walk on a bellows for some slots (R208). -/
def Part.classPages (p : Part) (k : Nat) (words : List Nat) (cls : Nat) (slots : List SlotUse) : Nat :=
  sumNat ((words.filter (fun w => wOp w == opAttn && inClass w cls)).map (fun w =>
    let a := attnWord w
    sumNat ((slots.filter (fun u => decide (a.first ≤ u.entry) && decide (u.entry < a.first + a.count))).map (p.plannedWalk k a))))

/-- The class proposed (R209): the lowest whose ATT_PAGES holds, on every bellows of the die, the pages of the generation
slots; else the highest (readings: log entry 60). -/
def Gather.proposal (g : Gather) (die : Nat) (q : Plan) (h : HeatEntry) : Nat :=
  let next := g.part.dev.nextProgram q
  let bellows := (List.range 8).map (fun i =>
    (8 * die + i, (fetchStream g.part.mem q next.1 next.2 (clusterCore (8 * die + i))).words))
  ((List.range 16).find? (fun c => bellows.all (fun e =>
    decide (g.part.classPages e.1 e.2 c g.slots ≤ h.attPages.getD c 0)))).getD 15

/-! ### Entries in memory (R324) -/

/-- A slot as its entry shows it: the fields before WALK. -/
def SlotUse.bytes (u : SlotUse) (alist : Nat) : List Byte :=
  let sampled := !(u.pinned) && (u.kind != 3 || u.last)
  let flags := 2 * flag sampled + 4 * flag u.last + 8 * flag u.overflow + 16 * flag u.pinned
  leBytes 2 (u.seq % 8192) ++ leBytes 2 u.home ++ leBytes 1 u.kind ++ leBytes 1 flags ++ leBytes 2 u.ntok ++ leBytes 4 u.pos ++ leBytes 2 alist

/-- A descriptor filled for a slot: DIR, NQ, APPEND and OVF_IN (R280, R281, R299). -/
def Part.fillDescriptor (p : Part) (a : Nat) (x : Sequence) (u : SlotUse) : Part :=
  if a = 0 then p
  else
    let f := p.mem.nat (a + 0x25) 1
    let f := withBits (withBits f 1 1 1) 4 4 (flag u.overflowIn)
    ((p.patch a (leBytes 8 x.dir)).patch (a + 0x25) (leBytes 1 f)).patch (a + 0x26) (leBytes 2 u.ntok)

/-- The tokens that a slot enters (R324, R345, R376). -/
def Part.inputTokens (p : Part) (u : SlotUse) : List Byte :=
  match p.dev.request u.seq with
  | none => []
  | some q =>
    let a := p.dev.recAddr u.seq
    if u.kind = 3 then
      (List.range u.ntok).flatMap (fun i =>
        let k := u.pos + i
        if k < rcPromptLen q.copy then p.mem.read (rcPrompt q.copy + 4 * k) 4
        else p.mem.read (rcOut q.copy + 4 * ((k - rcPromptLen q.copy) % Nat.max 1 (rcOutCap q.copy))) 4)
    else p.mem.read (a + 0xC0) 4 ++ (p.mem.read (a + 0xC8) 32).take (4 * (u.ntok - 1))

/-- The tokens that fill an entry's input are read (R385). -/
def Part.touchInput (p : Part) (u : SlotUse) : Part :=
  match p.dev.request u.seq with
  | none => p
  | some q =>
    if u.kind != 3 then p.touch (p.dev.recAddr u.seq + 0xC0) 64
    else p.touchAll ((List.range u.ntok).map (fun i =>
      let k := u.pos + i
      (if k < rcPromptLen q.copy then rcPrompt q.copy + 4 * k
        else rcOut q.copy + 4 * ((k - rcPromptLen q.copy) % Nat.max 1 (rcOutCap q.copy)), 4)))

/-- The adapter list index of a slot. -/
def alistIndex (adapters : List Nat) (adp : Nat) : Nat := if adp = 0xFFFF then 0xFFFF else (adapters.findIdx? (· == adp)).getD 0xFFFF

/-- A slot's entry of the next bank, with its descriptor and input tokens. -/
def Part.fillEntry (p : Part) (die bank : Nat) (adapters : List Nat) (u : SlotUse) : Part :=
  let a := p.dev.slotAddr die bank u.entry
  let p := (p.touch a 32).touchInput u
  let s := slotEntry p.mem a
  let p := p.patch a (u.bytes (alistIndex adapters u.adp))
  let p := match p.dev.sequence u.seq with
    | some x => p.fillDescriptor s.walk x u
    | none => p
  let tokens := if u.pinned then [] else p.inputTokens u
  if s.input = 0 ∨ tokens = [] then p else p.writePieces s.input (padTo (granuleUp tokens.length) 0 tokens) []

/-- An entry made empty (R329, R330). -/
def Part.emptyEntry (p : Part) (die bank e : Nat) : Part := p.patch (p.dev.slotAddr die bank e + 4) [0]

/-- A bank as admission leaves it: the slots, every other entry empty, and the adapter list (R322, R328). -/
def Part.fillBank (p : Part) (die bank : Nat) (slots : List SlotUse) (adapters : List Nat) : Part :=
  let p := p.touch (p.dev.slotAddr die bank 0) 0x20000
  let stale := (List.range 4096).filter (fun e =>
    p.mem.nat (p.dev.slotAddr die bank e + 4) 1 != 0 && !(slots.any (fun u => u.entry == e)))
  let p := stale.foldl (fun p e => p.emptyEntry die bank e) p
  let p := slots.foldl (fun p u => p.fillEntry die bank adapters u) p
  p.patch (p.dev.slotAddr die bank 0 + 0x20000) ((padTo 16 0xFFFF adapters).flatMap (leBytes 2))

/-! ### ADMISSION -/

/-- CTRL.CANCEL read, and a request whose granule 0 arrives poisoned ended (R331, R403). -/
def Part.readCancels (p : Part) (die : Nat) : Part :=
  (p.dev.requestsOf die).foldl (fun p (e : Nat × Request) =>
    let a := p.dev.recAddr e.1
    let p := p.touchAll [(a, 64), (a + 0xC0, 64), (p.dev.tenSrv e.2.tenant, 16)]
    if p.mem.poisoned a 64 then p.endRequest e.1 6 stPoisoned
    else if bit (p.mem.nat (a + 5) 1) 0 then p.onDev (·.onRequest e.1 (fun q => { q with cancelled := true })) else p) p

/-- A request that GEN_POLICY 1 refills: it has OLD_GEN, and is not bound to MODEL_GEN (R376). -/
def Device.toRefill (d : Device) (q : Request) : Bool :=
  bit (d.get (pageBlt + 0x120)) 0 && q.oldGen && q.modelGen != d.get (pageBlt + 0x100)

/-- Old-generation requests under GEN_POLICY 1 (R376): the pages go and the prompt is refilled. One that the current heat
still runs is left out of this admission, and refilled at the next (R326) (readings: log entry 60). -/
def Part.refillOld (p : Part) (die : Nat) : Part :=
  (p.dev.requestsOf die).foldl (fun p (e : Nat × Request) =>
    if !(p.dev.toRefill e.2) || (p.dev.dieServing die).running e.1 != [] then p
    else
      let gen := p.dev.get (pageBlt + 0x100)
      let held := ((p.dev.sequence e.1).map (·.tree)).getD []
      let p := held.foldl (fun p i => p.pfxRelease i) p
      let p := p.onDev (fun d => (d.cutTo e.1 0).onSequence e.1 (fun x => { x with
        length := 0, modelGen := gen, oldGen := false, tree := [], digests := [], overflow := false, starved := false }))
      let p := p.onDev (·.onServing (fun s => { s with starved := setErase s.starved e.1 }))
      p.updateRequest e.1 (fun q => { q with state := 2, modelGen := gen, refill := q.emitted })) p

/-- Everything that admission does to fill the bank of a heat that takes requests (R326) (readings: log entry 60). -/
def Part.fillSlots (p : Part) (die : Nat) (q : Plan) (h : HeatEntry) : Part × Nat :=
  let p := Part.feedStarved p.dev.serving.starved p
  let live := (p.dev.requestsOf die).filter (fun e => !(e.2.cancelled) && !(p.dev.isStarved e.1) && !(p.dev.toRefill e.2))
  let gen := sortByKey (fun (e : Nat × Request) => e.2.tokenDue) (live.filter (fun e => e.2.state == 4))
  let g := gen.foldl (fun g e => Gather.generation die g e.1 e.2) { part := p }
  let cls := g.proposal die q h
  let pre := if p.dev.starvedWait then [] else
    sortByKey (fun (e : Nat × Request) => e.2.firstDue) (live.filter (fun e => e.2.state == 2 || e.2.state == 3))
  let g := pre.foldl (fun g e => Gather.prefill die cls h g e.1 e.2) g
  let pinned := (g.part.dev.dieServing die).next.filter (·.pinned)
  let slots := g.slots ++ pinned
  let p := g.part.onDev (·.onDie die (fun y => { y with next := slots, adpNext := g.adapters, staged := [] }))
  (p.fillBank die (p.dev.nextBank die) slots g.adapters, cls)

/-- The requests of a die shown in their records. -/
def Part.showRequests (p : Part) (die : Nat) : Part :=
  (p.dev.requestsOf die).foldl (fun p (e : Nat × Request) => p.writeRequest e.1 e.2) p

/-- ADMISSION (R326): once for each heat of a started plan. While a replay runs, the bank stays as it was filled (R323); a
held or maintenance heat takes no request (R215, R216) (readings: log entry 60). -/
def opAdmission (die : Nat) (space : List Nat) (p : Part) : Part :=
  let p := p.onDev (·.addSpace die space)
  let proposed := fun (p : Part) (cls : Nat) => p.onDev (fun d =>
    (d.onDie die (fun y => { y with cls := cls, filled := true })).onHeat (fun h => { h with proposals := h.proposals ++ [(die, cls)] }))
  match p.dev.heat.plan with
  | none => p
  | some q =>
    if !(p.dev.heat.started) || p.dev.heat.proposals.any (fun e => e.1 == die) then p
    else if p.dev.replaying && (p.dev.dieServing die).filled then proposed p (p.dev.dieServing die).cls
    else
      let p := ((p.readCancels die).refillOld die).onDev (·.onDie die (fun y => { y with noted := none }))
      match q.heats[(p.dev.nextProgram q).1]? with
      | none => proposed p 0
      | some h =>
        if h.kind = 0 then
          let r := p.fillSlots die q h
          proposed (r.1.evictLow.showRequests die) r.2
        else
          let p := p.onDev (·.onDie die (fun y => { y with next := [], adpNext := [], staged := [] }))
          proposed (p.fillBank die (p.dev.nextBank die) [] []) 0

/-! ### Shards (R330) -/

/-- The key of a sequence that another module is home to. -/
def shardKey (home record : Nat) : Nat := 8192 * (1 + home) + record

/-- The blocks of its shard that a holding module finds in its own table before a sequence's first chunk (R305, R307): each
digest is read from the home module (readings: log entry 59). -/
def Part.shardLookups (p : Part) (k blocks : Nat) : Part :=
  match p.dev.sequence k with
  | none => p
  | some x =>
    if !(p.dev.pfxOn) then p
    else ((List.range blocks).filter (fun b => b % x.nshard == x.shard)).foldl (fun p b =>
      let r := p.dev.remoteBlock
      ((p.onDev (·.drawn)).lookups k x.tenant x.modelGen 0 [(r.1, r.2, b)]).1) p

/-- SHARD_ADMIT_NOTE: the pages are granted, the entry is filled with PINNED set, and the home is answered. -/
def opShardAdmitNote (die entry kind ntok pos pages home record : Nat) (p : Part) : Part :=
  let k := shardKey home record
  let p := if pos = 0 then p.dropSequence k else p
  let nshard := bits (p.dev.get (pageKv + 0x10C)) 4 0
  let fresh : Sequence :=
    { seqId := (Config.shardSeqId home record).toNat, tenant := (Config.shardTenant home record).val, die := die, dir := 0, ovf := 0
      striped := true, modelGen := p.dev.get (pageBlt + 0x100), shard := p.dev.node % 16 % Nat.max 1 nshard, nshard := Nat.max 1 nshard }
  let p := if (p.dev.sequence k).isSome then p else ((p.newSequence k fresh).getD p).shardLookups k (pos / 256)
  let granted := if pages = 0 then some p.dev else p.provide k (pos + ntok)
  let starved := granted.isNone
  let p : Part := { p with dev := granted.getD p.dev }
  let u : SlotUse := { entry := entry, kind := kind, seq := k, home := home, ntok := ntok, pos := pos, pinned := true }
  let p := p.onDev (fun d =>
    (d.onDie die (fun y => { y with next := y.next.filter (fun v => v.entry != entry) ++ [u] })).send (.shardAck home die entry starved))
  p.fillEntry die (p.dev.nextBank die) (p.dev.dieServing die).adpNext u

/-- SHARD_ADMIT_ACK. -/
def opShardAdmitAck (die entry holder : Nat) (starved : Bool) (d : Device) : Device :=
  let mine := (d.dieServing die).next.find? (fun u => u.entry == entry && u.awaited.contains holder)
  match mine with
  | none => d
  | some u =>
    let d := d.onDie die (fun y => { y with next := y.next.map (fun v =>
      if v = u then { v with awaited := setErase v.awaited holder, overflow := v.overflow || starved } else v) })
    if starved then d.starve u.seq else d

/-! ### Adapters staged (R328, R329) -/

/-- ADAPTER_STAGE_DONE: the image of a listed slot copied, every failure carried on as poison marks. -/
def opAdapterStageDone (die i : Nat) (p : Part) : Part :=
  match (p.dev.dieServing die).adpNext[i]? with
  | none => p
  | some s =>
    let p := p.touch (p.dev.adpEntry s) 64
    let len := p.mem.nat (p.dev.adpEntry s + 0x18) 4
    let src := p.dev.adpImage s
    let stride := bits (p.dev.get (pageSrv die + 0x118)) 15 0
    let dst := p.dev.get64 (pageSrv die + 0x110) % 2 ^ 40 + (2 * i + p.dev.nextBank die) * 0x10000 * stride
    let p := p.touch src (64 * len)
    let uses := imageUse p.mem src len (p.mem.nat (p.dev.adpEntry s + 9) 1)
    let bad := (uses.zipIdx 0).flatMap (fun u => if u.1.stranger then (List.range 64).map (src / 64 + 64 * u.2 + ·) else u.1.poison)
    let marks := (List.range len).filter (fun g => p.mem.poison.contains (src / 64 + g) || bad.contains (src / 64 + g))
    let p := p.onDev (fun d => (uses.filter (·.crcFail)).foldl (fun d _ => d.tileCrcEvent die src) d)
    (p.writePieces dst (p.mem.read src (64 * len)) marks).onDev (·.onDie die (fun y => { y with staged := setInsert y.staged i }))

/-! ### The arrival of a die (R196, R300, R329, R330) -/

/-- Slots withdrawn from the next heat. -/
def Part.withdrawSlots (p : Part) (die : Nat) (late : List SlotUse) : Part :=
  let p := p.onDev (·.onDie die (fun y => { y with next := y.next.filter (fun u => !(late.contains u)) }))
  late.foldl (fun p u => p.emptyEntry die (p.dev.nextBank die) u.entry) p

/-- The request identity of a slot. -/
def Device.slotReqId (d : Device) (u : SlotUse) : Nat := ((d.request u.seq).map (fun q => rcReqId q.copy)).getD 0

/-- What is not finished when the die must arrive: adapters, acknowledgements and copies. -/
def Part.lateSlots (p : Part) (die : Nat) : Part :=
  let y := p.dev.dieServing die
  let unstaged := y.next.filter (fun u => u.adp != 0xFFFF && !(y.staged.contains (alistIndex y.adpNext u.adp)))
  let p := (p.withdrawSlots die unstaged).onDev (fun d => unstaged.foldl (fun d u =>
    (d.count (pageSrv die + 0x158)).recordEvent (pageSrv die) 4 stOk (u.seq % 8192) (d.slotReqId u)) d)
  let silent := (p.dev.dieServing die).next.filter (fun u => !(u.awaited.isEmpty))
  let p := (p.withdrawSlots die silent).onDev (fun d => silent.foldl (fun d u =>
    (d.count (pageSrv die + 0x15C)).recordEvent (pageSrv die) 5 stOk (u.seq % 8192) (d.slotReqId u)) d)
  let copying := (p.dev.dieServing die).next.filter (fun u => y.copies.any (fun c => c.seq == u.seq))
  (p.withdrawSlots die copying).onDev (fun d => copying.foldl (fun d u =>
    let pool := ((y.copies.find? (fun c => c.seq == u.seq)).map (fun c => pagePool c.target)).getD 0
    (d.count (pagePst die + 0x174)).pageStoreEvent die 3 (((d.sequence u.seq).map (·.seqId)).getD 0) pool) d)

/-- The first tick at which a die that sent admission notes may arrive (R330). -/
def Device.leadTick (d : Device) (die : Nat) : Nat := ((d.dieServing die).noted.map (· + d.get (pageSrv die + 0x10C))).getD 0

/-- DIE_ARRIVE, ADMIT_LEAD ticks after the die's admission notes or later (R330). -/
def opDieArrive (die : Nat) (p : Part) : Part :=
  if p.dev.dieReady die then
    let p := p.onDev (·.reach (p.dev.leadTick die))
    (if p.dev.replaying then p else p.lateSlots die).onDev (·.dieArrive die)
  else p

def execAdmission (d : Die) (space : List Addr) (s : State) : Host.Outcome State Fault Refusal :=
  s.onPart (opAdmission d.val (space.map (·.toNat)))
def execShardAdmitNote (d : Die) (entry : Fin 4096) (kind : Fin 4) (ntok : BitVec 16) (pos : U32) (pages : Nat) (home : Node)
    (record : BitVec 16) (s : State) : Host.Outcome State Fault Refusal :=
  s.onPart (opShardAdmitNote d.val entry.val kind.val ntok.toNat pos.toNat pages home.toNat (record.toNat % 8192))
def execShardAdmitAck (d : Die) (entry : Fin 4096) (holder : Node) (starved : Bool) (s : State) : Host.Outcome State Fault Refusal :=
  s.onDev (opShardAdmitAck d.val entry.val holder.toNat starved)
def execAdapterStageDone (d : Die) (i : Fin 16) (s : State) : Host.Outcome State Fault Refusal := s.onPart (opAdapterStageDone d.val i.val)
def execDieArrive (d : Die) (s : State) : Host.Outcome State Fault Refusal := s.onPart (opDieArrive d.val)

end Sys2Proof.Machine
end

