-- ==== Sys2Proof/Machine/PageRules.lean ====
section
/-! DEFINITION. Staged images of pages, and the rule that each page checks at a commit (R546, R548, R556). -/

namespace Sys2Proof.Machine

/-! ### Staged images (R546) -/

/-- The staged word of a live offset of a page. -/
def Device.staged (d : Device) (page o : Nat) : Nat := d.get (page + o + 0x800)

/-- The words of a page with staged bits: offset and mask. -/
def stagedWords (page : Nat) : List (Nat × Nat) :=
  match pageKind page with
  | none => []
  | some k => ((pageInfo k).regs.filter (fun r => r.st != 0)).flatMap (fun r => (List.range r.n).map (fun i => (r.off + 4 * i, r.st)))

/-- A staged word differs from the staged bits of its live word. -/
def Device.changes (d : Device) (page o mask : Nat) : Bool :=
  Nat.land (d.staged page o) mask != Nat.land (d.get (page + o)) mask

/-- Whether any staged word of some offsets differs from its live word. -/
def Device.anyChange (d : Device) (page : Nat) (offs : List Nat) : Bool :=
  (stagedWords page).any (fun e => offs.contains e.1 && d.changes page e.1 e.2)

/-- STAT.STAGE_PENDING of a page (R538): a difference, or a write since the last apply or discard, which bit 3 of the
word kept at STAT holds. -/
def Device.stagePending (d : Device) (page : Nat) : Bool :=
  bit (d.get (page + 0xC)) 3 || (stagedWords page).any (fun e => d.changes page e.1 e.2)

/-- A staged module address. -/
def Device.stagedAddr (d : Device) (page o : Nat) : Nat := (d.staged page o + 2 ^ 32 * d.staged page (o + 4)) % 2 ^ 40

/-! ### Ranges -/

/-- Whether two half-open ranges share an address. -/
def rangesMeet (a b : Nat × Nat) : Bool := decide (a.1 < a.2) && decide (b.1 < b.2) && decide (a.1 < b.2) && decide (b.1 < a.2)

/-- Whether two ranges of a list share an address. -/
def anyMeet : List (Nat × Nat) → Bool
  | [] => false
  | r :: l => l.any (rangesMeet r) || anyMeet l

/-- The range of a tenant's region, by its base and size words (R567). -/
def regionRange (b s : Nat) : Nat × Nat := (bits b 22 0 * 0x10000, (bits b 22 0 + bits s 22 0) * 0x10000)

/-- The valid regions of the tenant page, live or staged: number, tenant and range. -/
def Device.regions (d : Device) (shift : Nat) : List (Nat × Nat × Nat × Nat) :=
  (List.range 128).filterMap (fun i =>
    let b := d.get (pageTen + 0x100 + 8 * i + shift)
    let s := d.get (pageTen + 0x104 + 8 * i + shift)
    if bit b 31 then some (i, bits b 29 24, regionRange b s) else none)

/-- The extent of a pool with its header area (R395). -/
def poolExtent (base pages granule : Nat) : Nat × Nat := (base, base + granuleUp (pages * granule + pages * granule / 128))

/-- The pools of a die, live or staged: enabled pools with their number and extent. -/
def Device.pools (d : Device) (die shift : Nat) : List (Nat × Nat × Nat) :=
  (List.range 4).filterMap (fun p =>
    let o := pagePst die + 0x100 + 16 * p + shift
    if bit (d.get (o + 12)) 31 then
      some (p, poolExtent (d.get64 o % 2 ^ 40) (d.get (o + 8)) (granuleOf (bits (d.get (o + 12)) 1 0))) else none)

/-- The billet regions, live or staged (R356). -/
def Device.billetRegions (d : Device) (shift : Nat) : List (Nat × Nat) :=
  let n := bits (d.get (pageBlt + 0x114 + shift)) 19 0 * 0x100000
  [0x104, 0x10C].map (fun o =>
    let a := d.get64 (pageBlt + o + shift) % 2 ^ 40
    (a, a + n))

/-- The range of the loaded plan image. -/
def Device.planRange (d : Device) : List (Nat × Nat) :=
  match d.heat.plan with
  | some q => [(q.addr, q.addr + q.totalLen)]
  | none => []

/-! ### The rules -/

/-- BLT_STATE (R380). -/
def Device.bltState (d : Device) : Nat := bits (d.get (pageBlt + 0x128)) 2 0

/-- A source of a test bus that R495 does not allow. -/
def Device.atbBad (d : Device) (src : Nat) : Bool :=
  if src < 8 then false else if src < 0x80 then true else !(bit (d.get (pageSec + 0x100)) 2)

/-- The rules of the monitor page (R498). -/
def Device.monitorRules (d : Device) (page : Nat) : List Bool :=
  let size := d.staged page 0x128
  let base := d.stagedAddr page 0x120
  let atb := d.get (page + 0x11C)
  [((List.range 32).map (fun i => 0x180 + 4 * i) ++ (List.range 4).map (fun i => 0x200 + 4 * i)).any (fun o =>
      decide (14 ≤ bits (d.staged page o) 3 0)),
   !((List.range 13).any (fun i => size == 2 ^ (8 + i))),
   (d.anyChange page [0x120, 0x124] && bit (d.get (page + 0x100)) 0) ||
     !(decide (sramBase ≤ base) && decide (base + 16 * size ≤ sramBase + 0x4000000)),
   d.atbBad (bits atb 7 0) || d.atbBad (bits atb 15 8)]

/-- The rules of the sync page (R262). -/
def Device.syncRules (d : Device) (page : Nat) : List Bool :=
  let range : Nat → Nat × Nat := fun i =>
    let q := d.staged page (0x200 + 4 * i)
    (bits q 13 0, bits q 13 0 + bits q 30 16)
  let busy : Nat × SyncObj → Bool := fun e =>
    d.sync.waiters.any (fun w => w.obj == e.1) ||
      (match e.2.val with
        | .counter v => v != 0
        | .flag on => on
        | .barrier _ cur next prev _ _ _ _ => cur != [] || next != [] || prev != [])
  let owner : Nat → Option Nat := fun o => (List.range 64).find? (fun i => decide ((range i).1 ≤ o) && decide (o < (range i).2))
  [anyMeet ((List.range 64).map range), (List.range 64).any (fun i => decide (16384 < (range i).2)),
   d.sync.objs.any (fun e => match d.tenantOf e.1 with
    | some i => owner e.1 != some i && busy e
    | none => false)]

/-- The rules of the page-store page (R310). -/
def Device.pageStoreRules (d : Device) (die page : Nat) : List Bool :=
  let pools := d.pools die 0x800
  let gran : Nat → Nat := fun p => bits (d.staged page (0x10C + 16 * p)) 1 0
  [pools.any (fun e => decide (e.2.1 < dramBase die) || decide (dramBase (die + 1) < e.2.2)),
   pools.any (fun e => e.2.1 % granuleOf (gran e.1) != 0), anyMeet (pools.map (·.2)),
   (List.range 4).any (fun p => gran p == 3),
   (List.range 4).any (fun p =>
     let held := d.heldIn die p
     held != [] && (!(bit (d.staged page (0x10C + 16 * p)) 31) || held.any (fun n => decide (d.staged page (0x108 + 16 * p) ≤ pageIndex n)) ||
       d.anyChange page [0x100 + 16 * p, 0x104 + 16 * p] || gran p != bits (d.get (page + 0x10C + 16 * p)) 1 0))]

/-- The rules of the KV store page (R312). -/
def Device.kvRules (d : Device) (page : Nat) : List Bool :=
  let h := BitVec.ofNat 32 (d.staged page 0x108)
  let n := bits (d.staged page 0x10C) 4 0
  [decide (h.toNat < 0x3F800000) || decide (0x7F800000 ≤ h.toNat) || !([1, 2, 4, 8, 16].contains n),
   d.anyChange page [0x100, 0x104, 0x10C, 0x110, 0x114, 0x118] &&
     d.serving.seqs.any (fun e => e.2.lists.any (fun l => l.ents != [] || l.pub != []))]

/-- The records whose STATE in memory is 1 to 5 (R315): an unlisted byte is zero. -/
def Part.busyRecords (p : Part) : List Nat :=
  let first := p.dev.recAddr 0 + 0x80
  (p.mem.bytes.filter (fun c => decide (first ≤ c.1) && (c.1 - first) % 320 == 0 && decide ((c.1 - first) / 320 < 8192) &&
    decide (1 ≤ c.2.toNat) && decide (c.2.toNat ≤ 5))).map (fun c => (c.1 - first) / 320)

/-- A record of the module is in STATE 1 to 5, found by a scan or not yet (R350, R576). -/
def Part.recordsBusy (p : Part) (who : Nat → Bool) : Bool :=
  p.dev.serving.reqs.any (fun e => who e.2.tenant) || p.dev.serving.dies.any (fun e => e.2.found.any (fun f => who f.2.1)) ||
  p.busyRecords.any (fun r => who (p.mem.nat (p.dev.recAddr r + 4) 1))

/-- The rules of the serving page (R348). -/
def Device.servingRules (d : Device) (page : Nat) : List Bool :=
  let w := d.staged page 0x100
  [decide (4096 < bits w 11 0 + bits w 23 12), decide (16 < bits w 28 24),
   d.planRuns && d.anyChange page [0x100, 0x104, 0x108, 0x110, 0x114]]

/-- The rules of the adapter page (R350). -/
def Part.adapterRules (p : Part) (page : Nat) : List Bool :=
  let d := p.dev
  let v := bits (d.staged page 0x12C) 18 0
  [v == 0 || decide (262144 < v),
   d.anyChange page [0x100, 0x104, 0x108, 0x10C, 0x110, 0x114, 0x118, 0x11C, 0x124, 0x128] && p.recordsBusy (fun _ => true)]

/-- The rules of the program page (R379). -/
def Device.programRules (d : Device) (page : Nat) : List Bool :=
  let n := d.staged page 0x104
  [n == 0 || decide (1024 < n), decide (d.staged page 0x10C < 4), decide (d.staged page 0x114 < d.staged page 0x110)]

/-- The rules of the billet page (R381). -/
def Device.billetRules (d : Device) (page : Nat) : List Bool :=
  let rs := d.billetRegions 0x800
  let hold := d.staged page 0x124
  let kind := (d.heat.plan.bind (fun q => q.heats[bits hold 15 0]?)).map (·.kind)
  [anyMeet rs, rs.any (fun r => decide (0x6000000000 < r.2) || (d.regions 0).any (fun e => rangesMeet r e.2.2)),
   decide (1 ≤ d.bltState) && decide (d.bltState ≤ 4) && d.anyChange page [0x104, 0x108, 0x10C, 0x110, 0x114],
   bit hold 31 && kind != some 2]

/-- A DRAM repair of a die is still copying (R415). -/
def Device.copying (d : Device) (die : Nat) : Bool := (smapGet d.mems {} die).copy.isSome

/-- The rules of the memory page (R415). -/
def Device.memoryRules (d : Device) (die page : Nat) : List Bool :=
  let w := d.staged page 0x144
  let on := bit w 31
  [on && (if bit w 30 then decide (6143 < bits w 20 8) else decide (12582911 < bits w 23 0)), on && die == 4 && !(bit w 30),
   on && d.anyChange page [0x144] && d.copying die]

/-- The case of R420 (readings: log entry 44). -/
def Device.portKeysMissing (d : Device) (port cfg : Nat) : Bool :=
  bit cfg 31 && ((bits cfg 1 0 == 2 && !(bit (d.get (pageSec + 0x100)) 0)) ||
    (bits cfg 1 0 == 1 && bit cfg 12 && !(d.mesh.keyed.contains port)))

/-- The rules of a port page (R459). -/
def Device.portRules (d : Device) (port page : Nat) : List Bool :=
  let cfg := d.staged page 0x100
  let old := d.get (page + 0x100)
  let mode := bits cfg 1 0
  [mode == 2 && (!d.mesh.bridgeSel || decide (port < 6)), mode == 1 && d.mesh.bridgeSel && decide (6 ≤ port),
   mode == 2 && bits cfg 6 4 == 0, d.portKeysMissing port cfg,
   d.planRuns && (mode != bits old 1 0 || bit cfg 8 != bit old 8)]

/-- The rules of the BHT page (R463). -/
def Device.bhtRules (d : Device) (page : Nat) : List Bool :=
  let cfg := d.staged page 0x124
  let w := d.staged page 0x128
  [bits cfg 1 0 == 3, decide (w < 64) || decide (1024 < w), bits cfg 23 16 == 0,
   d.anyChange page [0x100, 0x104, 0x108, 0x10C, 0x120] && d.bht.sessions.any (fun e => e.2.isOpen)]

/-- The rules of the thermal page (R500). -/
def Device.thermalRules (d : Device) (page : Nat) : List Bool :=
  let warn := signed 16 (d.staged page 0x12C)
  let ivl := d.staged page 0x138
  let lead := d.staged page 0x13C
  [decide (1680 < warn), decide (warn ≤ signed 16 (d.staged page 0x134)), decide (ivl < 1000) || decide (100000 < ivl),
   decide (lead < 100000) || decide (10000000 < lead), d.staged page 0x154 == 0]

/-- The rules of the power page (R532). -/
def Device.powerRules (d : Device) (page : Nat) : List Bool :=
  let lim := d.staged page 0x124
  let s1 := d.staged page 0x108
  let s3 := d.staged page 0x110
  [decide (lim < 4000) || decide (10000 < lim), s1 != 0 && decide (s1 < 10),
   bit s3 31 && decide (1000 * bits s3 15 0 < d.staged page 0x10C)]

/-- The parts of a region that a commit takes from its tenant (R576): the old range less the new one. -/
def rangeLess (a b : Nat × Nat) : List (Nat × Nat) :=
  if rangesMeet a b then [(a.1, b.1), (b.2, a.2)].filter (fun r => decide (r.1 < r.2)) else [a].filter (fun r => decide (r.1 < r.2))

/-- The regions withdrawn or shrunk by the staged tenant page: tenant and range. -/
def Device.withdrawn (d : Device) : List (Nat × Nat × Nat) :=
  (d.regions 0).flatMap (fun e =>
    let new := (d.regions 0x800).find? (fun f => f.1 == e.1 && f.2.1 == e.2.1)
    (match new with
      | some f => rangeLess e.2.2 f.2.2
      | none => rangeLess e.2.2 (0, 0)).map (fun r => (e.2.1, r)))

/-- The ranges that the module is still clearing after they were withdrawn. -/
def Device.clearing (d : Device) : List (Nat × Nat) :=
  d.mems.flatMap (fun e => (e.2.clears.filter (·.tenant)).map (fun c => (64 * c.lo, 64 * c.hi)))

/-- The rules of the tenant page (R576). -/
def Part.tenantRules (p : Part) : List Bool :=
  let d := p.dev
  let new := d.regions 0x800
  let other := (List.range 4).flatMap (fun die => (d.pools die 0).map (·.2)) ++ d.billetRegions 0 ++ d.planRange
  [anyMeet (new.map (·.2.2)),
   new.any (fun e => decide (0x6000000000 < e.2.2.2) || other.any (rangesMeet e.2.2)),
   (List.range 64).any (fun t => decide (16 < (new.filter (fun e => e.2.1 == t)).length)),
   d.withdrawn.any (fun e => p.recordsBusy (· == e.1) || d.bht.sessions.any (fun s => s.2.isOpen && s.2.role == e.1)),
   new.any (fun e => !((d.regions 0).contains e) && d.clearing.any (rangesMeet e.2.2))]

/-- The rules of the history page (R592). -/
def Device.historyRules (d : Device) (page : Nat) : List Bool :=
  let n := d.staged page 0x118
  let tj := bits (d.staged page 0x10C) 15 8
  let a := d.stagedAddr page 0x110
  [decide (4096 < n), decide (tj < 85) || decide (100 < tj),
   n != 0 && !(decide (sramBase ≤ a) && decide (a + 32 * n ≤ sramBase + 0x4000000))]

/-- The conditions of a page's own rule in their order: true where one fails (R556) (readings: log entry 49). -/
def Part.pageRules (p : Part) (page : Nat) : List Bool :=
  let d := p.dev
  let die := if offDie page = 8 then 4 else offDie page
  match pageKind page with
  | some .numerics => [(List.range 8).any (fun t => decide (5 ≤ bits (d.staged page (0x140 + 4 * t)) 26 24))]
  | some .sync => d.syncRules page
  | some .pageStore => d.pageStoreRules die page
  | some .kvStore => d.kvRules page
  | some .serving => d.servingRules page
  | some .adapter => p.adapterRules page
  | some .program => d.programRules page
  | some .billet => d.billetRules page
  | some .memory => d.memoryRules die page
  | some .port => d.portRules (offBlock page - 0x40) page
  | some .mesh => [decide (d.staged page 0x114 < 1000) || decide (50000 < d.staged page 0x114)]
  | some .bht => d.bhtRules page
  | some .monitor => d.monitorRules page
  | some .thermal => d.thermalRules page
  | some .power => d.powerRules page
  | some .tenant => p.tenantRules
  | some .history => d.historyRules page
  | _ => []

/-- The code of the first condition that a page fails (R556) (readings: log entry 49). -/
def Part.pageFailure (p : Part) (page : Nat) : Option Nat := ((p.pageRules page).findIdx? id).map (0x80 + ·)

end Sys2Proof.Machine
end

