-- ==== Sys2Proof/Machine/Fence.lean ====
section
/-! DEFINITION. Spare anvils, fences and repairs (R5, R87, R88, R410 to R412, R587, R588). -/

namespace Sys2Proof.Machine

/-- The byte of a logical anvil in the map of a core, live or staged (R96). -/
def Device.mapByte (d : Device) (c l shift : Nat) : Nat := bits (d.get (pageMap c + 0x100 + 4 * (l / 4) + shift)) (8 * (l % 4) + 7) (8 * (l % 4))

/-- The physical anvils that the valid entries of a core's map name. -/
def Device.mappedSet (d : Device) (c shift : Nat) : List Nat :=
  ((List.range 64).map (fun l => d.mapByte c l shift)).filterMap (fun b => if bit b 7 then some (b % 128) else none)

/-- A physical anvil is free to receive a logical anvil (R87, R96) (readings: log entry 32). -/
def Device.spareFree (d : Device) (c a : Nat) : Bool :=
  decide (a < 68) && !(d.retired (68 * c + a)) && !((d.mappedSet c 0).contains a) && !(d.isFenced c)

/-- The free spares of a core. -/
def Device.spares (d : Device) (c : Nat) : List Nat := (List.range 68).filter (fun a => d.spareFree c a)

/-- The history changed. -/
def Device.onHist (d : Device) (f : History → History) : Device := { d with hist := f d.hist }

/-- A module fault raised on FAULT_N: the module leaves service (R43, R587). -/
def Device.moduleFault (d : Device) : Device := { d with power := { d.power with fault := true } }.leaveService

/-- An anvil in the list of those to be retired to a re-forged spare (R79, R87). -/
def Device.queueRetire (d : Device) (u : Nat) : Device :=
  if d.billet.retire.contains u then d else { d with billet := { d.billet with retire := d.billet.retire ++ [u] } }

/-- A core fenced (R588): its sequencer issues nothing, and the module reports the changed core set at the next boundary. -/
def Device.fenceCore (d : Device) (c : Nat) : Device :=
  (d.onHist (fun h => { h with fences := setInsert h.fences c })).onHeat (fun h => { h with stale := true })

/-- The repairs of the fuse map and of the repair record (R409). -/
def Device.allRepairs (d : Device) : List Repair := d.rom.fuses.repairs ++ d.hist.repairs

/-- Spare blocks of a stack, and spare rows of a core store, that no repair has taken (R409). -/
def Device.spareBlocks (d : Device) (stack : Nat) : Nat := 128 - (d.allRepairs.filter (fun r => r.dram && r.unit == stack)).length
def Device.spareRows (d : Device) (c : Nat) : Nat := 16 - (d.allRepairs.filter (fun r => !r.dram && r.unit == c)).length

/-- The device with what a memory page has in hand changed. -/
def Device.onMems (d : Device) (die : Nat) (f : MemCtl → MemCtl) : Device := { d with mems := smapSet d.mems die (f (smapGet d.mems {} die)) }

/-- The address at which block k of a stack begins (R409). -/
def blockAddr (stack k : Nat) : Nat := stack / 2 * 0x1800000000 + 0x2000 * k + 0x1000 * (stack % 2)

/-- A DRAM block's repair begins, or finds no spare (R410, R412) (readings: log entry 48). -/
def Device.repairBlock (d : Device) (stack k : Nat) : Device :=
  let die := stack / 2
  if d.spareBlocks stack = 0 then d.memEvent (blockAddr stack k) 6 stOk
  else d.onMems die (fun m => { m with copy := some (stack % 2, k) })

/-- A core-store row's repair recorded, or no spare found (R411, R412) (readings: log entry 48). -/
def Device.repairRow (d : Device) (c row : Nat) : Device :=
  if d.spareRows c = 0 then d.memEvent (storeBase c + 1024 * row) 6 stOk
  else d.onHist (fun h => { h with repairs := h.repairs ++ [⟨false, c, row⟩] })

/-! ### Fences of permanent slots (R587) -/

/-- A slot fenced: its state, the event and the count. -/
def Device.slotFenced (d : Device) (unit cls : Nat) : Device :=
  let mark : Summary → Summary := fun r =>
    { r with slots := r.slots.map (fun s => if s.cls == cls && s.state == 1 then { s with state := 2 } else s) }
  let d := d.onHist (fun h => { h with summaries := smapSet h.summaries unit (mark (smapGet h.summaries {} unit)) })
  (d.count (pageHis + 0x144)).event pageHis 2 (2 * 0x100 + cls * 0x10000) [unit, d.hist.sec]

/-- The address in the newest log entry of a unit and class. -/
def Device.faultAddr (d : Device) (unit cls : Nat) : Nat :=
  match (d.hist.log.filter (fun e => e.unit == unit && e.cls == cls)).getLast? with
  | some e => e.detail.getD 0 0 + 2 ^ 32 * e.detail.getD 1 0
  | none => 0

/-- The fence of one permanent slot, at a maintenance commit; a repair without a spare is not applied, and fences nothing (R412, R587) (readings: log entry 51). -/
def Device.fenceSlot (d : Device) (unit cls : Nat) : Device :=
  let core := bits unit 27 24 * 128
  match bits unit 31 28 with
  | 0 =>
    let c := core + bits unit 15 8
    if d.retired (68 * c + bits unit 7 0) then d.slotFenced unit cls
    else if (d.spares c) == [] then (d.fenceCore c).slotFenced unit cls
    else d.queueRetire (68 * c + bits unit 7 0)
  | 1 =>
    let c := core + unit % 128
    if cls = 5 then
      let e := d.repairRow c ((d.faultAddr unit cls - storeBase c) / 1024)
      if d.spareRows c = 0 then e else e.slotFenced unit cls
    else (d.fenceCore c).slotFenced unit cls
  | 4 =>
    let stack := bits unit 27 24
    if d.copying (stack / 2) then d
    else if d.spareBlocks stack = 0 then d.repairBlock stack (bits unit 23 0)
    else (d.repairBlock stack (bits unit 23 0)).slotFenced unit cls
  | _ => if d.power.fault then d else d.moduleFault

/-- The cores that must retire an anvil and have no free spare fenced (R88, R371). -/
def Device.fenceSpareless (d : Device) : Device :=
  let lost := d.billet.retire.filter (fun u => d.spares (u / 68) == [])
  (lost.foldl (fun d u => d.fenceCore (u / 68)) d) |> fun d =>
    { d with billet := { d.billet with retire := d.billet.retire.filter (fun u => !(lost.contains u)) } }

/-- A failed router fenced with its core: it takes no new packets, and its tables follow once it is empty (R42) (readings: log
entry 64). -/
def Device.fenceRouter (d : Device) (c : Nat) : Device :=
  let held := d.transfers.filter (fun t => d.passes c t)
  ((d.onHist (fun h => { h with dead := setInsert h.dead c })).fenceCore c).onFabric (fun f =>
    { f with failed := setErase f.failed c, closing := smapSet f.closing c held })

/-- Every failed router fenced (R42). -/
def Device.fenceRouters (d : Device) : Device := (d.fabric.failed.foldl (fun d c => d.fenceRouter c) d).settleRouters

/-- Every permanent slot of the history and every failed router fenced with a maintenance commit, unless FENCE_HOLD holds
them (R42, R587) (readings: log entries 49, 51). -/
def Device.applyFences (d : Device) : Device :=
  if bit (d.get (pageHis + 8)) 2 then d
  else
    let d := d.fenceSpareless.fenceRouters
    (d.hist.summaries.flatMap (fun e => (e.2.slots.filter (fun s => s.state == 1)).map (fun s => (e.1, s.cls)))).foldl
      (fun d e => d.fenceSlot e.1 e.2) d

end Sys2Proof.Machine
end

