-- ==== Sys2Proof/Machine/Commit.lean ====
section
/-! DEFINITION. The commit controller: submission, checks, pending commits, application and withdrawal (R87, R91, R546 to
R558, R576, R620). -/

namespace Sys2Proof.Machine

/-- The commit controller changed. -/
def Device.onCommits (d : Device) (f : CommitCtl → CommitCtl) : Device := { d with commits := f d.commits }

/-- The commits that are pending (R549). -/
def Device.pendingCommits (d : Device) : List Commit := d.commits.commits.filter (·.pending)

/-! ### Controller rules (R556) -/

/-- The core whose page an offset names. -/
def pageCore (page : Nat) : Option Nat :=
  if offDie page < 4 ∧ 0x80 ≤ offUnit page then some (128 * offDie page + offUnit page - 0x80) else none

/-- Whether a page is present: listed, and not of a core whose router is dead (R535). -/
def Device.pageHere (d : Device) (page : Nat) : Bool :=
  page % 0x1000 == 0 && (pageKind page).isSome && (match pageCore page with
    | some c => !(d.isDead c)
    | none => true)

/-- Whether a page belongs to a fenced core. -/
def Device.pageFenced (d : Device) (page : Nat) : Bool :=
  match pageCore page with
  | some c => d.isFenced c
  | none => false

/-- Whether a page is held (R549). -/
def Device.pageHeld (d : Device) (page : Nat) : Bool := bit (d.get (page + 0x40)) 8

/-- The entries of a commit's list. -/
def Part.commitPages (p : Part) (c : Commit) : List Nat :=
  if c.hk then c.pages else (List.range c.n).map (fun i => p.mem.nat (c.list + 4 * i) 4)

/-- Rule 0x01, with the failing entry. -/
def Part.rule01 (p : Part) (c : Commit) : Option Nat :=
  if c.hk then (if c.pages = [] ∨ 8704 < c.pages.length then some 0 else none)
  else if c.n = 0 ∨ 256 < c.n ∨ c.list < sramBase ∨ sramBase + 0x4000000 < c.list + 4 * c.n then some 0
  else match p.mem.poisonIn c.list (4 * c.n) with
    | [] => none
    | g :: _ => some ((64 * g - c.list + 3) / 4)

/-- The place of an entry that an earlier one equals. -/
def repeated (l : List Nat) : Option Nat := (List.range l.length).find? (fun i => (l.take i).contains (l.getD i 0))

/-- The first failing controller rule with its entry, in increasing rule number (readings: log entry 49). -/
def Part.controllerFailure (p : Part) (c : Commit) (pages : List Nat) : Option (Nat × Nat) :=
  let d := p.dev
  let first : (Nat → Bool) → Option Nat := fun f => pages.findIdx? f
  [(p.rule01 c).map (1, ·),
   (first (fun g => !(d.pageHere g) || stagedWords g == [])).map (2, ·),
   (repeated pages).map (3, ·),
   (first (fun g => d.pageHeld g)).map (4, ·),
   if c.apply < c.submitted + d.get (pageCom + 0x120) then some (5, 0) else none,
   if 64 ≤ d.pendingCommits.length then some (6, 0) else none,
   (first (fun g => d.pageFenced g)).map (7, ·)].findSome? id

/-! ### Cross-block rules -/

/-- The logical anvils whose map entry changes, on the map page of a core. -/
def Device.movedEntries (d : Device) (c : Nat) : List Nat := (List.range 64).filter (fun l => d.mapByte c l 0 != d.mapByte c l 0x800)

/-- Rule 0x08 on a map page. -/
def Device.rule08 (d : Device) (pages : List Nat) (c : Nat) : Bool :=
  (d.movedEntries c).any (fun l =>
    let b := d.mapByte c l 0x800
    bit b 7 && !(pages.contains (pageAnvil c (b % 128))))

/-- Rule 0x09 on a map page. -/
def Device.rule09 (d : Device) (c : Nat) : Bool :=
  let named := d.mappedSet c 0x800
  named.any (fun a => decide (67 < a) || d.retired (68 * c + a) || decide (1 < (named.filter (· == a)).length)) ||
  (d.movedEntries c).any (fun l =>
    let b := d.mapByte c l 0x800
    bit b 7 && !(d.spareFree c (b % 128)) && !(bit (d.mapByte c l 0) 7 && d.mapByte c l 0 % 128 == b % 128))

/-- Rule 0x0C on a map page. -/
def Device.rule0C (d : Device) (c : Nat) : Bool :=
  (d.movedEntries c).any (fun l =>
    let b := d.mapByte c l 0x800
    let page := pageAnvil c (b % 128)
    bit b 7 && ((bits (d.staged page 0x100) 11 0 == 0x800 && bits (d.staged page 0x100) 23 16 == 0) || d.staged page 0x104 == 0))

/-- Whether a page fails a cross-block rule (readings: log entry 49). -/
def Device.crossRule (d : Device) (maint : Bool) (pages : List Nat) (rule page : Nat) : Bool :=
  match pageKind page, pageCore page with
  | some .anvilMap, some c =>
    if rule = 8 then d.rule08 pages c
    else if rule = 9 then d.rule09 c
    else if rule = 0xB then !maint && d.movedEntries c != []
    else d.rule0C c
  | some .memory, _ => rule == 0xB && !maint && d.anyChange page [0x144]
  | _, _ => false

/-- The first failing page rule, then the first failing cross-block rule, with its entry (readings: log entry 49). -/
def Part.setFailure (p : Part) (maint : Bool) (pages : List Nat) : Option (Nat × Nat) :=
  match pages.zipIdx.findSome? (fun e => (p.pageFailure e.1).map (fun r => (r, e.2))) with
  | some f => some f
  | none => [8, 9, 0xB, 0xC].findSome? (fun r => (pages.findIdx? (fun g => p.dev.crossRule maint pages r g)).map (fun i => (r, i)))

/-! ### Outcomes (R548, R549, R553) -/

/-- CC_RESULT set while the commit is the last SUBMIT written to CTRL (R547, R620). -/
def Device.showResult (d : Device) (c : Commit) (outcome rule index : Nat) : Device :=
  if !c.hk && d.get (pageCom + 0x114) == c.tag then d.set (pageCom + 0x118) (outcome + rule * 0x100 + index % 256 * 0x10000) else d

/-- A page no longer held. -/
def Device.release_ (d : Device) (page : Nat) : Device := d.set (page + 0x40) 0

/-- A commit taken off the list. -/
def Device.dropCommit (d : Device) (tag : Nat) : Device := d.onCommits (fun c => { c with commits := c.commits.filter (fun x => x.tag != tag) })

/-- A commit fails at a rule and an entry (R548, R551). -/
def Device.failCommit (d : Device) (c : Commit) (pages : List Nat) (rule index : Nat) : Device :=
  let d := if c.pending then pages.foldl (fun d g => d.release_ g) d else d
  let bad := pages.getD index 0
  let d := if rule = 1 ∨ rule = 5 ∨ rule = 6 then d
    else pages.foldl (fun d g => if d.pageHere g then
      d.set (g + 0x44) (c.tag * 0x10000 + rule * 0x100 + (if g = bad then 2 else 3)) else d) d
  let d := ((d.count (pageCom + 0x138)).event pageCom 1 (0x100 + rule * 0x10000) [c.tag, if rule = 5 ∨ rule = 6 then 0 else bad])
  (d.showResult c 3 rule index).dropCommit c.tag

/-- A commit that has passed its checks holds its pages (R549). -/
def Device.holdCommit (d : Device) (c : Commit) (pages : List Nat) : Device :=
  let d := pages.foldl (fun d g => (d.set (g + 0x40) (c.tag * 0x10000 + 0x100)).set64 (g + 0x48) c.apply) d
  let d := d.onCommits (fun k => { k with commits := k.commits.map (fun x => if x.tag = c.tag then { x with pending := true, pages := pages } else x) })
  d.showResult c 1 0 0

/-- COMMIT_CHECK_DONE (R548): the oldest commit that is being checked (readings: log entry 49). -/
def opCommitCheckDone (p : Part) : Part :=
  match p.dev.commits.commits.find? (fun c => !c.pending) with
  | none => p
  | some c =>
    let p := if c.hk then p else p.touch c.list (4 * Nat.min c.n 256)
    let pages := if (p.rule01 c).isSome then [] else p.commitPages c
    match p.controllerFailure c pages with
    | some (r, i) => p.onDev (·.failCommit c pages r i)
    | none => match p.setFailure c.maint pages with
      | some (r, i) => p.onDev (·.failCommit c pages r i)
      | none => p.onDev (·.holdCommit c pages)

/-- The next tag (R547). -/
def Device.newTag (d : Device) : Nat × Device :=
  (d.commits.nextTag, d.onCommits (fun c => { c with nextTag := (c.nextTag + 1) % 2 ^ 16 }))

/-- SUBMIT (R547) (readings: log entry 49). -/
def opSubmit (d : Device) : Device :=
  let (tag, d) := d.newTag
  let n := d.get (pageCom + 0x108)
  let c : Commit :=
    { tag := tag, list := d.get64 (pageCom + 0x100) % 2 ^ 40, n := bits n 8 0, maint := bit n 16, apply := d.get64 (pageCom + 0x10C)
      submitted := d.now }
  (((d.onCommits (fun k => { k with commits := k.commits ++ [c] })).count (pageCom + 0x130)).set (pageCom + 0x114) tag).set (pageCom + 0x118) 0

/-- A set submitted on the housekeeping processor's path (R620) (readings: log entry 49). -/
def Device.hkSubmit (d : Device) (pages : List Nat) (apply : Nat) (temper : Bool) : Device :=
  let (tag, d) := d.newTag
  let c : Commit := { tag := tag, pages := pages, apply := apply, submitted := d.now, hk := true, temper := temper }
  (d.onCommits (fun k => { k with commits := k.commits ++ [c] })).count (pageCom + 0x130)

/-- A pending commit withdrawn: its pages are released (R553). -/
def Device.withdrawCommit (d : Device) (tag : Nat) : Device :=
  match d.pendingCommits.find? (fun c => c.tag == tag) with
  | none => d
  | some c =>
    let d := (c.pages.foldl (fun d g => d.release_ g) d).event pageCom 3 0x300 [c.tag, 0]
    (d.showResult c 3 0 0).dropCommit c.tag

/-- WITHDRAW (readings: log entry 49). -/
def opWithdraw (d : Device) : Device := d.withdrawCommit (bits (d.get (pageCom + 0x124)) 15 0)

/-! ### Application (R87, R91, R550 to R552) -/

/-- The staged bits of a page made live. -/
def Device.copyStaged (d : Device) (page : Nat) : Device :=
  (stagedWords page).foldl (fun d e =>
    let live := d.get (page + e.1)
    d.set (page + e.1) (live - Nat.land live e.2 + Nat.land (d.staged page e.1) e.2)) d

/-- A trim commit of an anvil (R91): TRIM_VALID set, CAL_COUNT and CAL_TICK advanced. Without a valid trim record the
trims stay at the mid-codes, and an anvil that is programmed in place stays without them (readings: log entry 56). -/
def Device.trimCommit (d : Device) (u tick : Nat) : Device :=
  let page := pageAnv u
  if !(bit (d.get (pagePwr + 0x160)) 1) then d.set (page + 0x100) 0x800
  else if (d.anvil u).inPlace then d
  else ((d.setBits (page + 0x100) 31 31 1).count (page + 0x19C)).set64 (page + 0x1A0) tick

/-- The anvils that a map commit leaves retire in the same cycle (R87, R556) (readings: log entry 54). -/
def Device.retireMoved (d : Device) (c : Nat) (old : List Nat) : Device :=
  let new := d.mappedSet c 0
  (old.filter (fun a => !(new.contains a))).foldl (fun d a =>
    let u := 68 * c + a
    let d := d.setFlash u { d.flash u with retired := true }
    { d with billet := { d.billet with retire := d.billet.retire.filter (· != u) } }) d

/-- A range of addresses cut at the dies' bounds and into commands of at most 1,048,576 granules (R576). -/
def clearParts (r : Nat × Nat) : List (Nat × ClearRange) :=
  (List.range 4).flatMap (fun die =>
    let lo := Nat.max r.1 (dramBase die) / 64
    let hi := Nat.min r.2 (dramBase (die + 1)) / 64
    (List.range ((hi - lo + 1048575) / 1048576)).map (fun i =>
      (die, ({ lo := lo + 1048576 * i, hi := Nat.min hi (lo + 1048576 * (i + 1)), tenant := true } : ClearRange))))

/-- A range queued for clearing on its die; the first makes VM_CLR_STAT busy (R393) (readings: log entry 48). -/
def Device.startClear (d : Device) (die : Nat) (c : ClearRange) : Device :=
  (d.onMems die (fun m => { m with clears := m.clears ++ [c] })).set (pageMem die + 0x150) 0

/-- The requested repair of the memory page (R410, R411) (readings: log entry 48). -/
def Device.applyRepair (d : Device) (die : Nat) : Device :=
  let w := d.get (pageMem die + 0x144)
  if !(bit w 31) then d
  else if bit w 30 then d.repairRow (128 * die + bits w 6 0) (bits w 20 8)
  else d.repairBlock (2 * die + flag (bit w 24)) (bits w 23 0)

/-- The staged image of the tenant page (R563). -/
def Device.tenantImage (d : Device) : List Byte := (List.range 384).flatMap (fun i => leBytes 4 (d.get (pageTen + 0x900 + 4 * i)))

/-- A port whose PORT_CFG is live (R420): it transmits while EN is 1. -/
def Device.applyPort (d : Device) (page : Nat) : Device :=
  if bit (d.get (page + 0x100)) 31 then d.setBits (page + 0x104) 4 4 0
  else d.set (page + 0x104) (withBits (withBits (d.get (page + 0x104)) 3 0 0) 4 4 1)

/-- A monitor converter's settings as a start of step 0 finds them (R471) (readings: log entry 57). -/
def Device.latchConverter (d : Device) (p : Nat) : Device :=
  let page := pageMon p
  let words := fun o n => (List.range n).map (fun i => d.get (page + o + 4 * i))
  let c : Converter := { smapGet d.hk.converters {} p with
    cfg := d.get (page + 0x100), steps := words 0x180 32, inj := words 0x200 4 }
  { d with hk := { d.hk with converters := smapSet d.hk.converters p c } }

/-- A converter that stands takes its new settings at once (R471). -/
def Device.applyMonitor (d : Device) (page : Nat) (ring : Bool) : Device :=
  let p := if offDie page = 8 then 4 else offDie page
  let d := if ring then d.set (page + 0x12C) 0 else d
  if bit (smapGet d.hk.converters {} p).cfg 0 then d else d.latchConverter p

/-- A page applied: its staged bits live, and what they bring about (readings: log entry 49). -/
def Device.applyPage (d : Device) (page tick : Nat) : Device :=
  let die := if offDie page = 8 then 4 else offDie page
  let moved := d.anyChange page [0x144]
  let ring := d.anyChange page [0x120, 0x124, 0x128]
  let cleared := if page = pageTen then (d.withdrawn).flatMap (fun e => clearParts e.2) else []
  let image := d.tenantImage
  let old := match pageCore page with
    | some c => d.mappedSet c 0
    | none => []
  let d := d.copyStaged page
  match pageKind page, pageCore page with
  | some .anvil, some c => d.trimCommit (68 * c + (offBlock page - 0x40)) tick
  | some .anvilMap, some c => d.retireMoved c old
  | some .memory, _ => if moved then d.applyRepair die else d
  | some .monitor, _ => d.applyMonitor page ring
  | some .port, _ => d.applyPort page
  | some .tenant, _ => (cleared.foldl (fun d e => d.startClear e.1 e.2) d).extendMr 5 (sha256 image)
  | _, _ => d

/-- What an applied page shows (R538, R552). -/
def Device.showApplied (d : Device) (page tag tick : Nat) : Device :=
  (((d.set (page + 0x40) 0).set (page + 0x44) (tag * 0x10000 + 1)).set64 (page + 0x48) tick).set (page + 0xC) 0

/-- The reference corrections that a die's temper commit brings (R493) (readings: log entry 56). -/
def Device.applyReference (d : Device) (die tick : Nat) : Device :=
  match smapFind d.hk.refStaged die with
  | none => d
  | some step =>
    let high := decide (1000 < (signed 32 (d.get (pageThm + 0x184 + 4 * die))).natAbs)
    let d := { d with hk := { d.hk with
      refStaged := smapErase d.hk.refStaged die
      refTrim := smapSet d.hk.refTrim die (smapGet d.hk.refTrim 0 die + step)
      refHigh := if high then smapSet d.hk.refHigh die (smapGet d.hk.refHigh 0 die + 1) else d.hk.refHigh } }
    (d.count (pageThm + 0x198 + 4 * die)).set64 (pageThm + 0x1B0 + 8 * die) tick

/-- A commit applied at a tick, or failed by the rule that its set fails then. -/
def Device.applySet (d : Device) (c : Commit) (tick : Nat) (failure : Option (Nat × Nat)) : Device :=
  match failure with
  | some (r, i) => d.failCommit c c.pages r i
  | none =>
    let d := c.pages.foldl (fun d g => (d.applyPage g tick).showApplied g c.tag tick) d
    let d := if c.maint then d.applyFences else d
    let d := if c.temper then
      (dedup (c.pages.map offDie)).foldl (fun d die => d.applyReference die tick) (d.count (pageThm + 0x174)) else d
    (((d.count (pageCom + 0x134)).raise pageCom 0).showResult c 2 0 0).dropCommit c.tag

/-- A commit applied at a tick: its set is checked again (R551). -/
def Part.applyCommit (p : Part) (c : Commit) (tick : Nat) : Part := p.onDev (·.applySet c tick (p.setFailure c.maint c.pages))

/-- Whether a pending commit applies at a heat start (R550) (readings: log entry 49). -/
def Commit.dueAt (c : Commit) (start : Nat) (maintHeat : Bool) : Bool := c.pending && decide (c.apply ≤ start) && (!c.maint || maintHeat)

/-- Every pending commit that is due at a heat start, in the order of their tags' submission (R200, R552). -/
def Part.applyDue (p : Part) (start : Nat) (maintHeat : Bool) : Part :=
  (p.dev.commits.commits.filter (fun c => c.dueAt start maintHeat)).foldl (fun p c => p.applyCommit c start) p

/-- COMMIT_APPLY (R550): while no plan runs, a pending commit applies at its apply tick (readings: log entry 49). -/
def opCommitApply (tag : Nat) (p : Part) : Part :=
  if p.dev.planRuns then p
  else match p.dev.pendingCommits.find? (fun c => c.tag == tag) with
    | none => p
    | some c =>
      let p := p.onDev (·.reach c.apply)
      p.applyCommit c p.dev.now

/-- The pending commit that holds a page fails because the page was reset (R554). -/
def Device.failHeld (d : Device) (page : Nat) : Device :=
  match d.pendingCommits.find? (fun c => c.pages.contains page) with
  | none => d
  | some c => d.failCommit c c.pages 0xA ((c.pages.findIdx? (· == page)).getD 0)

def execSubmit (agent : Agent) (s : State) : Host.Outcome State Fault Refusal := s.onDev (fun d => d.written agent.toNat opSubmit)
def execHkCommitSubmit (pages : List U32) (apply : Tick) (temper : Bool) (s : State) : Host.Outcome State Fault Refusal :=
  s.onDev (fun d => d.hkSubmit (pages.map (·.toNat)) apply.toNat temper)
def execCommitCheckDone (s : State) : Host.Outcome State Fault Refusal := s.onPart opCommitCheckDone
def execCommitApply (tag : BitVec 16) (s : State) : Host.Outcome State Fault Refusal := s.onPart (opCommitApply tag.toNat)
def execWithdraw (agent : Agent) (s : State) : Host.Outcome State Fault Refusal := s.onDev (fun d => d.written agent.toNat opWithdraw)

end Sys2Proof.Machine
end

