-- ==== Sys2Proof/Machine/Monitor.lean ====
section
/-! DEFINITION. The monitor converters: sequences, triggers, results, the ring buffer and self-calibration (R465 to
R476). A converter is named by its die, 4 for the Phievo die. -/

namespace Sys2Proof.Machine

/-- A converter's state. -/
def Device.converter (d : Device) (p : Nat) : Converter := smapGet d.hk.converters {} p
/-- The device with a converter's state changed. -/
def Device.onConverter (d : Device) (p : Nat) (f : Converter → Converter) : Device :=
  { d with hk := { d.hk with converters := smapSet d.hk.converters p (f (d.converter p)) } }

/-- A differential channel (R466). -/
def differential (ch : Nat) : Bool := [0, 4, 10, 11, 12].contains ch

/-- The fields of MC_STAT (R497). -/
def Device.mcStat (d : Device) (p : Nat) : Nat := d.get (pageMon p + 0x104)
def Device.setStat (d : Device) (p hi lo v : Nat) : Device := d.setBits (pageMon p + 0x104) hi lo v

/-! ### Results (R472, R473, R476) -/

/-- A result word from the mean of a step's samples in 1/128 of a code: corrected by MC_CALF, rounded, and limited to the
format (R472, R476). -/
def Device.resultWord (d : Device) (p ch : Nat) (mean : Int) : Nat :=
  if p = 4 ∧ ch = 3 then 0 else
  let calf := d.get (pageMon p + 0x114)
  let v := mean * (65536 + signed 16 (calf % 65536)) + signed 16 (calf / 65536) * 524288
  let left := bit (d.converter p).cfg 1
  let r := roundAway (if left then 16 * v else v) 8388608
  let lim : Int := if left then 65536 else 4096
  toTwos 16 (if differential ch then clampInt r (-(lim / 2)) (lim / 2 - 1) else clampInt r 0 (lim - 1))

/-- A result word as a number of its channel (R473). -/
def resultValue (ch w : Nat) : Int := if differential ch then signed 16 w else ((w % 65536 : Nat) : Int)

/-- CH_MINMAX with one more result (R473) (readings: log entry 57). -/
def Device.takeMinmax (d : Device) (p ch w : Nat) : Device :=
  let o := pageMon p + 0x240 + 4 * ch
  if !((d.converter p).held.contains ch) then
    (d.set o (w + w * 0x10000)).onConverter p (fun c => { c with held := setInsert c.held ch })
  else
    let old := d.get o
    let lo := if resultValue ch w < resultValue ch (old % 65536) then w else old % 65536
    let hi := if resultValue ch (old / 65536) < resultValue ch w then w else old / 65536
    d.set o (lo + hi * 0x10000)

/-- Whether a result lies outside its channel's window (R473). -/
def Device.outsideWindow (d : Device) (p ch w : Nat) : Bool :=
  let c := d.get (pageMon p + 0x280 + 4 * ch)
  let lo := resultValue ch (c % 65536)
  let hi := resultValue ch (c / 65536)
  c != 0xFFFF && decide (lo ≤ hi) && (decide (resultValue ch w < lo) || decide (hi < resultValue ch w))

/-- An event of the monitor page (R501). -/
def Device.monEvent (d : Device) (p b w ch step : Nat) : Device := d.eventSt (pageMon p) b stOk [w + ch * 0x10000, step]

/-- A ring entry (R474). -/
def ringEntry (tick w ch step die : Nat) (inj outside align : Bool) : List Byte :=
  leBytes 8 tick ++ leBytes 2 w ++ leBytes 1 ch ++ leBytes 1 (flag inj + 2 * flag outside + 4 * flag align) ++ leBytes 1 step ++
  leBytes 1 die ++ leBytes 2 0

/-- An entry written to the ring, or dropped when it comes within 8 housekeeping clocks of the last one (R474) (readings: log entry 57). -/
def Part.storeRing (x : Part) (p w ch step : Nat) (inj outside : Bool) : Part :=
  let d := x.dev
  let page := pageMon p
  let now := d.pageTick page
  let base := d.get64 (page + 0x120) % 2 ^ 40
  let size := d.get (page + 0x128)
  let n := d.get (page + 0x12C)
  let soon := match (d.converter p).ringTick with
    | some t => decide (now < t + 32)
    | none => false
  if base < sramBase ∨ size = 0 then x
  else if soon then x.onDev (fun d => (d.count (page + 0x134)).monEvent p 1 w ch step)
  else
    let x := x.onMem (·.write (base + 16 * (n % size))
      (ringEntry now w ch step (if p = 4 then 8 else p) inj outside (bit (d.converter p).cfg 1)))
    x.onDev (fun d =>
      let d := (d.count (page + 0x12C)).onConverter p (fun c => { c with ringTick := some now })
      if size ≤ n then (d.count (page + 0x130)).monEvent p 1 w ch step else d)

/-- A step's result delivered (R472 to R474, R477). -/
def Part.deliverResult (x : Part) (p ch step word : Nat) (inj : Bool) (mean : Int) : Part :=
  let w := x.dev.resultWord p ch mean
  let outside := x.dev.outsideWindow p ch w
  let x := x.onDev (fun d =>
    let d := d.takeMinmax p ch w
    let d := if outside then (d.count (pageMon p + 0x144)).monEvent p 2 w ch step else d
    if ch = 0 then d.onConverter p (fun c => { c with diode := some (w, d.pageTick (pageMon p)) }) else d)
  if bit word 13 then x.storeRing p w ch step inj outside else x

/-! ### Sequences and triggers (R467 to R471) -/

/-- The injected sequence begins; a witness alarm names its anvil in PROBE_SEL first (R468, R470) (readings: log entry 57). -/
def Device.startInjected (d : Device) (p : Nat) (witness : Bool) : Device :=
  let d := if witness then d.setBits (pageMon p + 0x118) 13 0 (d.converter p).witness else d
  (d.setStat p 2 2 1).onConverter p (fun c => { c with injStep := 0 })

/-- A trigger of MC_CFG.INJ_EN bit k (R468, R469) (readings: log entry 57). -/
def Device.trigger (d : Device) (p k : Nat) : Device :=
  if !(bit (d.converter p).cfg (16 + k)) then d
  else if !(bit (d.mcStat p) 2) then d.startInjected p (k == 0)
  else if bit (d.mcStat p) 3 then d.count (pageMon p + 0x13C)
  else
    (if k = 0 then d.onConverter p (fun c => { c with witnessNext := true }) else d).setStat p 3 3 1

/-- The injected sequence ends: it runs once more when one is pending, else the regular step restarts (R468, R469). -/
def Device.endInjected (d : Device) (p : Nat) : Device :=
  let d := d.count (pageMon p + 0x138)
  if bit (d.mcStat p) 3 then
    ((d.setStat p 3 3 0).onConverter p (fun c => { c with witnessNext := false })).startInjected p (d.converter p).witnessNext
  else
    let d := d.setStat p 2 2 0
    if !(bit (d.converter p).cfg 0) then d
    else
      let d := d.count (pageMon p + 0x140)
      if bits (d.mcStat p) 12 8 = 0 then d.latchConverter p else d

/-- The regular sequence goes on to its next step (R467, R471) (readings: log entry 57). -/
def Device.nextStep (d : Device) (p : Nat) : Device :=
  let step := bits (d.mcStat p) 12 8
  if bits (d.converter p).cfg 12 8 ≤ step then (d.setStat p 12 8 0).latchConverter p else d.setStat p 12 8 (step + 1)

/-- CONVERTER_STEP_DONE. A converter that calibrates, or that stands with no injected sequence, delivers nothing (readings: log entry 57). -/
def opConverterStepDone (p : Nat) (mean : Int) (x : Part) : Part :=
  let c := x.dev.converter p
  let st := x.dev.mcStat p
  if bit st 0 then x
  else if bit st 2 then
    let word := c.inj.getD c.injStep 0
    let x := x.deliverResult p (bits word 3 0) c.injStep word true mean
    x.onDev (fun d =>
      if bits c.cfg 21 20 ≤ c.injStep then d.endInjected p else d.onConverter p (fun c => { c with injStep := c.injStep + 1 }))
  else if bit c.cfg 0 then
    let step := bits st 12 8
    let word := c.steps.getD step 0
    (x.deliverResult p (bits word 3 0) step word false mean).onDev (·.nextStep p)
  else x

/-- An alarm posted to a converter's sequencer: 0 witness, 1 rate of rise, 2 droop (R468). -/
def Device.postAlarm (d : Device) (p k : Nat) : Device := d.onConverter p (fun c => { c with alarms := c.alarms ++ [k] })

/-- INJECT_TRIGGER: an alarm that has occurred reaches the sequencer. -/
def opInjectTrigger (p k : Nat) (d : Device) : Device :=
  if !((d.converter p).alarms.contains k) then d
  else (d.onConverter p (fun c => { c with alarms := dropFirst (· == k) c.alarms })).trigger p k

/-- DROOP_TRIP (R468, R504). -/
def opDroopTrip (p : Nat) (d : Device) : Device :=
  ((d.onConverter p (fun c => { c with droops := c.droops + 1 })).monEvent p 3 0 0 0).postAlarm p 2

/-- MC_INJECT (R468). -/
def opMcInject (p : Nat) (d : Device) : Device := d.trigger p 3

/-- A self-calibration begins (R475). -/
def Device.startCal (d : Device) (p : Nat) : Device :=
  (d.setStat p 0 0 1).onConverter p (fun c => { c with calSince := d.pageTick (pageMon p) })

/-- SELF_CAL (R475) (readings: log entry 57). -/
def opSelfCal (p agent : Nat) (d : Device) : Device :=
  if bit (d.get (pageMon p + 0x100)) 0 || bit (d.mcStat p) 0 then d.refuseCtrl (pageMon p) 4 agent else d.startCal p

/-- The end of a self-calibration: the residual at half scale in codes, and the factors (R475). -/
def Device.calibrated (d : Device) (p : Nat) (residual : Int) (gain offset : Nat) : Device :=
  let page := pageMon p
  let d := (d.setStat p 0 0 0).setStat p 1 1 (flag (decide (residual.natAbs ≤ 2)))
  (((d.set (page + 0x114) (gain + offset * 0x10000)).count (page + 0x108)).set64 (page + 0x10C) (d.pageTick page)).monEvent p 0 0 0 0

/-- SELF_CAL_DONE, 1.6 ms after the start (R475) (readings: log entry 57). -/
def opSelfCalDone (p : Nat) (residual : Int) (gain offset : Nat) (d : Device) : Device :=
  if bit (d.mcStat p) 0 then (d.elapse ((d.converter p).calSince + 1600000 - d.pageTick (pageMon p))).calibrated p residual gain offset else d

/-- CH_MINMAX_READ (R473): the pair is returned, and the next result restarts it (readings: log entry 57). -/
def opChMinmaxRead (p ch : Nat) (d : Device) : Device :=
  (d.send (.minmax p ch (d.get (pageMon p + 0x240 + 4 * ch)))).onConverter p (fun c => { c with held := setErase c.held ch })

def execConverterStepDone (d : PDie) (reading : Reading) (s : State) : Host.Outcome State Fault Refusal :=
  s.onPart (opConverterStepDone d.val reading)
def execInjectTrigger (d : PDie) (bit : Fin 4) (s : State) : Host.Outcome State Fault Refusal := s.onDev (opInjectTrigger d.val bit.val)
def execDroopTrip (d : PDie) (s : State) : Host.Outcome State Fault Refusal := s.onDev (opDroopTrip d.val)
def execMcInject (d : PDie) (agent : Agent) (s : State) : Host.Outcome State Fault Refusal :=
  s.onDev (fun x => x.written agent.toNat (opMcInject d.val))
def execSelfCal (d : PDie) (agent : Agent) (s : State) : Host.Outcome State Fault Refusal :=
  s.onDev (fun x => x.written agent.toNat (opSelfCal d.val agent.toNat))
def execSelfCalDone (d : PDie) (residual : Int) (gain offset : BitVec 16) (s : State) : Host.Outcome State Fault Refusal :=
  s.onDev (opSelfCalDone d.val residual gain.toNat offset.toNat)
def execChMinmaxRead (d : PDie) (ch : Fin 16) (s : State) : Host.Outcome State Fault Refusal := s.onDev (opChMinmaxRead d.val ch.val)

end Sys2Proof.Machine
end

