-- ==== Sys2Proof/Machine/Fetch.lean ====
section
/-! DEFINITION. The shard, and its fetch into the staging region: the requests, the bytes that arrive, and the
check of each section as its last byte does (R352 to R354, R357, R359, R360). -/

namespace Sys2Proof.Machine

/-- The device with the billet controller changed. -/
def Device.onBillet (d : Device) (f : BilletCtl → BilletCtl) : Device := { d with billet := f d.billet }

/-- BLT_STATE.STATE set (R380). -/
def Device.setBlt (d : Device) (st : Nat) : Device := d.setBits (pageBlt + 0x128) 2 0 st

/-- The staging region's base (R356). -/
def Device.stageRegion (d : Device) : Nat := d.get64 (pageBlt + 0x10C) % 2 ^ 40

/-- An event of the billet page: the failed check, and in words 3 and 4 the section and the layer (R382). -/
def Device.bltEvent (d : Device) (b status check sect layer : Nat) : Device :=
  d.event pageBlt b (status + b * 0x100 + check * 0x10000) [sect, layer]

/-! ### The shard (R352 to R354) -/

/-- An entry of the section table (R353). -/
structure Section where
  kind : Nat
  die : Nat
  core : Nat
  anvil : Nat
  layer : Nat
  off : Nat
  len : Nat
  dest : Nat
  crc : Nat
  deriving DecidableEq, Repr

/-- The header of a shard (R352). -/
structure ShardHead where
  base : Nat
  signedShard : Bool
  compensated : Bool
  modelId : Nat
  node : Nat
  nlayer : Nat
  nsect : Nat
  total : Nat
  sigLen : Nat
  deriving DecidableEq, Repr

def readHead (m : Memory) (b : Nat) : ShardHead :=
  let f := m.nat (b + 6) 2
  ⟨b, bit f 0, bit f 1, m.nat (b + 8) 8, m.nat (b + 0x30) 2, m.nat (b + 0x32) 2, m.nat (b + 0x34) 4, m.nat (b + 0x38) 8, m.nat (b + 0x40) 4⟩

/-- Entry i of a section table. -/
def readSection (m : Memory) (b i : Nat) : Section :=
  let e := m.read (b + 0x80 + 32 * i) 32
  ⟨field e 0 1, field e 1 1, field e 2 1, field e 3 1, field e 4 2, field e 8 8, field e 0x10 4, field e 0x14 4, field e 0x18 4⟩

/-- The sections of a shard, as many as its length can hold. -/
def readSections (m : Memory) (b n : Nat) : List Section :=
  (List.range (Nat.min (readHead m b).nsect (n / 32))).map (readSection m b)

/-- The logical anvil of a section: 64 × core + anvil. -/
def Section.logical (s : Section) : Nat := 64 * (128 * s.die + s.core) + s.anvil

/-- The section of a kind for a logical anvil. -/
def sectionOf (l : List Section) (kind logical : Nat) : Option Section := l.find? (fun s => s.kind == kind && s.logical == logical && s.kind != 7)

/-- The sections of a shard in memory. -/
def shardSections (m : Memory) (b : Nat) : List Section := (List.range (readHead m b).nsect).map (readSection m b)

/-- A section whose CRC fails, or that holds a poisoned granule. -/
def Section.crcFails (s : Section) (m : Memory) (b : Nat) : Bool :=
  m.poisoned (b + s.off) s.len || crc32c (m.read (b + s.off) s.len) != s.crc

/-! ### Requests (R359) -/

/-- 1 MiB, the length of a fetch request. -/
def fetchUnit : Nat := 0x100000

/-- The length of request i of a shard. -/
def requestLen (length i : Nat) : Nat := Nat.min fetchUnit (length - i * fetchUnit)

/-- A request sent to the group's bridge. -/
def Device.sendFetch (d : Device) (i : Nat) : Device :=
  d.send (.fetchRequest d.billet.object (i * fetchUnit) (requestLen d.billet.length i))

/-- Requests sent in the shard's order until n more are sent or 16 are out. -/
def Device.moreFetches (d : Device) : Nat → Device
  | 0 => d
  | n + 1 =>
    let i := d.billet.nextReq
    if 16 ≤ d.billet.reqs.length || d.billet.length ≤ i * fetchUnit then d
    else ((d.onBillet (fun b => { b with reqs := b.reqs ++ [{ index := i, sent := d.tick 4 }], nextReq := i + 1 })).sendFetch i).moreFetches n

/-- The fetch goes on, or is complete when no request is left. -/
def Device.goOnFetch (d : Device) : Device :=
  let d := d.moreFetches 16
  if d.billet.reqs = [] then d.setBlt 2 else d

/-- Data written at an address of the staging region while a shard is fetched (readings: log entry 53). -/
def Device.fetched (d : Device) (a n : Nat) : Device :=
  let base := d.stageRegion
  if bits (d.get (pageBlt + 0x128)) 2 0 != 1 || a < base || base + d.billet.length ≤ a then d
  else
    let i := (a - base) / fetchUnit
    let n := Nat.min n (base + d.billet.length - a)
    let d := d.count64 (pageBlt + 0x12C) n
    let reqs := d.billet.reqs.map (fun r => if r.index = i then { r with got := r.got + n } else r)
    (d.onBillet (fun b => { b with reqs := reqs.filter (fun r => decide (r.got < requestLen b.length r.index)) })).goOnFetch

/-! ### Sections that arrive (R360) -/

/-- The bytes of request i that have arrived. -/
def Device.bytesHere (d : Device) (i : Nat) : Nat :=
  match d.billet.reqs.find? (fun r => r.index == i) with
  | some r => r.got
  | none => if i < d.billet.nextReq then fetchUnit else 0

/-- Whether a range of the shard has arrived: a request's bytes arrive in their order (readings: log entry 53). -/
def Device.shardHere (d : Device) (lo hi : Nat) : Bool :=
  (List.range (ceilDiv hi fetchUnit)).all (fun i =>
    decide ((i + 1) * fetchUnit ≤ lo) || decide (Nat.min (hi - i * fetchUnit) fetchUnit ≤ d.bytesHere i))

/-- The sections whose last byte has arrived, once the section table has: their places and entries. -/
def Device.sectionsHere (d : Device) (m : Memory) : List (Nat × Section) :=
  let b := d.stageRegion
  if !(d.shardHere 0 0x80) || !(d.shardHere 0 (0x80 + 32 * (readHead m b).nsect)) then []
  else ((readSections m b d.billet.length).zipIdx.map (fun e => (e.2, e.1))).filter (fun e =>
    decide (e.2.off + e.2.len ≤ d.billet.length) && d.shardHere e.2.off (e.2.off + e.2.len))

/-- A check of R360 fails: the staging region is discarded, and the capture names the check, the section and the layer (R360,
R382). -/
def Device.verifyFails (d : Device) (check sect layer : Nat) : Device :=
  let d := if check = 1 then d.count (pageBlt + 0x138) else if check = 4 then d.count (pageBlt + 0x13C) else d
  ((d.onBillet (fun b => { b with reqs := [] })).setBlt 5).bltEvent 2 (if check = 1 then stCrcFail else stOk) check sect layer

/-- Data that arrives for a shard, with the CRC of every section that it completes (R359, R360). -/
def Part.shardData (p : Part) (a n : Nat) : Part :=
  let before := (p.dev.sectionsHere p.mem).map (·.1)
  let was := bits (p.dev.get (pageBlt + 0x128)) 2 0
  let p := p.onDev (·.fetched a n)
  if was != 1 then p
  else
    let new := (p.dev.sectionsHere p.mem).filter (fun e => !(before.contains e.1))
    match new.find? (fun e => e.2.crcFails p.mem p.dev.stageRegion) with
    | some e => p.onDev (·.verifyFails 1 e.1 e.2.layer)
    | none => p

/-! ### Rungs that a layer offers (R357) -/

/-- The layer of a logical anvil of a shard. -/
def layerOf (l : List Section) (logical : Nat) : Nat := ((sectionOf l 0 logical).map (·.layer)).getD 0

/-- A layer of a shard offers the rung of a kind of section: every anvil of its tiles has one. -/
def layerOffers (l : List Section) (kind layer : Nat) : Bool :=
  (l.filter (fun s => s.kind == 0 && s.layer == layer)).all (fun s => (sectionOf l kind s.logical).isSome)

end Sys2Proof.Machine
end

