-- ==== Sys2Proof/Machine/Trims.lean ====
section
/-! DEFINITION. Trims: the sets of the trim record, their interpolation, learned corrections, staged images and the
witness check (R88 to R92, R363, R364, R485 to R491). -/

namespace Sys2Proof.Machine

/-- The staged word of a page's live offset set in its staged bits, and marked as written (R538, R546). -/
def Device.stageWord (d : Device) (page o v : Nat) : Device :=
  match (stagedWords page).find? (fun e => e.1 == o) with
  | none => d
  | some e =>
    let w := d.staged page o
    (d.set (page + o + 0x800) (w - Nat.land w e.2 + Nat.land v e.2)).setBits (page + 0xC) 3 3 1

/-- The base trims of a core at 25, 45, 65, 85 and 105 °C (R490). -/
def Device.coreSets (d : Device) (c : Nat) : List (Nat × Int) := smapGet d.rom.record.sets (List.replicate 5 (2048, 0)) c

/-- Base trims interpolated to a temperature in 1/16 °C (R488). Division by a positive number rounds down. -/
def interpolate (sets : List (Nat × Int)) (t : Int) : Nat × Int :=
  let t := (clampInt t 400 1680).toNat
  let i := Nat.min ((t - 400) / 320) 3
  let frac : Int := ((t - 400 - 320 * i : Nat) : Int)
  let mix : Int → Int → Int := fun a b => a + ((b - a) * frac + 160) / 320
  let lo := sets.getD i (2048, 0)
  let hi := sets.getD (i + 1) (2048, 0)
  ((mix lo.1 hi.1).toNat, mix lo.2 hi.2)

/-- The temperature of a die's last valid round, in 1/16 °C. -/
def Device.lastTj (d : Device) (n : Nat) : Option Int :=
  if d.hk.seen.contains n then some (signed 16 (d.get (pageThm + 0x100 + 4 * n))) else none

/-- The base trims of a core at its die's temperature, or as the die's last pass had them (R488). -/
def Device.baseTrims (d : Device) (c : Nat) : Nat × Int :=
  match d.lastTj (c / 128) with
  | some t => interpolate (d.coreSets c) t
  | none => smapGet d.hk.base (2048, 0) c

/-- The learned correction of an anvil (R485). -/
def Device.correction (d : Device) (u : Nat) : Int × Int := smapGet d.hk.corr (0, 0) u

/-- The device with the correction of an anvil set. -/
def Device.setCorrection (d : Device) (u : Nat) (c : Int × Int) : Device :=
  { d with hk := { d.hk with corr := if c = (0, 0) then smapErase d.hk.corr u else smapSet d.hk.corr u c } }

/-- The trims that a correction gives, not yet limited (R485). -/
def trimOf (base : Nat × Int) (corr : Int × Int) : Int × Int := ((base.1 : Int) + corr.1, base.2 + corr.2)

/-- Whether trims lie outside the range of R89. -/
def trimOut (t : Int × Int) : Bool := decide (t.1 < 0) || decide (4095 < t.1) || decide (t.2 < -128) || decide (127 < t.2)

/-- The word of TRIM that trims give, limited to their range (R94, R485). -/
def trimWord (t : Int × Int) : Nat := (clampInt t.1 0 4095).toNat + toTwos 8 (clampInt t.2 (-128) 127) * 0x10000

/-- The trims of an anvil staged (R485, R486). -/
def Device.stageTrim (d : Device) (u : Nat) (t : Int × Int) : Device := d.stageWord (pageAnv u) 0x100 (trimWord t)

/-- The correction that a measured gain in ppm and offset in 1/256 unit ask for (R486) (readings: log entry 56). -/
def correctionFor (gain offs : Int) : Int × Int := (roundAway gain 25, -(roundAway offs 16))

/-- What the 256 test passes on an anvil give: gain in ppm, offset in 1/256 unit and residual in ppm (R363, log entry 16). -/
structure TestResult where
  gain : Int
  offs : Int
  resid : Nat
  deriving DecidableEq, Repr

/-- The test passes struck on an anvil (R363): each strike counts in STRIKE_CNT (R94). -/
def Device.testPasses (d : Device) (u : Nat) : TestResult × Device :=
  let n := d.free
  let f := d.flash u
  (⟨Config.testGain n u, Config.testOffs n u, Config.testResid n u⟩,
    d.drawn.setFlash u { f with strikeCnt := f.strikeCnt + Config.testStrikes n u })

/-- The witness check of one anvil with the base trims alone: it sets the correction and stages the trims (R485). -/
def Device.witnessCheck (d : Device) (u : Nat) : Device :=
  let (r, d) := d.testPasses u
  let corr := correctionFor r.gain r.offs
  (d.setCorrection u corr).stageTrim u (trimOf (d.baseTrims (u / 68)) corr)

/-- The anvils of some cores that are not retired; fenced cores and cores with dead routers have none to check (R519). -/
def Device.liveAnvils (d : Device) (cores : List Nat) : List Nat :=
  (cores.filter (fun c => !(d.isFenced c) && !(d.isDead c))).flatMap (fun c =>
    ((List.range 68).map (68 * c + ·)).filter (fun u => !(d.retired u)))

/-- A set of anvil pages applied at once on the housekeeping path (R512, R525, R620): no rule can fail such a set (R556). -/
def Device.applyAtOnce (d : Device) (pages : List Nat) (temper : Bool) : Device :=
  let (tag, d) := d.newTag
  (d.count (pageCom + 0x130)).applySet { tag := tag, pages := pages, hk := true, temper := temper, pending := true } d.now none

/-- The witness check of some cores of one die: their pages are submitted on the housekeeping path with the earliest apply
tick, or applied with the check as at boot (R485, R491, R519, R525) (readings: log entry 42). -/
def Device.checkCores (d : Device) (cores : List Nat) (atOnce : Bool) : Device :=
  if !(bit (d.get (pagePwr + 0x160)) 1) then d
  else
    let us := d.liveAnvils cores
    let d := us.foldl (fun d u => d.witnessCheck u) d
    if us = [] then d
    else if atOnce then d.applyAtOnce (us.map pageAnv) false
    else d.hkSubmit (us.map pageAnv) (d.now + d.get (pageCom + 0x120)) false

/-- Words 3 and 4 of a program page's capture (R382). -/
def prgWords (u layer : Nat) : List Nat := [u / 68 % 128 * 256 + u % 68, layer]

/-- A program or a fence that needs a free spare is asked for: retirement requested (R87, R364). -/
def Device.requestRetire (d : Device) (u : Nat) : Device :=
  if d.billet.retire.contains u then d
  else
    let page := pagePrg (u / 68 / 128)
    let d := { d with billet := { d.billet with retire := d.billet.retire ++ [u], again := d.billet.again.filter (· != u) } }
    (d.count (page + 0x130)).eventSt page 2 stOk (prgWords u (smapGet d.billet.layerOf 0 u))

/-- A re-forge of an anvil scheduled (R74, R372). -/
def Device.requestReforge (d : Device) (u : Nat) : Device :=
  if d.billet.reforge.contains u then d else { d with billet := { d.billet with reforge := d.billet.reforge ++ [u] } }

end Sys2Proof.Machine
end

