-- ==== Sys2Proof/Machine/Billet.lean ====
section
/-! DEFINITION. Billet shards: fetching, verification, installation and replacement (R352 to R361, R373 to R377). -/

namespace Sys2Proof.Machine

/-! ### Fetching (R359, R361) -/

/-- A fetch fails (R359). -/
def Device.failFetch (d : Device) (status : Nat) : Device :=
  ((d.onBillet (fun b => { b with reqs := [] })).setBlt 5).bltEvent 1 status 0 0 0

/-- A descriptor that the module accepts: FORMAT 1, KIND 0 while no plan runs, KIND 1, and a length that fits (readings: log entry 53). -/
def Device.acceptsLoad (d : Device) (e : List Byte) : Bool :=
  field e 0 2 == 1 && (field e 2 1 == 1 || (field e 2 1 == 0 && !d.planRuns)) &&
  decide (field e 8 8 ≤ bits (d.get (pageBlt + 0x114)) 19 0 * 0x100000)

/-- BILLET_FETCH (R359) (readings: log entry 53). -/
def opBilletFetch (agent : Nat) (p : Part) : Part :=
  let a := p.dev.get64 (pageBlt + 0x118) % 2 ^ 40
  let p := p.touch a 64
  let e := p.mem.read a 64
  if [1, 2, 4].contains p.dev.bltState then p.onDev (·.refuseCtrl pageBlt 2 agent)
  else if p.mem.poisoned a 64 then p.onDev (·.failFetch stPoisoned)
  else if !(p.dev.acceptsLoad e) then p.onDev (·.refuseCtrl pageBlt 2 agent)
  else p.onDev (fun d =>
    ((d.onBillet (fun b => { b with
      kind := field e 2 1, tenant := field e 3 1, length := field e 8 8, object := field e 0x10 16, sha := (e.drop 0x20).take 32
      reqs := [], nextReq := 0 })).setBlt 1).goOnFetch)

/-- FETCH_TIMEOUT: the request at a place in the shard, after 100 ms without an answer (R359) (readings: log entry 53). -/
def opFetchTimeout (i : Nat) (d : Device) : Device :=
  match d.billet.reqs.find? (fun r => r.index == i) with
  | none => d
  | some r =>
    let d := d.reach (r.sent + 100000000)
    if r.again < 3 then
      ((d.onBillet (fun b => { b with reqs := b.reqs.map (fun q =>
        if q.index = i then { q with got := 0, again := q.again + 1, sent := d.now } else q) })).count (pageBlt + 0x134)).sendFetch i
    else d.failFetch stTimeout

/-- ABANDON (R380). -/
def opAbandon (d : Device) : Device := if d.bltState = 3 then d.setBlt 0 else d

/-! ### Verification (R355, R360) -/

/-- Whether the length that a kind gives its section is right (R354). -/
def Section.lengthOk (s : Section) (m : Memory) (b : Nat) : Bool :=
  let a := b + s.off
  match s.kind with
  | 0 => s.len == 262144
  | 1 => s.len == 12288
  | 2 => s.len == 2048
  | 3 => s.len == 64 + 4 * m.nat (a + 0xC) 2 && decide (m.nat (a + 0xC) 2 ≤ 64)
  | 4 => decide (m.nat a 1 ≤ 64) && decide (m.nat (a + 1) 1 ≤ 1)
  | 5 => s.len == 526336
  | 6 => s.len == 1048576
  | 7 => s.len % 64 == 0
  | _ => false

/-- The weights of the witness columns W0 to W7 (R47): +1, +3, +5, +7, −1, −3, −5, −7. -/
def witnessWeight (i : Nat) : Int := if i < 4 then 2 * i + 1 else -(2 * ((i : Int) - 4) + 1)

/-- The cases of R355 for a section. -/
def Section.contentOk (s : Section) (m : Memory) (b : Nat) : Bool :=
  let a := b + s.off
  match s.kind with
  | 3 => (List.range 8).all (fun i =>
      let w := m.nat (a + 4 + i) 1
      (bits w 2 0 : Int) - bits w 6 4 == witnessWeight i) &&
    (List.range (m.nat (a + 0xC) 2)).all (fun i => decide (bits (m.nat (a + 0x40 + 4 * i) 4) 19 10 ≤ 511))
  | 4 => (List.range (m.nat a 1)).all (fun i => decide (m.nat (a + 0x40 + 2 * i) 2 ≤ 1023))
  | _ => true

/-- A section that R353 to R355 allow. -/
def Section.ok (s : Section) (m : Memory) (h : ShardHead) : Bool :=
  decide (s.die < 4) && decide (s.core < 128) && (if s.kind = 7 then s.anvil == 0xFF else decide (s.anvil < 64)) &&
  decide (s.layer < h.nlayer) && s.off % 4096 == 0 && decide (0x80 + 32 * h.nsect ≤ s.off) && decide (s.off + s.len ≤ h.total) &&
  s.lengthOk m h.base && s.contentOk m h.base

/-- The logical anvils that hold weights, each with one section of every kind 0 to 3 (R354). -/
def completeAnvils (l : List Section) : Bool :=
  (l.filter (fun s => decide (s.kind ≤ 6))).all (fun s => [0, 1, 2, 3].all (fun k =>
    (l.filter (fun t => t.kind == k && t.logical == s.logical)).length == 1))

/-- The first section at which check 2 fails, with its layer; zeros when the header or the table as a whole does
(readings: log entry 53). -/
def Device.headFails (d : Device) (m : Memory) (h : ShardHead) (l : List Section) : Option (Nat × Nat) :=
  let headOk := m.read h.base 4 == [0x4E, 0x42, 0x58, 0x42] && m.nat (h.base + 4) 2 == 1 && m.read (h.base + 0x10) 32 == d.coreset &&
    h.node == d.node % 16 && h.nlayer != 0 && decide (h.nlayer ≤ 4096) && (h.sigLen == 0 || (h.signedShard && h.sigLen == 7856)) &&
    h.total + h.sigLen == d.billet.length && h.nsect == l.length
  if !headOk then some (0, 0)
  else match l.zipIdx.find? (fun e => !(e.1.ok m h)) with
    | some e => some (e.2, e.1.layer)
    | none => if anyMeet (l.map (fun s => (s.off, s.off + s.len))) || !(completeAnvils l) then some (0, 0) else none

/-- DIGEST of a shard computed with its field read as zero (R352). -/
def shardDigest (m : Memory) (h : ShardHead) : List Byte :=
  sha256 (m.read h.base 0x60 ++ List.replicate 32 0 ++ m.read (h.base + 0x80) (h.total - 0x80))

/-- Check 4: the signature that the descriptor's tenant asks for. -/
def Device.signatureFails (d : Device) (m : Memory) (h : ShardHead) : Bool :=
  d.billet.tenant != 0xFF && (h.sigLen == 0 || (match smapFind d.sec.keys (512 + d.billet.tenant) with
    | none => true
    | some k => !(Config.signatureValid k (m.read (h.base + 0x60) 32) (m.read (h.base + h.total) h.sigLen))))

/-- The first check of R360 that fails, with its section and layer (readings: log entry 53). -/
def Device.shardFailure (d : Device) (m : Memory) : Option (Nat × Nat × Nat) :=
  let b := d.stageRegion
  let h := readHead m b
  let l := readSections m b d.billet.length
  match l.zipIdx.find? (fun e => decide (e.1.off + e.1.len ≤ d.billet.length) && e.1.crcFails m b) with
  | some e => some (1, e.2, e.1.layer)
  | none => match d.headFails m h l with
    | some e => some (2, e)
    | none =>
      let digest := m.read (b + 0x60) 32
      if shardDigest m h != digest || digest != d.billet.sha then some (3, 0, 0)
      else if d.signatureFails m h then some (4, 0, 0) else none

/-! ### Layers (R361, R374) -/

/-- The history names the weights that a shard gives a logical anvil (R358). -/
def Device.matches_ (d : Device) (h : ShardHead) (s : Section) : Bool :=
  match d.mapped (128 * s.die + s.core) s.anvil with
  | none => true
  | some u => (d.flash u).programmed && (d.flash u).modelId == h.modelId && (d.flash u).weightsCrc == s.crc

/-- The logical anvils of some sections that are still to program. -/
def Device.toProgram (d : Device) (h : ShardHead) (l : List Section) : List Nat :=
  (l.filter (fun s => s.kind == 0 && !(d.matches_ h s))).map Section.logical

/-- OUTLIER and CORE_DATA sections of a layer copied to core store (R357). -/
def Part.copyLayer (p : Part) (b layer : Nat) (l : List Section) : Part :=
  (l.filter (fun s => s.layer == layer && (s.kind == 4 || s.kind == 7))).foldl (fun p s =>
    let a := b + s.off
    let n := granuleUp s.len
    let p := p.touch a n
    p.onMem (fun m => m.write (storeBase (128 * s.die + s.core) + 64 * s.dest) (m.read a n)
      ((m.poisonIn a n).map (fun g => (storeBase (128 * s.die + s.core) + 64 * s.dest) / 64 + (g - a / 64))))) p

/-- BLT_STATE.LAYERS set (R380). -/
def Device.showLayers (d : Device) : Device := d.setBits (pageBlt + 0x128) 27 16 d.billet.layers.length

/-- The layers of the module, in increasing order. -/
def layersOf (l : List Section) : List Nat := sortByKey id (dedup ((l.filter (fun s => s.kind == 0)).map (·.layer)))

/-- The mapped logical anvils of some sections. -/
def Device.allAnvils (d : Device) (l : List Section) : List Nat :=
  (l.filter (fun s => s.kind == 0 && (d.mapped (128 * s.die + s.core) s.anvil).isSome)).map Section.logical

/-- Replacement goes on to the first of some layers that does not match: those that match are skipped, and every anvil of
another is programmed (R374) (readings: log entry 39). -/
def Part.enterLayer (h : ShardHead) (l : List Section) : List Nat → Part → Part
  | [], p => p.onDev (fun d => (d.onBillet (fun b => { b with layers := [], todo := [], replacing := false, replaced := true })).showLayers)
  | k :: ks, p =>
    let ours := l.filter (fun s => s.layer == k)
    let todo := p.dev.allAnvils ours
    if p.dev.toProgram h ours = [] then Part.enterLayer h l ks (p.onDev (·.count (pageBlt + 0x140)))
    else (p.copyLayer h.base k l).onDev (fun d => (d.onBillet (fun b => { b with layers := k :: ks, todo := todo })).showLayers)

/-- The replacement ends: the firmware writes HOLD_DONE (R374) (readings: log entry 39). -/
def Part.endReplacement (p : Part) : Part :=
  if p.dev.billet.replaced && !p.dev.billet.replacing then
    p.onDev (fun d => (d.onHeat (fun h => { h with holdDone := true })).tryArrive) else p

/-- The replacement begins at the start of the held heat, when a shard is staged; otherwise HOLD_DONE at once (R373) (readings: log entry 39). -/
def Part.beginReplacement (p : Part) : Part :=
  if p.dev.bltState = 3 then
    let b := p.dev.stageRegion
    let l := readSections p.mem b p.dev.billet.length
    (Part.enterLayer (readHead p.mem b) l (layersOf l)
      (p.onDev (fun d => (d.setBlt 4).onBillet (fun x => { x with replacing := true })))).endReplacement
  else p.onDev (fun d => (d.onHeat (fun h => { h with holdDone := true })).tryArrive)

/-- A layer is done, and the next one begins (R374) (readings: log entry 39). -/
def Part.nextLayer (p : Part) : Part :=
  let b := p.dev.stageRegion
  let l := readSections p.mem b p.dev.billet.length
  (Part.enterLayer (readHead p.mem b) l p.dev.billet.layers.tail (p.onDev (·.count (pageBlt + 0x144)))).endReplacement

/-! ### A new generation (R356, R361, R374, R376) -/

/-- BLT_BASE and BLT_STAGE swapped, live and staged (R356). -/
def Device.swapRegions (d : Device) : Device :=
  [0x104, 0x108, 0x904, 0x908].foldl (fun d o =>
    let a := d.get (pageBlt + o)
    let b := d.get (pageBlt + o + 8)
    (d.set (pageBlt + o) b).set (pageBlt + o + 8) a) d

/-- Records and directories of the old generation marked (R376). -/
def Part.markOld (p : Part) : Part :=
  let p := p.dev.serving.reqs.foldl (fun p e => p.updateRequest e.1 (fun q => { q with oldGen := true })) p
  p.dev.serving.seqs.foldl (fun p e =>
    let x := { e.2 with oldGen := true }
    (p.onDev (·.setSequence e.1 x)).writeDirectory x) p

/-- The pages that programs have staged applied at a tick (R372, R374) (readings: log entry 39). -/
def Device.applyPrograms (d : Device) (tick : Nat) : Device :=
  (d.billet.staged.foldl (fun d g => (d.applyPage g tick).showApplied g 0 tick) d).onBillet (fun b => { b with staged := [] })

/-- The shard becomes resident: settings applied, regions swapped, MODEL_GEN advanced (R361, R374, R376, R563) (readings: log entry 53). -/
def Part.installShard (p : Part) (tick : Nat) : Part :=
  let digest := p.mem.read (p.dev.stageRegion + 0x60) 32
  let p := p.onDev (fun d =>
    let d := (((d.applyPrograms tick).swapRegions.set (pageBlt + 0x100) (d.get (pageBlt + 0x100) + 1)).extendMr 4 digest).setBlt 0
    (d.onBillet (fun b => { b with replaced := false, replacing := false, todo := [] })).bltEvent 3 stOk 0 0 0)
  p.markOld.pfxNewGeneration

/-- A module that cannot finish (R377) (readings: log entry 53). -/
def Device.replaceFail (d : Device) (layer : Nat) : Device :=
  (((d.onBillet (fun b => { b with replacing := false, todo := [] })).setBlt 5).bltEvent 4 stOk 0 0 layer).moduleFault

/-- SHARD_VERIFY_DONE (R360, R361) (readings: log entry 53). -/
def opShardVerifyDone (p : Part) : Part :=
  if p.dev.bltState != 2 then p
  else
    let b := p.dev.stageRegion
    let p := p.touch b p.dev.billet.length
    match p.dev.shardFailure p.mem with
    | some (n, i, layer) => p.onDev (·.verifyFails n i layer)
    | none =>
      let p := p.onDev (·.bltEvent 0 stOk 0 0 0)
      if p.dev.billet.kind = 1 then p.onDev (·.setBlt 3)
      else
        let h := readHead p.mem b
        let l := readSections p.mem b p.dev.billet.length
        let todo := p.dev.toProgram h l
        if todo = [] then p.installShard p.dev.now
        else
          let layers := (layersOf l).filter (fun k => p.dev.toProgram h (l.filter (fun s => s.layer == k)) != [])
          (layers.foldl (fun p k => p.copyLayer b k l) p).onDev (fun d => (d.onBillet (fun x => { x with todo := todo })).setBlt 4)

def execBilletFetch (agent : Agent) (s : State) : Host.Outcome State Fault Refusal :=
  s.onPart (fun p => p.written agent.toNat (opBilletFetch agent.toNat))
def execFetchTimeout (request : Nat) (s : State) : Host.Outcome State Fault Refusal := s.onDev (opFetchTimeout request)
def execShardVerifyDone (s : State) : Host.Outcome State Fault Refusal := s.onPart opShardVerifyDone
def execAbandon (agent : Agent) (s : State) : Host.Outcome State Fault Refusal := s.onDev (fun d => d.written agent.toNat opAbandon)

end Sys2Proof.Machine
end

