-- ==== Sys2Proof/Machine/Program.lean ====
section
/-! DEFINITION. The program engines: batches, row steps, stuck cells, ledgers, test passes and the end of a batch (R84 to
R86, R362 to R372). -/

namespace Sys2Proof.Machine

/-! ### Starting a batch (R362, R366 to R368, R371) -/

/-- The logical anvil that the live map gives a physical anvil, as 64 × core + anvil. -/
def Device.logicalOf (d : Device) (u : Nat) : Option Nat :=
  ((List.range 64).find? (fun l => d.mapped (u / 68) l == some u)).map (64 * (u / 68) + ·)

/-- A mapped anvil may be programmed: in a held or maintenance heat, or while no plan runs (R366). -/
def Device.mayProgram (d : Device) : Bool := !d.planRuns || d.heat.kind == 1 || d.heat.kind == 2

/-- The shard that holds the weights which a logical anvil takes. -/
def Device.shardFor (d : Device) (logical : Nat) : Nat := if d.billet.todo.contains logical then d.stageRegion else d.billetBase

/-- The limits of a batch: anvils in all, and spares. -/
def Device.batchLimit (d : Device) (die : Nat) : Nat := Nat.min (bits (d.get (pagePrg die + 0x104)) 10 0) 1024
def Device.spareLimit (d : Device) (die : Nat) : Nat := if d.planRuns then bits (d.get (pagePrg die + 0x108)) 6 0 else 1024

/-- The time of a batch of n anvils in tenths of a nanosecond (R363): 1,024 × (0.5 µs + 1.4 ns × n) + 80 µs. -/
def batchTime (n : Nat) : Nat := 1024 * (5000 + 14 * n) + 800000

/-- When a batch that starts now on a die ends: after the die's earlier batches. -/
def Device.batchEnd (d : Device) (die n : Nat) : Nat := Nat.max (10 * d.now) (smapGet d.billet.ends 0 die) + batchTime n

/-- Whether a batch of n anvils on a die ends inside a maintenance heat (R363, R372). -/
def Device.fitsHeat (d : Device) (die n : Nat) : Bool :=
  !d.planRuns || d.heat.kind != 1 || decide (d.batchEnd die n ≤ 10 * (d.heat.start + d.heat.len))

/-- The anvil awaiting retirement whose weights the next free spare of a core takes (R87). -/
def Device.retiring (d : Device) (c : Nat) (taken : List BatchAnvil) : Option Nat :=
  (d.billet.retire.filter (fun v => v / 68 == c)).findSome? (fun v => match d.logicalOf v with
    | none => none
    | some l => if taken.any (fun b => b.logical == l) then none else some l)

/-- A batch with one more anvil, where the rules allow it to be programmed. An anvil at ENDUR_MAX is not: its retirement is
requested in its place (R371). -/
def Device.joinBatch (die : Nat) (r : List BatchAnvil × Device) (u : Nat) : List BatchAnvil × Device :=
  let (l, d) := r
  let c := u / 68
  let worn := decide (d.get (pagePrg die + 0x114) ≤ (d.flash u).progCnt)
  if c / 128 != die || d.retired u || d.isFenced c || l.any (fun b => b.anvil == u) || decide (d.batchLimit die ≤ l.length) then (l, d)
  else match d.logicalOf u with
    | some k =>
      if !d.mayProgram || d.billet.retire.contains u || !(d.fitsHeat die (l.length + 1)) then (l, d)
      else if worn then (l, d.requestRetire u)
      else
        let fresh := d.billet.todo.contains k
        (l ++ [{ anvil := u, logical := k, spare := false, shard := d.shardFor k, reforge := !fresh }], d)
    | none =>
      if worn || decide (d.spareLimit die ≤ (l.filter (·.spare)).length) then (l, d)
      else match d.retiring c l with
        | none => (l, d)
        | some k => (l ++ [{ anvil := u, logical := k, spare := true, shard := d.shardFor k }], d)

/-- An anvil's program begins: the ledger is cleared, and an anvil in place loses TRIM_VALID (R367, R368). -/
def Device.startProgram (d : Device) (b : BatchAnvil) : Device :=
  let d := d.setFlash b.anvil { d.flash b.anvil with ledger := [] }
  let d := d.onBillet (fun x => { x with layerOf := smapSet x.layerOf b.anvil b.layer })
  if b.spare then d
  else (d.setAnvil b.anvil { d.anvil b.anvil with inPlace := true }).setBits (pageAnv b.anvil + 0x100) 31 31 0

/-- PRG_STATE set (R378). -/
def Device.showBatch (d : Device) (die : Nat) : Device :=
  d.set (pagePrg die + 0x100) (match smapFind d.billet.batches die with
    | none => 0
    | some b => (if b.anvils.any (fun a => !a.spare) then 1 else 2) + b.anvils.length * 0x10000)

/-- The device with a die's batch set. -/
def Device.setBatch (d : Device) (die : Nat) (b : Batch) : Device := d.onBillet (fun x => { x with batches := smapSet x.batches die b })

/-- A program of an anvil counted in PROG_CNT, with the levels that the count reaches (R371). -/
def Device.countProgram (d : Device) (b : BatchAnvil) : Device :=
  let u := b.anvil
  let page := pagePrg (u / 68 / 128)
  let n := (d.flash u).progCnt + 1
  let d := d.setFlash u { d.flash u with progCnt := n }
  let d := if n = d.get (page + 0x110) then d.eventSt page 3 stOk (prgWords u b.layer) else d
  if n = d.get (page + 0x114) then d.eventSt page 4 stOk (prgWords u b.layer) else d

/-- The program of an anvil interrupted (R370): counted, and an anvil in place no longer matches any shard. -/
def Device.interruptAnvil (d : Device) (b : BatchAnvil) : Device :=
  let u := b.anvil
  let page := pagePrg (u / 68 / 128)
  let d := d.countProgram b
  let f := d.flash u
  let d := d.setFlash u { f with programmed := if b.spare then f.programmed else false }
  (d.count (page + 0x138)).eventSt page 5 stOk (prgWords u b.layer)

/-- A die's program engine stopped (R370). -/
def Device.interruptPrograms (d : Device) (die : Nat) : Device :=
  match smapFind d.billet.batches die with
  | none => d
  | some b => ((b.anvils.foldl (fun d a => d.interruptAnvil a) d).onBillet (fun x => { x with batches := smapErase x.batches die })).showBatch die

/-- The sections that a program reads, checked by the decoder. -/
def Part.touchSections (p : Part) (b : BatchAnvil) (l : List Section) : Part :=
  [0, 1, 3, 4].foldl (fun p k => match sectionOf l k b.logical with
    | some s => p.touch (b.shard + s.off) s.len
    | none => p) p

/-- A section that a program needs holds a poisoned granule (R403). -/
def Part.sectionPoisoned (p : Part) (b : BatchAnvil) (l : List Section) : Bool :=
  [0, 1, 3, 4].any (fun k => match sectionOf l k b.logical with
    | some s => p.mem.poisoned (b.shard + s.off) s.len
    | none => false)

/-- An anvil that still needs a program has no spare to go to (R371, R377) (readings: log entry 54). -/
def Device.noSpareLeft (d : Device) : Bool :=
  d.billet.retire.any (fun u => match d.logicalOf u with
    | some l => d.billet.todo.contains l && d.spares (u / 68) == []
    | none => false)

/-- A load or a replacement in progress cannot finish (R377): an anvil needs a spare that no core can supply, or a region holds
a section that can no longer be read (readings: log entry 54). -/
def Part.failReplacement (p : Part) : Part :=
  if p.dev.bltState = 4 then p.onDev (fun d => d.replaceFail (d.billet.layers.headD 0)) else p

/-- PROGRAM_BATCH_START. An anvil whose shard holds no weights for it stays out, and one with a poisoned section is
interrupted (R403) (readings: log entry 54). -/
def opProgramBatchStart (die : Nat) (anvils : List Nat) (p : Part) : Part :=
  if (smapFind p.dev.billet.batches die).isSome then p
  else
    let (l, d) := anvils.foldl (Device.joinBatch die) ([], p.dev)
    let held := (l.filter (fun b => (sectionOf (shardSections p.mem b.shard) 0 b.logical).isSome)).map (fun b =>
      { b with layer := layerOf (shardSections p.mem b.shard) b.logical })
    let p := held.foldl (fun p b => p.touchSections b (shardSections p.mem b.shard)) { p with dev := d }
    let bad := held.filter (fun b => p.sectionPoisoned b (shardSections p.mem b.shard))
    let good := held.filter (fun b => !(bad.contains b))
    let p := p.onDev (fun d =>
      let d := held.foldl (fun d b => d.startProgram b) d
      let d := bad.foldl (fun d b => d.interruptAnvil b) d
      let ends := d.batchEnd die good.length
      if good = [] then d
      else ((d.setBatch die { anvils := good }).onBillet (fun x => { x with ends := smapSet x.ends die ends })).showBatch die)
    if bad != [] || p.dev.noSpareLeft then p.failReplacement else p

/-! ### Row steps (R46, R47, R75, R76, R84 to R86, R369) -/

/-- The cells of a pair that pulses set: the pair nearest to a weight, given the cells that are stuck (R84). -/
def nearestPair (w : Int) (rest : Pair) (pos neg : Option Nat) : Pair :=
  match pos, neg with
  | some s, some t => ⟨s, t⟩
  | some s, none => ⟨s, (clampInt ((s : Int) - w) 0 7).toNat⟩
  | none, some s => ⟨(clampInt ((s : Int) + w) 0 7).toNat, s⟩
  | none, none => rest

/-- The pair of a weight without stuck cells (R46): the other cell at level 0. -/
def plainPair (w : Int) : Pair := ⟨(clampInt w 0 7).toNat, (clampInt (-w) 0 7).toNat⟩

/-- A pair's weight. -/
def Pair.weight (p : Pair) : Int := (p.pos : Int) - p.neg

/-- What a row step knows of one anvil. -/
structure RowJob where
  row : Nat
  weights : List Nat
  digits : List Nat
  wlev : List Nat
  /-- Compensation entries of the row, as words (R354). -/
  comp : List Nat
  stuck : SMap Nat
  deriving DecidableEq, Repr

/-- What setting pairs gives: the pairs, ledger entries, compensated pairs, and whether a pair outside the data columns
cannot be mended (R85, R86). -/
structure RowOut where
  pairs : List (Nat × Pair) := []
  ledger : List Nat := []
  comps : Nat := 0
  unmendable : Bool := false
  deriving DecidableEq, Repr

/-- A ledger entry (R86). -/
def ledgerWord (row col : Nat) (corr : Int) : Nat := 2 ^ 31 + toTwos 5 corr * 0x100000 + col * 0x400 + row

/-- The stuck level of a cell of the row. -/
def RowJob.stuckAt (j : RowJob) (col : Nat) (neg : Bool) : Option Nat := smapFind j.stuck (2 * (544 * j.row + col) + flag neg)

/-- The stuck cells of a pair as the engine takes them. A cell that the compensation list names is not pulsed, and counts as
stuck at its listed or its read level (R369). -/
def RowJob.stuckPair (j : RowJob) (x : AnvilState) (col : Nat) : Option Nat × Option Nat :=
  let held := (smapFind x.cells (544 * j.row + col)).getD ⟨0, 0⟩
  let at_ : Bool → Option Nat := fun neg => match j.stuckAt col neg with
    | some s => some s
    | none => if j.comp.any (fun e => bits e 19 10 == col && bit e 20 == neg) then some (if neg then held.neg else held.pos) else none
  (at_ false, at_ true)

/-- Whether the listed cell of a pair reads its listed level (R369). -/
def RowJob.compensated (j : RowJob) (x : AnvilState) (col : Nat) : Bool :=
  let s := j.stuckPair x col
  j.comp.any (fun e => bits e 19 10 == col && (if bit e 20 then s.2 else s.1) == some (bits e 23 21))

/-- One pair set to a weight, with what it leaves (R84 to R86, R369). -/
def RowOut.setPair (o : RowOut) (j : RowJob) (x : AnvilState) (col : Nat) (w : Int) (rest : Pair) : RowOut :=
  let s := j.stuckPair x col
  let q := nearestPair w rest s.1 s.2
  let o := { o with pairs := o.pairs ++ [(544 * j.row + col, q)] }
  let listed := decide (col < 512) && j.compensated x col
  if q.weight = w then (if listed || s.1.isSome || s.2.isSome then { o with comps := o.comps + 1 } else o)
  else if col < 512 then { o with ledger := o.ledger ++ [ledgerWord j.row col (w - q.weight)] }
  else { o with unmendable := true }

/-- The digits of the sum of a group's weights (R75). -/
def digitsOf (s : Int) : List Int :=
  let c := (s + 4) % 8 - 4
  let s1 := (s - c) / 8
  let b := (s1 + 4) % 8 - 4
  [(s1 - b) / 8, b, c]

/-- The weights that a row's data pairs have achieved, in groups of 64. -/
def RowOut.groupSum (o : RowOut) (g : Nat) : Int := sumInt (((o.pairs.drop (64 * g)).take 64).map (fun e => e.2.weight))

/-- A row set: data pairs, witness pairs, and the checksum pairs last (R362) (readings: log entry 54). -/
def RowJob.run (j : RowJob) (x : AnvilState) : RowOut :=
  let data := (j.weights.zipIdx).foldl (fun (o : RowOut) e =>
    let w := signed 4 e.1
    o.setPair j x e.2 w (plainPair w)) {}
  let wit := (j.wlev.zipIdx).foldl (fun (o : RowOut) e =>
    let q : Pair := ⟨bits e.1 2 0, bits e.1 6 4⟩
    o.setPair j x (536 + e.2) q.weight q) data
  let digits := if data.ledger = [] then j.digits.map (signed 4) else (List.range 8).flatMap (fun g => digitsOf (data.groupSum g))
  (digits.zipIdx).foldl (fun (o : RowOut) e => o.setPair j x (512 + e.2) e.1 (plainPair e.1)) wit

/-- The anvil's cells with a row's pairs in place of the old ones. -/
def AnvilState.setRow (x : AnvilState) (row : Nat) (l : List (Nat × Pair)) : AnvilState :=
  let new := sortByKey (·.1) (l.filter (fun e => e.2.pos != 0 || e.2.neg != 0))
  { x with cells := x.cells.filter (fun e => decide (e.1 < 544 * row)) ++ new ++ x.cells.filter (fun e => decide (544 * (row + 1) ≤ e.1)) }

/-- The cells of an anvil's row that the read-back finds stuck and the history does not name yet: key and level (R84). -/
def newStuck (x : AnvilState) (row u : Nat) (stuck : List StuckCell) : List (Nat × Nat) :=
  (stuck.filter (fun s => s.anvil == u && decide (s.column < 544))).map (fun s =>
    (2 * (544 * row + s.column) + (if s.cell = .neg then 1 else 0), s.level % 8)) |>.filter (fun e => (smapFind x.stuck e.1).isNone)

/-- The cells of the row's compensation list that read another level than the listed one: new stuck cells (R369). -/
def RowJob.offLevel (j : RowJob) (x : AnvilState) : List (Nat × Nat) :=
  j.comp.filterMap (fun e =>
    let col := bits e 19 10
    let s := j.stuckPair x col
    match (if bit e 20 then s.2 else s.1) with
    | some v => if v = bits e 23 21 ∨ (j.stuckAt col (bit e 20)).isSome then none else some (2 * (544 * j.row + col) + flag (bit e 20), v)
    | none => none)

/-- The job of a row for an anvil of a batch, from its shard's sections. -/
def rowJob (m : Memory) (b : BatchAnvil) (row : Nat) (stuck : SMap Nat) : RowJob :=
  let l := shardSections m b.shard
  let at_ : Nat → Nat := fun k => ((sectionOf l k b.logical).map (fun s => b.shard + s.off)).getD b.shard
  let comp := if (readHead m b.shard).compensated then
    (List.range (m.nat (at_ 3 + 0xC) 2)).map (fun i => m.nat (at_ 3 + 0x40 + 4 * i) 4) else []
  { row := row, weights := nibbles (m.read (at_ 0 + 256 * row) 256), digits := nibbles (m.read (at_ 1 + 12 * row) 12)
    wlev := (m.read (at_ 3 + 4) 8).map (·.toNat), comp := comp.filter (fun e => e % 1024 == row), stuck := stuck }

/-- One anvil's row step (R362): new stuck cells are counted and raised on the anvil's page with OK and tile identity 0
(readings: log entries 54, 66). -/
def Device.programRow (m : Memory) (row : Nat) (stuck : List StuckCell) (r : List BatchAnvil × Device) (b : BatchAnvil) :
    List BatchAnvil × Device :=
  let d := r.2
  let page := pagePrg (b.anvil / 68 / 128)
  let x := d.anvil b.anvil
  let new := newStuck x row b.anvil stuck
  let known := new.foldl (fun (s : SMap Nat) (e : Nat × Nat) => smapSet s e.1 e.2) x.stuck
  let job := rowJob m b row known
  let new := new ++ job.offLevel x
  let o := job.run x
  let x := { x with stuck := new.foldl (fun (s : SMap Nat) (e : Nat × Nat) => smapSet s e.1 e.2) x.stuck }
  let d := d.setAnvil b.anvil (x.setRow row o.pairs)
  let d := if new = [] then d else (d.count (page + 0x124) new.length).eventSt (pageAnv b.anvil) 6 stOk
  let d := if o.comps = 0 then d else d.count (page + 0x128) o.comps
  let ledger := b.ledger ++ o.ledger
  let d := if o.ledger = [] then d else d.count (page + 0x12C) o.ledger.length
  let b := { b with ledger := ledger.take 32, unmendable := b.unmendable || o.unmendable || decide (32 < ledger.length) }
  (r.1 ++ [b], d)

/-- PROGRAM_ROW_STEP (readings: log entry 54). -/
def opProgramRowStep (die : Nat) (stuck : List StuckCell) (p : Part) : Part :=
  match smapFind p.dev.billet.batches die with
  | none => p
  | some b =>
    if 1024 ≤ b.row then p
    else
      let (l, d) := b.anvils.foldl (Device.programRow p.mem b.row stuck) ([], p.dev)
      { p with dev := d.setBatch die { b with anvils := l, row := b.row + 1 } }

/-! ### The end of a batch (R363, R364, R368, R371, R372) -/

/-- PROGRAM_SETTLE_END: the test passes of every anvil of the batch (readings: log entry 54). -/
def opProgramSettleEnd (die : Nat) (d : Device) : Device :=
  match smapFind d.billet.batches die with
  | none => d
  | some b =>
    if b.row < 1024 || b.settled then d
    else
      let (l, d) := b.anvils.foldl (fun (r : List BatchAnvil × Device) a =>
        let (t, d) := r.2.testPasses a.anvil
        (r.1 ++ [{ a with gain := t.gain, offs := t.offs, resid := t.resid }], d)) ([], d)
      d.setBatch die { b with anvils := l, settled := true }

/-- The history takes an anvil's program (R368, R371). -/
def Device.bookProgram (d : Device) (b : BatchAnvil) : Device :=
  ((d.setFlash b.anvil { d.flash b.anvil with ledger := b.ledger }).count (pagePrg (b.anvil / 68 / 128) + 0x120)).countProgram b

/-- ROW_MASK of the rows that an OUTLIER section names (R62, R355). -/
def outlierMask (m : Memory) (a : Option Nat) (word : Nat) : Nat :=
  match a with
  | none => 0
  | some a => sumNat ((dedup ((List.range (m.nat a 1)).map (fun i => m.nat (a + 0x40 + 2 * i) 2))).map (fun r =>
      if r / 32 = word then 2 ^ (r % 32) else 0))

/-- The settings of a programmed anvil staged as one set (R363, R96). -/
def Device.stageSettings (d : Device) (m : Memory) (b : BatchAnvil) (corr : Int × Int) : Device :=
  let l := shardSections m b.shard
  let page := pageAnv b.anvil
  let tol := ((sectionOf l 3 b.logical).map (fun s => m.nat (b.shard + s.off) 4 % 2 ^ 20)).getD 0
  let out := (sectionOf l 4 b.logical).map (fun s => b.shard + s.off)
  let d := (d.stageTrim b.anvil (trimOf (d.baseTrims (b.anvil / 68)) corr)).stageWord page 0x104 tol
  (List.range 32).foldl (fun d i => d.stageWord page (0x300 + 4 * i) (outlierMask m out i)) d

/-- An anvil that fails its check: programmed once more, and at the second failure its retirement is requested (R364) (readings: log entry 54). -/
def Device.failProgram (d : Device) (b : BatchAnvil) : Device :=
  let u := b.anvil
  let page := pagePrg (u / 68 / 128)
  let d := d.setFlash u { d.flash u with programmed := false }
  let d := (d.count (page + 0x13C)).eventSt page 1 stOk (prgWords u b.layer)
  if d.billet.again.contains u then d.requestRetire u
  else d.onBillet (fun x => { x with again := x.again ++ [u] })

/-- An anvil whose program is good: correction, staged settings and history record (R358, R363, R372) (readings: log entry 54). -/
def Device.passProgram (d : Device) (m : Memory) (b : BatchAnvil) (corr : Int × Int) : Device :=
  let u := b.anvil
  let h := readHead m b.shard
  let crc := ((sectionOf (shardSections m b.shard) 0 b.logical).map (·.crc)).getD 0
  let d := if bit (d.get (pagePwr + 0x160)) 1 then d.setCorrection u corr else d
  let d := (d.stageSettings m b corr).setFlash u { d.flash u with modelId := h.modelId, weightsCrc := crc, programmed := true }
  let d := d.setAnvil u { d.anvil u with inPlace := false }
  let d := if b.reforge then d.count (pagePrg (u / 68 / 128) + 0x134) else d
  d.onBillet (fun x => { x with
    again := x.again.filter (· != u), reforge := x.reforge.filter (· != u), todo := x.todo.filter (· != b.logical)
    staged := if b.spare then x.staged else x.staged ++ [pageAnv u] })

/-- One anvil of a batch that ends (R363, R364, R86). -/
def Device.endProgram (d : Device) (m : Memory) (b : BatchAnvil) : Device :=
  let d := d.bookProgram b
  let corr := correctionFor b.gain b.offs
  if b.unmendable then
    (d.setFlash b.anvil { d.flash b.anvil with programmed := false }).requestRetire b.anvil
  else if 5000 < b.resid || trimOut (trimOf (d.baseTrims (b.anvil / 68)) corr) then d.failProgram b
  else d.passProgram m b corr

/-- What the end of a batch brings to a load or a replacement in progress (R361, R374, R377). -/
def Part.afterBatch (p : Part) : Part :=
  if p.dev.bltState != 4 then p
  else if p.dev.noSpareLeft then p.failReplacement
  else if p.dev.billet.todo != [] then p
  else if p.dev.billet.kind = 0 then p.installShard p.dev.now
  else if p.dev.billet.replacing then p.nextLayer
  else p

/-- PROGRAM_BATCH_DONE (readings: log entry 54). -/
def opProgramBatchDone (die : Nat) (p : Part) : Part :=
  match smapFind p.dev.billet.batches die with
  | none => p
  | some b =>
    if !b.settled then p
    else
      let p := p.onDev (fun d =>
        let d := b.anvils.foldl (fun d a => d.endProgram p.mem a) d
        ((d.onBillet (fun x => { x with batches := smapErase x.batches die })).showBatch die).eventSt (pagePrg die) 0 stOk)
      p.afterBatch

def execProgramBatchStart (d : Die) (anvils : List Nat) (s : State) : Host.Outcome State Fault Refusal :=
  s.onPart (opProgramBatchStart d.val anvils)
def execProgramRowStep (d : Die) (stuck : List StuckCell) (s : State) : Host.Outcome State Fault Refusal :=
  s.onPart (opProgramRowStep d.val stuck)
def execProgramSettleEnd (d : Die) (s : State) : Host.Outcome State Fault Refusal := s.onDev (opProgramSettleEnd d.val)
def execProgramBatchDone (d : Die) (s : State) : Host.Outcome State Fault Refusal := s.onPart (opProgramBatchDone d.val)

end Sys2Proof.Machine
end

