-- ==== Sys2Proof/Machine/Housekeep.lean ====
section
/-! DEFINITION. The housekeeping processor: rounds, thermal states, power, quench, temper passes and the reference chain (R477
to R493, R504, R581). Die 4 is the Phievo die. -/

namespace Sys2Proof.Machine

/-- The device with the housekeeping processor's state changed. -/
def Device.onHk (d : Device) (f : Housekeeping → Housekeeping) : Device := { d with hk := f d.hk }

/-- The trim record is loaded (R527). -/
def Device.trimRecord (d : Device) : Bool := bit (d.get (pagePwr + 0x160)) 1

/-- A die that is powered: neither off in S3 nor held in reset (R481). -/
def Device.powered (d : Device) (n : Nat) : Bool := n == 4 || (d.sleepState n != 3 && !(d.power.down.contains n))

/-! ### One die's reading (R477, R479, R482) -/

/-- The valid reading of a die, in 1/16 °C (R477) (readings: log entry 55). -/
def Device.diodeReading (d : Device) (n : Nat) : Option Int :=
  match (d.converter n).diode with
  | none => none
  | some (w, t) =>
    let r := smapGet d.rom.record.diodes (0, 0) n
    let tj := Config.junction w r.1 r.2
    if t + 1000000 < d.pageTick (pageMon n) || !(bit (d.mcStat n) 1) || !d.trimRecord || tj < -320 || 2400 < tj then none else some tj

/-- RISE (R479): against the lowest valid reading of the 8 rounds before (readings: log entry 55). -/
def riseOf (now : Option Int) (old : List (Option Int)) : Int :=
  match now, (old.filterMap id) with
  | some t, x :: l => t - l.foldl (fun m y => if y < m then y else m) x
  | _, _ => 0

/-- The thermal state of a powered die: 0 NORMAL, 1 WARN, 2 THROTTLE, 3 QUENCH (R479, R482). -/
def Device.thermalState (d : Device) (tj : Option Int) (rise : Int) (invalid : Nat) : Nat :=
  match tj with
  | none => if 8 ≤ invalid then 3 else if 2 ≤ invalid then 2 else 0
  | some t =>
    if 320 < rise ∨ 1760 ≤ t then 3 else if 128 < rise ∨ 1680 ≤ t then 2
    else if 64 < rise ∨ signed 16 (d.get (pageThm + 0x12C)) ≤ t then 1 else 0

/-- THERM_STATE of a die. -/
def Device.therm (d : Device) (n : Nat) : Nat := bits (d.get (pageThm + 0x128)) (2 * n + 1) (2 * n)

/-- Words 3 and 4 of the thermal page's capture (R501). -/
def Device.thmEvent (d : Device) (b n status word4 : Nat) : Device :=
  d.event pageThm b (status + b * 0x100 + n * 0x10000)
    [d.get (pageThm + 0x100 + 4 * n) % 65536 + d.get (pageThm + 0x114 + 4 * n) % 65536 * 0x10000, word4]

/-- A die enters a thermal state, or leaves one (R479, R486) (readings: log entry 55). -/
def Device.enterState (d : Device) (n st : Nat) : Device :=
  let old := d.therm n
  let d := d.setBits (pageThm + 0x128) (2 * n + 1) (2 * n) st
  if st = old then d
  else
    let d := if old = 1 then d.onHk (fun h => { h with warnLeft := smapSet h.warnLeft n d.now }) else d
    if st = 1 then (d.count (pageThm + 0x168)).thmEvent 0 n stOk 0
    else if st = 2 then d.thmEvent 1 n stOk 0
    else if st = 3 then d.thmEvent 2 n stOk 0 else d

/-- One die read and evaluated in a round (R477 to R482) (readings: log entry 55). -/
def Device.evaluateDie (d : Device) (n : Nat) : Device :=
  let tj := d.diodeReading n
  let old := smapGet d.hk.temps [] n
  let rise := riseOf tj old
  let invalid := if tj.isSome || !(d.powered n) then 0 else smapGet d.hk.invalid 0 n + 1
  let o := pageThm + 0x100 + 4 * n
  let d := match tj with
    | some t => d.set o (toTwos 16 t + 2 ^ 31)
    | none => d.setBits o 31 31 0
  let d := (d.set (pageThm + 0x114 + 4 * n) (toTwos 16 rise)).onHk (fun h => { h with
    temps := smapSet h.temps n ((tj :: old).take 8), invalid := smapSet h.invalid n invalid
    seen := if tj.isSome then setInsert h.seen n else h.seen })
  let d := if tj.isNone then (d.count (pageThm + 0x180)).thmEvent 3 n stOk 0 else d
  let d := if n < 4 then d.setBits (pageNum n + 0x100) 0 0 (flag (match tj with
    | some t => decide (320 ≤ t) && decide (t ≤ 1680)
    | none => false)) else d
  let d := d.enterState n (if d.powered n then d.thermalState tj rise invalid else 0)
  if 64 < rise ∧ d.powered n then d.postAlarm n 1 else d

/-! ### Level requests (R480, R504) -/

/-- LEVEL_REQ bits 6:4 and the thermal level request of THERM_STATE set. -/
def Device.setThermalReq (d : Device) (v : Nat) : Device := (d.setBits (pageHeat + 0x138) 6 4 v).setBits (pageThm + 0x128) 18 16 v

/-- A step may be requested: at least 8 ms after the last one (R480). -/
def Device.mayStep (d : Device) : Bool :=
  match d.hk.lastStep with
  | none => true
  | some t => decide (t + 8000000 ≤ d.now)

/-- One level slower than the level in force requested (readings: log entry 55). -/
def Device.stepLevel (d : Device) : Device :=
  (d.setThermalReq (Nat.min 5 (d.perfLevel + 1))).onHk (fun h => { h with lastStep := some d.now, coolSince := none })

/-- The request of R504, by power or by droops (readings: log entry 55). -/
def Device.powerStep (d : Device) (drooped : Bool) : Device :=
  let above := d.power.rounds.length == 8 && decide (8 * d.get (pagePwr + 0x124) < sumNat d.power.rounds)
  if (above || drooped) && d.mayStep then
    ((d.stepLevel).count (pagePwr + 0x12C)).eventSt pagePwr 0 stOk [d.get (pagePwr + 0x120)]
  else d

/-- Every powered die is in NORMAL or WARN with a reading below TJ_WARN (R480). -/
def Device.allCool (d : Device) : Bool :=
  (List.range 5).all (fun n => !(d.powered n) || (decide (d.therm n ≤ 1) && (match (smapGet d.hk.temps [] n).headD none with
    | some t => decide (t < signed 16 (d.get (pageThm + 0x12C)))
    | none => false)))

/-- Every die has read below QUENCH_CLR (R484). -/
def Device.allBelow (d : Device) : Bool :=
  (List.range 5).all (fun n => match (smapGet d.hk.temps [] n).headD none with
    | some t => decide (t < signed 16 (d.get (pageThm + 0x134)))
    | none => !(d.powered n))

/-- THROTTLE_RELEASE (R480): one level toward the firmware's request after a hold (readings: log entry 55). -/
def opThrottleRelease (d : Device) : Device :=
  let w := d.get (pageHeat + 0x138)
  match d.hk.coolSince with
  | none => d
  | some t =>
    if bits w 6 4 ≤ bits w 2 0 then d
    else
      let due := t + 1000000 * d.get (pageThm + 0x130)
      let d := d.reach due
      (d.setThermalReq (bits w 6 4 - 1)).onHk (fun h => { h with coolSince := some due })

/-! ### Quench (R483, R484) -/

/-- The newest log entry with a detail of its own, when one was appended. -/
def Device.withDetail (d : Device) (before : Nat) (detail : List Nat) : Device :=
  if d.hist.log.length = before then d
  else d.onHist (fun h => { h with log := listModify h.log (h.log.length - 1) (fun e => { e with detail := detail }) })

/-- A fault reported toward the root, which declares the domain fault at once (R201, R424). -/
def Device.sendFault (d : Device) (evt : Nat) : Device :=
  if d.isRoot then d.declareFault stOk d.node else d.cellTo 0 (.fault d.node evt)

/-- The temper commits that are not applied withdrawn (R483). -/
def Device.withdrawTempers (d : Device) : Device :=
  (d.commits.commits.filter (·.temper)).foldl (fun d c => if c.pending then d.withdrawCommit c.tag else d.dropCommit c.tag) d

/-- The module quenched (R483) (readings: log entry 55). -/
def Device.quench (d : Device) : Device :=
  let n := d.hist.log.length
  let d := (d.onHk (fun h => { h with stopped := true, clearRounds := 0, passes := [] })).setBits (pageThm + 0x128) 24 24 1
  let d := ((List.range 4).foldl (fun d i => d.interruptPrograms i) d).withdrawTempers.count (pageThm + 0x170)
  let d := (d.record unitModule (Config.historyClass 0).toNat stOk pageThm).withDetail n
    ((List.range 5).map (fun i => d.get (pageThm + 0x100 + 4 * i) % 65536 + d.get (pageThm + 0x114 + 4 * i) % 65536 * 0x10000))
  d.sendFault 0x2602

/-! ### The round (R477 to R482, R504) -/

/-- PROOF_TJ in 1/16 °C (R591). -/
def Device.proofTj (d : Device) : Int := 16 * ((bits (d.get (pageHis + 0x10C)) 15 8 : Nat) : Int)

/-- The dies soak: in a maintenance heat under temperature stress, and through the gap that follows it (R580) (readings: log entry 70). -/
def Device.soaks (d : Device) : Bool := d.planRuns && d.heat.kind == 1 && bit d.power.stress 2

/-- The anvils of a die that the heat in progress does not use: no PASS word of its streams names them (R580). -/
def Device.unusedAnvils (d : Device) (die : Nat) : List Nat :=
  (dieCores die).flatMap (fun c =>
    let used := ((d.core c).stream.filter (fun w => wOp w == opPass)).filterMap (fun w => d.mapped c (passWord w).anvil)
    (d.liveAnvils [c]).filter (fun u => !(used.contains u)))

/-- The soak duty of a die for the coming round: none while its rise is above 3 °C or it has reached PROOF_TJ. The law by which
it is set otherwise is free (R580) (readings: log entry 70). -/
def Device.soakDuty (d : Device) (die : Nat) : Nat :=
  match (smapGet d.hk.temps [] die).headD none with
  | none => 0
  | some t => if 48 < signed 16 (d.get (pageThm + 0x114 + 4 * die)) ∨ d.proofTj ≤ t then 0 else (Config.soakDuty d.free die).toNat

/-- The soak passes of a die in a round: its program engine strikes test passes on the unused anvils, and delivers nothing
(R580) (readings: log entry 70). -/
def Device.soakDie (d : Device) (die : Nat) : Device :=
  let duty := if d.soaks && (smapFind d.billet.batches die).isNone then d.soakDuty die else 0
  let d := (d.onHk (fun h => { h with soak := if duty = 0 then smapErase h.soak die else smapSet h.soak die duty })).drawn
  if duty = 0 then d
  else (d.unusedAnvils die).foldl (fun d u =>
    let f := d.flash u
    d.setFlash u { f with strikeCnt := f.strikeCnt + Config.soakStrikes d.free duty u }) d

/-- Every Camia die soaks. -/
def Device.soakAll (d : Device) : Device := (List.range 4).foldl (fun d die => d.soakDie die) d

/-- The temperatures of a maintenance heat under temperature stress (R581). -/
def Device.watchStress (d : Device) : Device :=
  match d.work.proof with
  | none => d
  | some (prog, stressed, held) =>
    let goal : Int := d.proofTj
    let ok := (List.range 4).all (fun n => match (smapGet d.hk.temps [] n).headD none with
      | some t => decide (goal - 32 ≤ t) && decide (t ≤ goal + 32)
      | none => false)
    if d.soaks && decide (d.now < d.heat.start + d.heat.len) then
      { d with work := { d.work with proof := some (prog, stressed, held && ok) } } else d

/-- HOUSEKEEPING_ROUND, at the next multiple of 1 ms (readings: log entry 55). -/
def opHousekeepingRound (power : Nat) (d : Device) : Device :=
  let d := d.reach ((d.now / 1000000 + 1) * 1000000)
  let quenched := d.hk.stopped
  let d := (List.range 5).foldl (fun d n => d.evaluateDie n) d
  let drooped := (List.range 5).any (fun n => decide (d.get (pagePwr + 0x128) < (d.converter n).droops))
  let d := (List.range 5).foldl (fun d n => if (d.converter n).droops = 0 then d else d.onConverter n (fun c => { c with droops := 0 })) d
  let d := d.watchStress.soakAll.set (pagePwr + 0x120) power
  let d := { d with power := { d.power with rounds := (power :: d.power.rounds).take 8 } }
  let d := d.onHk (fun h => { h with
    coolSince := if d.allCool then (match h.coolSince with
      | some t => some t
      | none => some d.now) else none
    clearRounds := if d.allBelow then h.clearRounds + 1 else 0 })
  if !quenched && (List.range 5).any (fun n => d.therm n == 3) then d.quench
  else
    let d := if (List.range 5).any (fun n => d.therm n == 2) && d.mayStep then d.stepLevel.count (pageThm + 0x16C) else d
    d.powerStep drooped

/-! ### Temper passes (R72 to R74, R117, R485 to R491) -/

/-- TEMPER_EFF of a die, µs (R117, R486) (readings: log entry 56). -/
def Device.temperEff (d : Device) (die : Nat) : Nat :=
  let ivl := d.get (pageThm + 0x138)
  let halved := (List.range (smapGet d.hk.halved (0, 0) die).1).foldl (fun v _ => Nat.max (Nat.min v 1000) (v / 2)) ivl
  let fast := d.therm die == 1 || (match smapFind d.hk.warnLeft die with
    | some t => decide (d.now < t + 100000000)
    | none => false)
  if fast then Nat.min halved 2000 else halved

/-- The witness figures shown after a snapshot that has samples (R73). -/
def Device.showWitness (d : Device) (u : Nat) (x : AnvilState) : Device :=
  let page := pageAnv u
  if x.conv = 0 ∨ x.nsum = 0 then d
  else d.setWords (page + 0x190) [toTwos 32 (sat32 (witGain x.wit x.nsum)), toTwos 32 (sat32 (witOffs x.wit x.conv)),
    (clampInt (witResid x.wit) 0 0xFFFFFFFF).toNat]

/-- An anvil copies its witness accumulators into the snapshot, clears them, and counts the interval (R72) (readings: log entry 56). -/
def Device.snapshot (d : Device) (u : Nat) : Device :=
  let page := pageAnv u
  let x := d.anvil u
  let d := x.wit.zipIdx.foldl (fun (d : Device) e => d.set64 (page + 0x140 + 8 * e.2) (toTwos 64 e.1)) d
  let d := ((d.set64 (page + 0x180) x.nsum).set (page + 0x188) x.conv).count (page + 0x18C)
  let d := d.showWitness u x
  if x.conv = 0 then d else d.setAnvil u { x with wit := List.replicate 8 0, nsum := 0, conv := 0 }

/-- An alarm of a witness: the first anvil whose event started it (R468, R470). -/
def Device.witnessAlarm (d : Device) (u : Nat) : Device :=
  (d.onConverter (u / 68 / 128) (fun c => { c with witness := u % 68 + u / 68 % 128 * 128 })).postAlarm (u / 68 / 128) 0

/-- RESID_HIGH of an anvil (R74, R112). The capture carries OK and tile identity 0 (readings: log entry 66). -/
def Device.residHigh (d : Device) (u : Nat) : Device :=
  (((d.eventSt (pageAnv u) 5 stOk).record (unitAnvil (u / 68) (u % 68)) 2 stOk (pageAnv u)).requestReforge u)

/-- The comparison with DRIFT_LIM at a snapshot (R117) (readings: log entry 56). -/
def Device.judgeDrift (d : Device) (die : Nat) : Device :=
  let bad := (d.anvilsOf die).filter (fun u => d.drifts u)
  let h := smapGet d.hk.halved (0, 0) die
  let d := d.setBits (pageNum die + 0x100) 3 3 (flag (bad == []))
  if bad = [] then
    d.onHk (fun k => { k with halved := if h.1 = 0 then k.halved else if 99 ≤ h.2 then smapErase k.halved die else smapSet k.halved die (h.1, h.2 + 1) })
  else (d.onHk (fun k => { k with halved := smapSet k.halved die (h.1 + 1, 0) })).numEvent die 4 stOk 0 0

/-- The anvils of a die whose snapshot residual passes 5,000 ppm (R74). -/
def Device.residualAnvils (d : Device) (die : Nat) : List Nat := (d.anvilsOf die).filter (fun u => decide (5000 < d.get (pageAnv u + 0x198)))

/-- A page of an anvil of a die. -/
def isAnvilPage (die page : Nat) : Bool := pageKind page == some .anvil && offDie page == die

/-- A commit that holds or is to hold anvil pages of a die is not applied yet (R489) (readings: log entry 56). -/
def Device.temperHeld (d : Device) (die : Nat) : Bool :=
  d.commits.commits.any (fun c => (c.temper || c.pending) && c.pages.any (isAnvilPage die))

/-- The base trims of a die's cores as its pass uses them (R488). -/
def Device.takeBase (d : Device) (die : Nat) : Device :=
  (List.range 128).foldl (fun d i =>
    let c := 128 * die + i
    let b := d.baseTrims c
    d.onHk (fun h => { h with base := if b = (2048, 0) then smapErase h.base c else smapSet h.base c b })) d

/-- TEMPER_BOUNDARY (R72, R486, R489, R491) (readings: log entry 56). -/
def opTemperBoundary (die : Nat) (d : Device) : Device :=
  if d.hk.stopped || d.power.down.contains die || decide (2 ≤ d.sleepState die) then d
  else
    let d := (List.range (68 * 128)).foldl (fun d i => d.snapshot (68 * 128 * die + i)) d
    let resid := d.residualAnvils die
    let alarm := (d.anvilsOf die).find? (fun u => resid.contains u || d.drifts u)
    let d := (resid.foldl (fun d u => d.residHigh u) d).judgeDrift die
    let d := match alarm with
      | some u => d.witnessAlarm u
      | none => d
    if !d.trimRecord then d
    else if d.temperHeld die || (smapFind d.hk.passes die).isSome then d.count (pageThm + 0x178)
    else (d.takeBase die).onHk (fun h => { h with passes := smapSet h.passes die d.now })

/-- One anvil in a temper pass (R486): the correction, and the staged trims. -/
def Device.temperAnvil (d : Device) (u : Nat) : Device :=
  let page := pageAnv u
  let die := u / 68 / 128
  let keep := d.retired u || !(d.trimValid u) || decide (d.get (page + 0x188) < d.get (pageThm + 0x140))
  let old := d.correction u
  let step := correctionFor (signed 32 (d.get (page + 0x190))) (signed 32 (d.get (page + 0x194)))
  let d := if keep then d else d.setCorrection u (old.1 + step.1, old.2 + step.2)
  let t := trimOf (smapGet d.hk.base (2048, 0) (u / 68)) (d.correction u)
  let d := if trimOut t then
    (((d.count (pageThm + 0x17C)).thmEvent 4 die stOk (u / 68 % 128 * 256 + u % 68)).record (unitAnvil (u / 68) (u % 68)) 3 stOk
      pageThm).requestReforge u else d
  d.stageTrim u t

/-- The anvils that a die's temper set names: those of its usable cores with living routers. -/
def Device.temperAnvils (d : Device) (die : Nat) : List Nat :=
  ((d.usable.filter (fun c => c / 128 == die)).filter (fun c => !(d.isDead c))).flatMap (fun c => (List.range 68).map (68 * c + ·))

/-- TEMPER_PASS_DONE (R486, R487) (readings: log entry 56). -/
def opTemperPassDone (die : Nat) (d : Device) : Device :=
  match smapFind d.hk.passes die with
  | none => d
  | some t =>
    let us := d.temperAnvils die
    let d := (us.foldl (fun d u => d.temperAnvil u) d).onHk (fun h => { h with passes := smapErase h.passes die })
    d.hkSubmit (us.map pageAnv) (t + d.get (pageThm + 0x13C)) true

/-! ### The reference chain (R492, R493) -/

/-- One die's reference error written, and its correction staged with the die's next temper commit (readings: log entry 56). -/
def Device.measureRef (d : Device) (n : Nat) (err : Int) : Device :=
  let d := d.set (pageThm + 0x184 + 4 * n) (toTwos 32 err)
  let d := if n < 4 && err != 0 then d.onHk (fun h => { h with refStaged := smapSet h.refStaged n (clampInt (-err) (-200) 200) }) else d
  if err.natAbs ≤ 1000 then d.onHk (fun h => { h with refHigh := smapErase h.refHigh n })
  else if 10 ≤ smapGet d.hk.refHigh 0 n then
    ((d.thmEvent 5 n stOk 0).record unitModule (Config.historyClass 1).toNat stOk pageThm).onHk (fun h => { h with
      refHigh := smapErase h.refHigh n })
  else d

/-- REF_MEASURE: the error of each die's reference, in ppm. -/
def opRefMeasure (errors : List Int) (d : Device) : Device := (errors.take 5).zipIdx.foldl (fun (d : Device) e => d.measureRef e.2 e.1) d

def execHousekeepingRound (power : BitVec 16) (s : State) : Host.Outcome State Fault Refusal := s.onDev (opHousekeepingRound power.toNat)
def execThrottleRelease (s : State) : Host.Outcome State Fault Refusal := s.onDev opThrottleRelease
def execTemperBoundary (d : Die) (s : State) : Host.Outcome State Fault Refusal := s.onDev (opTemperBoundary d.val)
def execTemperPassDone (d : Die) (s : State) : Host.Outcome State Fault Refusal := s.onDev (opTemperPassDone d.val)
def execRefMeasure (errors : List Int) (s : State) : Host.Outcome State Fault Refusal := s.onDev (opRefMeasure errors)

end Sys2Proof.Machine
end

