-- ==== Sys2Proof/Machine/Passes.lean ====
section
/-! DEFINITION. Pass issues, strikes and pass results, drains and abort-drains (R53 to R92, R187, R188). -/

namespace Sys2Proof.Machine

/-! ### PASS (R187) -/

/-- The FP32 value that is the greater of two, a NaN standing for nothing. -/
def maxF32 (a b : U32) : U32 := if (f32 a).lt (f32 b) then b else a

/-- The largest column scale of a logical anvil (R170). -/
def Device.scaleMax (d : Device) (m : Memory) (c anvil : Nat) : U32 :=
  let s := (List.range 512).map (fun j => (d.colScale m c anvil).at_ m j)
  s.foldl maxF32 (s.headD 0)

/-- The factors s_g × s_wmax of a transposed pass (R170), by token. -/
def Device.gradFactors (d : Device) (m : Memory) (c : Nat) (p : PassWord) : List U32 :=
  if p.mode = 3 then
    let top := d.scaleMax m c p.anvil
    (List.range (2 ^ p.shape)).map (fun t => fMul (BitVec.ofNat 32 (m.nat (scaleAddr c p t) 4)) top)
  else []

/-- A sparse table with a list put in from a key on. -/
def putFrom {α : Type} (m : SMap α) (first : Nat) (l : List α) : SMap α :=
  (l.zipIdx first).foldl (fun m e => smapSet m e.2 e.1) m

/-- A join with the ledger terms, the factors and the row mask of one of its passes. -/
def Join.withTerms (j : Join) (slot : Nat) (ledger : List (List (Nat × Int))) (factors : List U32) (mask : Nat) : Join :=
  { j with
    ledger := putFrom j.ledger (128 * slot) ledger, factors := putFrom j.factors (128 * slot) factors
    masks := smapSet j.masks slot mask }

/-- What an issued PASS word leaves in its tile: the counts of R106, the tokens that consumed poisoned inputs (R403), and
the tick of its LAST word (R203). -/
def Tile.issued (t : Tile) (zn nz : Nat) (bad : List Nat) (last : Bool) (tick : Nat) : Tile :=
  { t.consume bad with zeroN := satAdd16 t.zeroN zn, nzN := satAdd16 t.nzN nz, lastTick := if last then tick else t.lastTick }

/-- Whether an anvil drops an issue (R59). -/
def Device.dropsIssue (d : Device) (c u : Nat) (p : PassWord) : Bool :=
  d.retired u || (d.anvil u).queue.isSome || decide (concurrency (d.level c) ≤ p.slot) ||
  (d.core c).slotBusy p.tile p.join p.slot

/-- An issue that an anvil drops (R60) (readings: log entry 33). -/
def Device.dropIssue (d : Device) (c u idx tick : Nat) (found : Bool) (p : PassWord) : Device :=
  ((d.count (pageAnv u + 0x11C)).eventSt (pageAnv u) 3 stPoisoned [p.tileId]).failSlot c idx tick found p stPoisoned

/-- An issue that no map entry takes (R613). -/
def Device.dropUnmapped (d : Device) (c idx tick : Nat) (found : Bool) (p : PassWord) : Device :=
  ((d.count (pageSeq c + 0x118)).seqEvent c 0 stPoisoned opPass idx).failSlot c idx tick found p stPoisoned

/-- An issue that enters an anvil's queue (R58). -/
def Device.takeIssue (d : Device) (m : Memory) (c u idx tick : Nat) (found : Bool) (p : PassWord) (codes : List (List Int)) :
    Device :=
  let x := d.anvil u
  let issue : PassIssue := ⟨x.serial, p.tile, p.join, p.slot, p.tileId, p.mode, p.split, codes⟩
  let factors := d.gradFactors m c p
  let ledger := if p.mode = 3 then [] else codes.map (d.ledgerTerm u)
  let mask := if p.mode = 3 then d.rowMask u else 0
  let d := d.setAnvil u { x with queue := some issue, serial := x.serial + 1 }
  let y := (d.core c).withSlot idx tick found p .issued
  match y.joinAt p.tile p.join with
  | some i => d.setCore c { y with joins := listModify y.joins i (fun j => j.withTerms p.slot ledger factors mask) }
  | none => d.setCore c y

/-- A PASS word issued: the tile opens on FIRST, the quantiser forms the codes, and the anvil takes or drops the issue
(R59, R103, R154, R187) (readings: log entry 33). -/
def Device.issuePass (d : Device) (m : Memory) (c idx tick : Nat) (p : PassWord) : Device :=
  let (found, d) := (d.countMiss c p (2 ^ p.shape)).findTile m c idx p
  let amax := match (if found then (d.core c).tile p.tile else none) with
    | some t => t.amax
    | none => (d.newTile m c idx p).amax
  let codes := (List.range (2 ^ p.shape)).map (d.codesOf m c p amax)
  let z := d.wordZeroCounts m c p amax codes
  let d := if found then d.onTile c p.tile (fun t => t.issued z.1 z.2 (poisonedTokens m c p) p.last tick) else d
  match d.mapped c p.anvil with
  | none => d.dropUnmapped c idx tick found p
  | some u => if d.dropsIssue c u p then d.dropIssue c u idx tick found p else d.takeIssue m c u idx tick found p codes

/-- The bytes of an input block with its scales (R187). -/
def blockBytes (p : PassWord) : Nat := granuleUp (2 ^ p.shape * rowBytes p) + (if p.wide then 0 else 4 * 2 ^ p.shape)

/-- The input blocks that an issued PASS word reads: those of every word of a tile it opens, else its own (R103). -/
def Device.blocksRead (d : Device) (c idx : Nat) (p : PassWord) : List PassWord :=
  if ((d.core c).tile p.tile).isNone && p.wide then ((d.core c).tileWords (d.cls c) idx p.tile).map (·.2) else [p]

/-- PASS (R187). -/
def opPassWord (c : Nat) (p : Part) : Part :=
  match p.dev.next c (isOp opPass) with
  | none => p
  | some (idx, w, tick, d) =>
    let q := passWord w
    let p := (d.blocksRead c idx q).foldl (fun p b => p.touch (storeAddr c b.inAddr) (blockBytes b)) { p with dev := d }
    let p : Part := match (if q.mode = 3 then p.dev.colScale p.mem c q.anvil else .one) with
      | .table a => p.touch a 2048
      | _ => p
    p.onDev (fun d => d.issuePass p.mem c idx tick q)

/-! ### PASS_START, STRIKE and PASS_RESULT (R53 to R56, R58) -/

/-- A pass in its join: the slot fails, and the tile of the join is spoilt (R149). -/
def Device.failIssue (d : Device) (c : Nat) (i : PassIssue) (status : Nat) : Device :=
  match (d.core c).joinAt i.entry i.join with
  | none => d
  | some k =>
    let x := d.core c
    let found := (x.joins[k]?.map (·.found)).getD false
    let d := d.setCore c { x with joins := listModify x.joins k (fun j => { j with slots := listSet j.slots i.slot (.failed status) }) }
    if found then d.onTile c i.entry (fun t => t.spoil status) else d

/-- A run that begins a pass: trims latched, the tree's sums at zero (R90). -/
def Device.beginPass (d : Device) (u : Nat) (i : PassIssue) (token half : Nat) : PassRun :=
  { issue := i, token := token, half := half, gain := d.trimG u, offs := d.trimF u
    sums := List.replicate (resultLength i.mode) 0, exact := List.replicate (resultLength i.mode) 0 }

/-- PASS_START (R58, R90, R92): the queued issue starts, or is refused when no valid trims are loaded. A refused issue counts once
in ANV_DROP_CNT (R94). -/
def opPassStart (c a : Nat) (d : Device) : Device :=
  let u := 68 * c + a
  let x := d.anvil u
  match x.run, x.queue with
  | none, some i =>
    if d.trimValid u then d.setAnvil u { x with queue := none, run := some (d.beginPass u i 0 0) }
    else
      let d := d.setAnvil u { x with queue := none }
      let d := (d.count (pageAnv u + 0x11C)).eventSt (pageAnv u) 4 stTrimInvalid [i.tileId]
      d.failIssue c i stTrimInvalid
  | _, _ => d

/-- Whether a half is the last of its pass (R55). -/
def lastHalf (mode half : Nat) : Bool := mode != 2 || half == 1

/-- The run after a plane, and the pass that has ended with it (R54, R56): the next plane, the low half of an A8W4 pass,
the next token, or none. -/
def Device.afterStrike (d : Device) (u : Nat) (r : PassRun) : Option PassRun × Option PassDone :=
  if r.plane + 1 < planesOf r.issue.mode then (some { r with plane := r.plane + 1 }, none)
  else
    let squares := squaresOf (d.anvil u) r.issue.mode (r.issue.codes.getD r.token [])
    let done : PassDone :=
      ⟨r.issue, r.token, r.half, r.sums, r.exact, if lastHalf r.issue.mode r.half then squares else [], r.ok, r.heavy, r.clamps⟩
    if r.issue.mode = 2 ∧ r.half = 0 then (some (d.beginPass u r.issue r.token 1), some done)
    else if r.token + 1 < r.issue.codes.length then (some (d.beginPass u r.issue (r.token + 1) 0), some done)
    else (none, some done)

/-- STRIKE (R49 to R53, R61 to R68, R71): one bit-plane of the running pass. -/
def opStrike (c a : Nat) (d : Device) : Device :=
  let u := 68 * c + a
  match (d.anvil u).run with
  | none => d
  | some r =>
    let codes := r.issue.codes.getD r.token []
    let (active, o) := planeOut (d.anvil u) d.free r.gain r.offs r.issue.mode r.half r.plane r.issue.split codes
    let d := (d.drawn).afterPlane u r.issue.tileId active (decide (r.issue.mode = 3)) o
    let r := { r with
      sums := addPlane r.issue.mode r.half r.plane r.sums o.sums, exact := addPlane r.issue.mode r.half r.plane r.exact o.exact
      ok := r.ok && d.anvilBounded u, heavy := r.heavy + o.heavy, clamps := r.clamps + o.clamps }
    let n := d.afterStrike u r
    let x := d.anvil u
    d.setAnvil u { x with run := n.1, tree := x.tree ++ n.2.toList }

/-- A tile's counts after a pass result (R66, R79, R124), and whether the conditions of R112 held for it. -/
def Tile.passResult (t : Tile) (heavy clamps chks : Nat) (ok : Bool) : Tile :=
  let t := { t with
    bounded := t.bounded && ok
    heavyN := satAdd16 t.heavyN heavy, clampN := satAdd16 t.clampN clamps, chkN := satAdd16 t.chkN chks
    heavy := t.heavy || decide (0 < heavy), chk := t.chk || decide (0 < chks) }
  let t := if 0 < heavy then t.mark stHeavy else t
  if 0 < chks then t.mark stChecksum else t

/-- The join with a pass result: its slot has delivered after the last token's last half. -/
def Join.deliver (j : Join) (e : PassDone) (lastOne : Bool) : Join :=
  { j with
    results := smapSet j.results (256 * e.issue.slot + 128 * e.half + e.token) e.sums
    exact := smapSet j.exact (256 * e.issue.slot + 128 * e.half + e.token) e.exact
    squares := if e.squares = [] then j.squares else smapSet j.squares (128 * e.issue.slot + e.token) e.squares
    slots := if lastOne then listSet j.slots e.issue.slot .delivered else j.slots }

/-- A pass result at the join adder. The results of a join that has lost a pass are discarded (R149). -/
def Device.joinTakes (d : Device) (c : Nat) (e : PassDone) (chks : Nat) : Device :=
  match (d.core c).joinAt e.issue.entry e.issue.join with
  | none => d
  | some k =>
    let x := d.core c
    match x.joins[k]? with
    | none => d
    | some j =>
      if j.slots.getD e.issue.slot .waiting ≠ .issued ∨ j.tileId ≠ e.issue.tileId then d
      else
        let lastOne := e.token + 1 == e.issue.codes.length && lastHalf e.issue.mode e.half
        let d := d.setCore c { x with joins := listSet x.joins k (j.deliver e lastOne) }
        if j.found then d.onTile c e.issue.entry (fun t => t.passResult e.heavy e.clamps chks e.ok) else d

/-- PASS_RESULT (R56, R77 to R79). -/
def opPassResult (c a : Nat) (d : Device) : Device :=
  let u := 68 * c + a
  let x := d.anvil u
  match x.tree with
  | [] => d
  | e :: rest =>
    let d := d.setAnvil u { x with tree := rest }
    let r := d.compare u e.issue.tileId e.issue.mode e.sums
    r.2.joinTakes c e r.1

/-! ### Drains and abort-drains (R80 to R83) -/

/-- The physical anvils of a mask of logical anvils that the map names (R613). -/
def Device.maskAnvils (d : Device) (c mask : Nat) : List Nat :=
  ((List.range 64).filter (fun l => bit mask l)).filterMap (fun l => d.mapped c l)

/-- The pass issues that an anvil holds. -/
def AnvilState.held (x : AnvilState) : List PassIssue :=
  x.queue.toList ++ (x.run.map (·.issue)).toList ++ x.tree.map (·.issue)

/-- A drain's part on one anvil is complete: no earlier pass is left, and no abort-drain runs (R80, R82). -/
def Device.partDrained (d : Device) (q : Nat × Nat) : Bool :=
  let x := d.anvil q.1
  x.aborts == 0 && x.held.all (fun i => decide (q.2 ≤ i.serial))

/-- A completed DRAIN or ABORT word: its signal (R188, R250), and a drain's report of whether its passes were discarded (R82). -/
def Device.drainSignal (d : Device) (c : Nat) (q : Drain) : Device :=
  let d := if q.abort then d else d.onCore c (fun x => { x with drainReport := some q.discarded })
  if q.sigen then d.sendSignals (sopMsg 1 q.obj 1 (d.seqAgent c)) else d

/-- DRAIN (R80). -/
def opDrainWord (c : Nat) (d : Device) : Device :=
  match d.next c (isOp opDrain) with
  | none => d
  | some (_, w, _, d) =>
    let q := drainWord w
    let parts := (d.maskAnvils c q.mask).map (fun u => (u, (d.anvil u).serial))
    d.onCore c (fun x => { x with drains := x.drains ++ [⟨q.obj, q.sigen, false, parts, false⟩] })

/-- DRAIN_COMPLETE (R80): the oldest drain whose anvils have all completed. -/
def opDrainComplete (c : Nat) (d : Device) : Device :=
  let ready : Drain → Bool := fun q => !q.abort && q.parts.all d.partDrained
  match (d.core c).drains.find? ready with
  | none => d
  | some q => (d.onCore c (fun x => { x with drains := dropFirst ready x.drains })).drainSignal c q

/-- The passes that an abort-drain of the anvil discards (R81). -/
def AnvilState.discards (x : AnvilState) : Nat :=
  sumNat (x.queue.toList.map (·.codes.length)) +
  sumNat (x.run.toList.map (fun r => r.issue.codes.length - r.token)) +
  (x.tree.filter (fun e => lastHalf e.issue.mode e.half)).length

/-- A drain once an abort-drain discards passes that an anvil holds: marked when one of them stands before it (R82). -/
def Drain.losing (q : Drain) (u : Nat) (held : List PassIssue) : Drain :=
  { q with discarded := q.discarded || q.parts.any (fun e => e.1 == u && held.any (fun i => decide (i.serial < e.2))) }

/-- An anvil emptied, its passes discarded and their joins lost with a status (R81, R149). -/
def Device.discardPasses (d : Device) (u status : Nat) : Device :=
  let x := d.anvil u
  let lost := x.held
  let d := d.onCore (u / 68) (fun y => { y with drains := y.drains.map (fun q => q.losing u lost) })
  let d := d.setAnvil u { x with
    queue := none, run := none, tree := [], discarded := x.discarded + x.discards
    discardedId := (lost.head?.map (·.tileId)).getD x.discardedId }
  lost.foldl (fun d i => d.loseSlot (u / 68) i.entry i.join i.slot status) d

/-- An abort-drain that reaches an anvil (R81). -/
def Device.abortAnvil (d : Device) (u : Nat) : Device :=
  let d := d.discardPasses u stPoisoned
  let x := d.anvil u
  d.setAnvil u { x with aborts := x.aborts + 1 }

/-- ABORT (R81). -/
def opAbortWord (c : Nat) (d : Device) : Device :=
  match d.next c (isOp opAbort) with
  | none => d
  | some (_, w, _, d) =>
    let q := drainWord w
    let us := d.maskAnvils c q.mask
    let r : Drain := ⟨q.obj, q.sigen, true, us.map (fun u => (u, 0)), false⟩
    let d := us.foldl (fun d u => d.abortAnvil u) d
    if us = [] then d.drainSignal c r else d.onCore c (fun x => { x with drains := x.drains ++ [r] })

/-- The counts of an anvil's discarded passes (R81). The capture carries POISONED: the spec names no code for it (readings: log entry 66). -/
def Device.countDiscarded (d : Device) (u : Nat) : Device :=
  let x := d.anvil u
  let d := d.setAnvil u { x with discarded := 0 }
  if x.discarded = 0 then d
  else (d.count (pageAnv u + 0x120) x.discarded).eventSt (pageAnv u) 7 stPoisoned [x.discardedId]

/-- A drain without its part on an anvil. -/
def Drain.without (q : Drain) (u : Nat) : Drain := { q with parts := q.parts.filter (fun e => e.1 != u) }

/-- A DRAIN or ABORT word is pending on an anvil. -/
def Drain.on (q : Drain) (u : Nat) : Bool := q.parts.any (fun e => e.1 == u)

/-- Pending words without their parts on an anvil, up to and with the oldest abort-drain there: it completes the drains before
it, and those after it wait (R82). -/
def oldestDone (u : Nat) : List Drain → List Drain
  | [] => []
  | q :: l => if q.on u && q.abort then q.without u :: l else q.without u :: oldestDone u l

/-- The core's pending words replaced, with the completions of those that were pending and wait for no anvil any more
(R82, R250). -/
def Device.completeDrains (d : Device) (c : Nat) (l : List Drain) : Device :=
  let ended : Drain × Drain → Bool := fun e => e.1.parts != [] && e.2.parts == []
  let both := (d.core c).drains.zip l
  let d := d.onCore c (fun y => { y with drains := (both.filter (fun e => !(ended e))).map (·.2) })
  (both.filter ended).foldl (fun d e => d.drainSignal c e.2) d

/-- ABORT_COMPLETE (R81, R82): the anvil's oldest abort-drain ends, and with it every drain that was pending there when it came. -/
def opAbortComplete (c a : Nat) (d : Device) : Device :=
  let u := 68 * c + a
  let x := d.anvil u
  if x.aborts = 0 then d
  else
    let d := (d.setAnvil u { x with aborts := x.aborts - 1 }).countDiscarded u
    d.completeDrains c (oldestDone u (d.core c).drains)

/-- The anvil's own part of a block reset (R83): it acts as an abort-drain with RESET_LOST, completed at once, and clears
the witness accumulators. The cells and the ledger stay. It counts what it discards before the page's counters return to their
reset values (readings: log entry 66). -/
def Device.resetAnvil (d : Device) (u : Nat) : Device :=
  let d := (d.discardPasses u stResetLost).countDiscarded u
  let d := d.completeDrains (u / 68) ((d.core (u / 68)).drains.map (fun q => q.without u))
  let x := d.anvil u
  d.setAnvil u { x with aborts := 0, wit := [0, 0, 0, 0, 0, 0, 0, 0], nsum := 0, conv := 0 }

def execPass (c : Core) (s : State) : Host.Outcome State Fault Refusal := s.onPart (opPassWord c.val)
def execPassStart (c : Core) (a : Anvil) (s : State) : Host.Outcome State Fault Refusal :=
  s.onDev (opPassStart c.val a.val)
def execStrike (c : Core) (a : Anvil) (s : State) : Host.Outcome State Fault Refusal := s.onDev (opStrike c.val a.val)
def execPassResult (c : Core) (a : Anvil) (s : State) : Host.Outcome State Fault Refusal :=
  s.onDev (opPassResult c.val a.val)
def execDrain (c : Core) (s : State) : Host.Outcome State Fault Refusal := s.onDev (opDrainWord c.val)
def execDrainComplete (c : Core) (s : State) : Host.Outcome State Fault Refusal := s.onDev (opDrainComplete c.val)
def execAbort (c : Core) (s : State) : Host.Outcome State Fault Refusal := s.onDev (opAbortWord c.val)
def execAbortComplete (c : Core) (a : Anvil) (s : State) : Host.Outcome State Fault Refusal :=
  s.onDev (opAbortComplete c.val a.val)

end Sys2Proof.Machine
end

