-- ==== Sys2Proof/Machine/Blocks.lean ====
section
/-! DEFINITION. Writes to the common layout of a page: staged images, discard, block reset, locks, events and captures (R83,
R258, R521, R522, R539 to R546, R554, R614). -/

namespace Sys2Proof.Machine

/-- A write refused for its width, its alignment or an absent page, or on the BHT page of a module that is not the bridge
(R462, R535, R541, R542) (readings: log entry 31). -/
def Device.badAccess (d : Device) (off v width agent : Nat) : Option Device :=
  if width != 4 || off % 4 != 0 then some (d.logAccess 1 off v agent)
  else if !(d.pageHere (pageOf off)) then some (d.logAccess 2 off v agent)
  else if pageOf off = pageBht ∧ !(bit (d.get (pageMesh + 0x100)) 12) then some (d.logAccess 7 off v agent)
  else none

/-- The device after a write that reaches its page, or after the refusal. -/
def Device.onPage (d : Device) (off v agent : Nat) (f : Device → Device) : Device :=
  match d.badAccess off v 4 agent with
  | some e => e
  | none => f (d.wakePage off)

/-! ### Staged images (R546, R549) -/

/-- STAGED_IMAGE_WRITE. -/
def opStagedImageWrite (off v agent : Nat) (d : Device) : Device :=
  d.onPage off v agent (fun d =>
    let page := pageOf off
    if !((stagedWords page).any (fun e => e.1 + 0x800 == offByte off)) then d.logAccess 3 off v agent
    else if d.pageHeld page then d.logAccess 5 off v agent
    else d.stageWord page (offByte off - 0x800) v)

/-- Every live ST field copied into the staged image (R538). -/
def Device.discardStage (d : Device) (page : Nat) : Device :=
  ((stagedWords page).foldl (fun (d : Device) e =>
    let w := d.staged page e.1
    d.set (page + e.1 + 0x800) (w - Nat.land w e.2 + Nat.land (d.get (page + e.1)) e.2)) d).setBits (page + 0xC) 3 3 0

/-- STAGE_DISCARD. -/
def opStageDiscard (page agent : Nat) (d : Device) : Device :=
  d.onPage (page + 0x40) 1 agent (fun d => if d.pageHeld page then d.logAccess 5 (page + 0x40) 1 agent else d.discardStage page)

/-! ### Events, captures, locks and counters (R538 to R545) -/

/-- EVT_CLEAR (R539). -/
def opEvtClear (page v agent : Nat) (d : Device) : Device :=
  d.onPage (page + 0x10) v agent (fun d =>
    let e := d.get (page + 0x10)
    d.set (page + 0x10) (e - Nat.land e v))

/-- CAP_CLEAR (R540). -/
def opCapClear (page agent : Nat) (d : Device) : Device :=
  d.onPage (page + 0x1C) 1 agent (fun d => (d.setWords (page + 0x20) (List.replicate 8 0)).set (page + 0x1C) 0)

/-- Whether a page has RWL fields (R545). -/
def hasLock (page : Nat) : Bool :=
  match pageKind page with
  | some k => (pageInfo k).ctrlRwl != 0 || (pageInfo k).regs.any (fun r => r.rwl != 0)
  | none => false

/-- LOCK_SET (R545). -/
def opLockSet (page agent : Nat) (d : Device) : Device :=
  d.onPage (page + 0x54) 1 agent (fun d => if hasLock page then d.set (page + 0x54) 2 else d)

/-- A page whose lock the firmware sets at boot (R545) (readings: log entry 41). -/
def bootLocked (page : Nat) : Bool :=
  match pageKind page with
  | some .anvil | some .monitor | some .power | some .board => true
  | _ => false

/-- Whether the lock of a page is set: by LOCK.SET, or by the firmware at boot. -/
def Device.isLocked (d : Device) (page : Nat) : Bool :=
  bit (d.get (page + 0x54)) 1 || (d.power.locks && bootLocked page)

/-- ACC_LOG_CLEAR (R557). -/
def opAccLogClear (d : Device) : Device := d.setWords (pageCom + 0x140) (List.replicate 6 0)

/-- The counters that CTRL.CNT_CLR of a page clears: on the power page the sleep counters and PWR_REQ_CNT only (R531). -/
def counterOffs (page : Nat) : List Nat :=
  match pageKind page with
  | none => []
  | some .power => [0x114, 0x118, 0x11C, 0x12C]
  | some k =>
    let i := pageInfo k
    if i.cntHi = 0 then [] else (List.range ((i.cntHi - i.cntLo) / 4 + 1)).map (fun j => i.cntLo + 4 * j)

/-- CNT_CLR. -/
def opCntClr (page agent : Nat) (d : Device) : Device :=
  d.onPage (page + 0x8) 1 agent (fun d =>
    if counterOffs page = [] then d.logAccess 3 (page + 0x8) 1 agent
    else (counterOffs page).foldl (fun (d : Device) o => d.set (page + o) 0) d)

/-! ### Block reset (R83, R258, R521, R522, R554, R614) -/

/-- BLK_RESET: the key is accepted, and the reset acts 64 ticks later (R521, R544). -/
def opBlkReset (page key agent : Nat) (d : Device) : Device :=
  d.onPage (page + 0x50) key agent (fun d =>
    match pageKind page with
    | none => d
    | some k =>
      if (pageInfo k).blkReset && key == idType k page * 0x10000 + 0xA5C3 then
        d.onCommits (fun c => { c with resets := c.resets ++ [(page, d.now + 64)] })
      else d.logAccess 6 (page + 0x50) key agent)

/-- The live registers of a page and its staged images at their reset values, but for kept ST fields, whose staged copies
take their live values (R521) (readings: log entry 42). -/
def Device.resetRegs (d : Device) (page : Nat) (kept : List Nat) : Device :=
  let old := d
  let d := (d.resetRange (page + 0x100) (page + 0xF00)).setBits (page + 0xC) 3 3 0
  kept.foldl (fun (d : Device) o => (d.set (page + o) (old.get (page + o))).set (page + o + 0x800) (old.get (page + o))) d

/-- The joins in flight lost, the tiles freed without outputs, and the path's requests in flight completed with RESET_LOST
(R614) (readings: log entry 42). -/
def Device.emptyTiles (d : Device) (c : Nat) : Device :=
  let x := d.core c
  let d := d.count (pageAcc c + 0x110) (x.joins.filter (fun j => !j.lost)).length
  let d := d.loseWords c (x.fullQ.map (fun q => (opFull, q.idx)) ++ x.treeQ.map (fun q => (opTree, q.idx)) ++
    x.epiQ.map (fun q => (opEpi, q.idx)))
  d.setCore c { x with tiles := [], joins := [], fullQ := [], treeQ := [], epiQ := [], epiOut := [], parts := [] }

/-- A core's sequencer emptied: its words, its fetched stream and its waits (R258). -/
def Device.emptySequencer (d : Device) (c : Nat) : Device :=
  (d.onCore c (fun x => { x with
    stream := [], poisoned := [], spare := none, guards := [], window := none, drains := [] })).dropWaits (agentId d.node 0 c)

/-- The blocks' queues and their own part of a reset (readings: log entry 42). -/
def Device.resetBlock (d : Device) (page : Nat) : Device :=
  match pageKind page, pageCore page with
  | some .anvil, some c =>
    let u := 68 * c + (offBlock page - 0x40)
    let running := match smapFind d.billet.batches (c / 128) with
      | some b => b.anvils.any (fun a => a.anvil == u)
      | none => false
    let d := if running then d.interruptPrograms (c / 128) else d
    (d.resetAnvil u).resetRegs page (0x104 :: (List.range 32).map (fun i => 0x300 + 4 * i))
  | some .accumulator, some c => (d.emptyTiles c).resetRegs page []
  | some .sequencer, some c => (d.emptySequencer c).resetRegs page []
  | some .bellows, _ =>
    let k := 8 * offDie page + (offUnit page - 0x10)
    let core := 128 * (k / 8) + 16 * (k % 8)
    let d := d.loseWords core ((d.core core).attnQ.map (fun q => (opAttn, q.idx)))
    (d.onCore core (fun x => { x with attnQ := [], retries := [] })).resetRegs page []
  | _, _ => d

/-- A page reset, and the pending commit that holds it failed (R554) (readings: log entry 42). -/
def Device.resetPage (d : Device) (page : Nat) : Device := (d.resetBlock page).failHeld page

/-- BLOCK_RESET: a reset that was accepted acts at its tick (R521) (readings: log entry 42). -/
def opBlockReset (page : Nat) (d : Device) : Device :=
  match d.commits.resets.find? (fun r => r.1 == page) with
  | none => d
  | some r => ((d.reach r.2).onCommits (fun c => { c with resets := dropFirst (· == r) c.resets })).resetPage page

def execStagedImageWrite (off v : U32) (agent : Agent) (s : State) : Host.Outcome State Fault Refusal :=
  s.onDev (fun d => d.written agent.toNat (opStagedImageWrite off.toNat v.toNat agent.toNat))
def execStageDiscard (page : U32) (agent : Agent) (s : State) : Host.Outcome State Fault Refusal :=
  s.onDev (fun d => d.written agent.toNat (opStageDiscard (pageOf page.toNat) agent.toNat))
def execBlkReset (page key : U32) (agent : Agent) (s : State) : Host.Outcome State Fault Refusal :=
  s.onDev (fun d => d.written agent.toNat (opBlkReset (pageOf page.toNat) key.toNat agent.toNat))
def execBlockReset (page : U32) (s : State) : Host.Outcome State Fault Refusal := s.onDev (opBlockReset (pageOf page.toNat))
def execLockSet (page : U32) (agent : Agent) (s : State) : Host.Outcome State Fault Refusal :=
  s.onDev (fun d => d.written agent.toNat (opLockSet (pageOf page.toNat) agent.toNat))
def execCapClear (page : U32) (agent : Agent) (s : State) : Host.Outcome State Fault Refusal :=
  s.onDev (fun d => d.written agent.toNat (opCapClear (pageOf page.toNat) agent.toNat))
def execEvtClear (page bits : U32) (agent : Agent) (s : State) : Host.Outcome State Fault Refusal :=
  s.onDev (fun d => d.written agent.toNat (opEvtClear (pageOf page.toNat) bits.toNat agent.toNat))
def execAccLogClear (agent : Agent) (s : State) : Host.Outcome State Fault Refusal := s.onDev (fun d => d.written agent.toNat opAccLogClear)
def execCntClr (page : U32) (agent : Agent) (s : State) : Host.Outcome State Fault Refusal :=
  s.onDev (fun d => d.written agent.toNat (opCntClr (pageOf page.toNat) agent.toNat))

end Sys2Proof.Machine
end

