-- ==== Sys2Proof/Machine/Mesh.lean ====
section
/-! DEFINITION. The mesh: what a port does with each frame, training, enumeration and the time base (R251 to R256, R266,
R418 to R442). -/

namespace Sys2Proof.Machine

/-! ### Reception (R423 to R429) -/

/-- TYPE of a frame (R424). -/
def Cell.type : Cell → Nat
  | .data .. => 0x01 | .signal .. => 0x02 | .barArrive .. => 0x03 | .barRelease .. => 0x04 | .barFault .. => 0x05
  | .heatArrive .. => 0x06 | .heatRelease .. => 0x07 | .timing .. => 0x08 | .train .. => 0x09 | .hello .. => 0x0A
  | .ringDisc .. => 0x0B | .fault .. => 0x0C | .done .. => 0x0D

/-- An event of a port page (R464). -/
def Device.portEvent (d : Device) (p b status type src seq : Nat) : Device :=
  d.eventSt (pagePort p) b status [type + src * 2 ^ 16, seq]

/-- A mesh frame refused (R423, R424) (readings: log entry 44). -/
def Device.stranger (d : Device) (p : Nat) (f : MeshHdr) (type : Nat) : Device :=
  (d.count (pagePort p + 0x154)).portEvent p 5 stOk type f.src.toNat f.seq.toNat

/-- PORT_CFG.MODE (R458). -/
def Device.portMode (d : Device) (p : Nat) : Nat := bits (d.get (pagePort p + 0x100)) 1 0

/-- A frame that travels on (R429) (readings: log entry 44). -/
def Device.forward (d : Device) (p : Nat) (f : MeshHdr) (c : Cell) : Device :=
  if f.hops.toNat = 0 then d.count (pagePort p + 0x168)
  else
    let groups := bits (d.get (pageMesh + 0x100)) 21 16
    if groups ≠ 0 ∧ groups ≤ f.dst.toNat / 16 then d.count (pagePort p + 0x16C)
    else
      (d.count (pageMesh + 0x118)).sendOn (d.portTo f.dst.toNat c.bulkOdd) f.src.toNat f.dst.toNat (f.hops.toNat - 1)
        f.heat.toNat false c

/-- A register that counts several things at once, saturating (R458). -/
def Device.countMany (d : Device) (off n : Nat) : Device := d.set off (Nat.min 0xFFFFFFFF (d.get off + n))

/-- The history of a lane of a port (R582, R583: class LINK). Which of the four lanes an event belongs to, the spec does not
say (readings: log entry 44). -/
def Device.linkRecord (d : Device) (p : Nat) : Device :=
  (d.record (unitLane (4 * p + (Config.faultLane d.free).toNat)) 8 stOk (pagePort p)).drawn

/-- What the FEC of a port has found in the codewords of a frame (R419, R458) (readings: log entry 44). -/
def Device.fecSeen (d : Device) (p : Nat) (f : MeshHdr) (type : Nat) : Device :=
  let d := d.countMany (pagePort p + 0x140) f.fecCorrected
  if f.fecUncorrectable = 0 then d
  else ((d.countMany (pagePort p + 0x144) f.fecUncorrectable).portEvent p 2 stOk type f.src.toNat f.seq.toNat).linkRecord p

/-- What a port does with a frame once its FEC has taken it: whether it is for this module, and the device after the checks,
the counts and a forwarding (readings: log entry 44). -/
def Device.judge (d : Device) (p : Nat) (f : MeshHdr) (c : Cell) : Bool × Device :=
  if d.portMode p = 2 then (false, d.count (pagePort p + 0x158))
  else if d.portMode p ≠ 1 then (false, d)
  else if !f.fcsOk then (false, d.count (pagePort p + 0x148))
  else if bit (d.get (pagePort p + 0x100)) 12 && !f.macsecOk then
    (false, (d.count (pagePort p + 0x15C)).portEvent p 6 stOk c.type f.src.toNat f.seq.toNat)
  else if f.express != c.express || !(f.toOwn || (f.broadcast && decide (9 ≤ c.type) && decide (c.type ≤ 0xB))) then
    (false, d.stranger p f c.type)
  else
    let d := (d.count64 (pagePort p + 0x128) 1).count64 (pagePort p + 0x138) c.size
    if f.broadcast || f.dst.toNat = d.node then (true, d) else (false, d.forward p f c)

/-- A port takes a frame (readings: log entry 44). -/
def Device.intake (d : Device) (p : Nat) (f : MeshHdr) (c : Cell) : Bool × Device := (d.fecSeen p f c.type).judge p f c

/-- What a frame does when it is for this module (readings: log entry 44). -/
def Device.onFrame (d : Device) (p : Nat) (f : MeshHdr) (c : Cell) (act : Device → Device) : Device :=
  if (d.intake p f c).1 then act (d.intake p f c).2 else (d.intake p f c).2

/-! ### Cells for the sync unit (R243, R424) -/

/-- A signal that another module sends, held for the commit with DEFER (R243). -/
def Device.farSignal (d : Device) (obj sop v agent : Nat) (defer : Bool) : Device :=
  if defer then { d with deferred := d.deferred ++ (sopMsg sop obj v agent).map (fun m => ⟨4, 0, 0, m⟩) }
  else d.sendSignals (sopMsg sop obj v agent)

/-- SIGNAL_CELL. -/
def opSignalCell (p : Nat) (f : MeshHdr) (obj sop : Nat) (defer : Bool) (v agent : Nat) (d : Device) : Device :=
  d.onFrame p f (.signal obj sop v agent defer) (fun d => d.farSignal obj sop v agent defer)

/-- BAR_ARRIVE_CELL. -/
def opBarArriveCell (p : Nat) (f : MeshHdr) (obj agent : Nat) (d : Device) : Device :=
  d.onFrame p f (.barArrive obj agent) (fun d => d.sendSignals [.arrive obj agent])

/-- BAR_RELEASE_CELL. -/
def opBarReleaseCell (p : Nat) (f : MeshHdr) (obj : Nat) (d : Device) : Device :=
  d.onFrame p f (.barRelease obj) (fun d =>
    (d.sendSignals [.release obj (agentId f.src.toNat 4 (Config.faultIndex d.free).toNat)]).drawn)

/-- BAR_FAULT_CELL (R236). -/
def opBarFaultCell (p : Nat) (f : MeshHdr) (obj : Nat) (d : Device) : Device :=
  d.onFrame p f (.barFault obj) (fun d =>
    Device.faultBarrier 1025 obj (agentId f.src.toNat 4 (Config.faultIndex d.free).toNat) d.drawn)

/-! ### Heat boundary cells -/

/-- HEAT_ARRIVE_CELL. -/
def opHeatArriveCell (p : Nat) (f : MeshHdr) (a : Arrival) (d : Device) : Device :=
  d.onFrame p f (.heatArrive a.heatNum a.replay a.fault a.unlock a.level a.cls a.missing a.stress) (fun d => d.arriveCell a)

/-- HEAT_RELEASE_CELL. -/
def opHeatReleaseCell (p : Nat) (f : MeshHdr) (r : Release) (d : Device) : Device :=
  d.onFrame p f (.heatRelease r.heatNum r.start r.level r.replay r.fault r.classes) (fun d => d.releaseCell r)

/-- The group classes of a release: 4 bits each, group 0 in the high nibble of the first byte (R424). -/
def groupClassesOf (w : Nat) : List Nat := (List.range 32).map (fun g => bits w (127 - 4 * g) (124 - 4 * g))

/-! ### DATA and DONE frames (R425 to R427, R241, R455) -/

/-- The granules of a frame that are poisoned, by their place. -/
def headerPoison (h : DataHdr) : List Nat := (List.range h.len).filter (fun i => bit h.poison.toNat i)

/-- The status under which a frame's write is refused, OK when it is performed (R258, R387, R427, R519) (readings: log entry 44). -/
def Part.frameStatus (p : Part) (h : DataHdr) : Nat :=
  if h.tenant ≠ 0xFF ∧ !(p.tenantMay h.tenant.toNat h.addr.toNat (64 * h.len) true) then stTenant
  else if p.dev.inReset h.addr.toNat (64 * h.len) then stResetLost
  else if isNarrow h.addr.toNat (64 * h.len) then stNarrow
  else stOk

/-- The device after the refusal of a frame's write (readings: log entry 44). -/
def Device.refuseFrame (d : Device) (h : DataHdr) (status : Nat) : Device :=
  if status = stTenant then d.tenantRefused h.tenant.toNat h.addr.toNat
  else if status = stNarrow then d.refuseNarrow h.addr.toNat (64 * h.len) h.agent.toNat
  else d

/-- What the module remembers a transfer by between its frames: a relayed operation by its OPID, another transfer by the
address at which its next frame begins (R425). -/
def frameKey (src : Nat) (h : DataHdr) : Nat × Nat :=
  if h.bht then (src + 512, h.opid.toNat) else (src, h.addr.toNat)

/-- The key of the frame that follows. -/
def nextKey (src : Nat) (h : DataHdr) : Nat × Nat :=
  if h.bht then (src + 512, h.opid.toNat) else (src, h.addr.toNat + 64 * h.len)

/-- The key under which a frame that was dropped is remembered (R241, R426). -/
def lostKey (src : Nat) (h : DataHdr) : Nat × Nat :=
  if h.bht then (src + 1024, h.opid.toNat) else nextKey src h

/-- The device after a DATA frame that a check dropped: the transfer it belongs to is not written whole (R241). -/
def Device.frameLost (d : Device) (src : Nat) (h : DataHdr) : Device :=
  let rest := d.mesh.broken.filter (fun k => k != frameKey src h && k != lostKey src h)
  { d with mesh := { d.mesh with broken := if h.last then rest else rest ++ [lostKey src h] } }

/-! ### Parts of split tiles from other modules (R167, R169) -/

/-- The places of the 1 bits of a word below a bound. -/
def onesBelow (w n : Nat) : List Nat := (List.range n).filter (bit w)

/-- A part as its bytes say it, with the core that it goes to (readings: log entry 67). -/
def partFrom (src : Nat) (bytes : List Byte) : Nat × TreePart :=
  let w := Config.partNumbers bytes
  let v := fun i => w.getD i 0
  let body := (w.drop 14).map (BitVec.ofNat 32)
  (v 0, { node := src, core := v 1, entry := v 2, shape := v 3 % 8, absent := v 4 != 0, main := body.take (v 13), side := body.drop (v 13)
          clampN := v 5, zeroN := v 6, nzN := v 7, heavyN := v 8, chkN := v 9, kN := v 10
          conds := onesBelow (v 11) 256, poison := onesBelow (v 12) 64 })

/-- A part that has arrived whole, with the tree adder of its core (R167, R194). -/
def Device.takePart (d : Device) (src : Nat) (bytes : List Byte) : Device :=
  let r := partFrom src bytes
  if r.1 < 512 then d.onCore r.1 (fun x => { x with parts := x.parts ++ [r.2] }) else d

/-- A frame of a part: kept until the last one has brought the part whole. A frame that is not the next one ends the part
without arrival (R194). -/
def Device.partFrame (d : Device) (src off : Nat) (h : DataHdr) (payload : List Byte) : Device :=
  let k := src * 2 ^ 26 + h.agent.toNat
  let held := smapGet d.mesh.parts [] k
  let bytes := (if off = 0 then [] else held) ++ payload
  let others := smapErase d.mesh.parts k
  let next := if off != 0 && off != held.length || h.poison != 0 then others else if h.last then others else smapSet others k bytes
  let d := { d with mesh := { d.mesh with parts := next } }
  if (off != 0 && off != held.length) || h.poison != 0 || !h.last then d else d.takePart src bytes

/-- The signal of a transfer's last frame: that of a session within its tenant's range (R242), else as sent. -/
def Device.frameSignal (d : Device) (h : DataHdr) : Nat × Device :=
  if h.bht then d.tenantSignal h.tenant.toNat h.obj.toNat h.sop.toNat h.value.toNat h.agent.toNat
  else (stOk, d.farSignal h.obj.toNat h.sop.toNat h.value.toNat h.agent.toNat h.defer)

/-- Whether a DONE frame answers a frame: the last of a relayed operation, and another frame refused for its tenant (readings: log entry 44). -/
def answersFrame (h : DataHdr) (status : Nat) : Bool := if h.bht then h.last else status == stTenant

/-- The frame's data written, its transfer followed, its signal applied and its answer sent. -/
def Part.takeData (p : Part) (src : Nat) (h : DataHdr) (payload : List Byte) : Part :=
  let data := padTo (64 * h.len) 0 payload
  let wasBroken := p.dev.mesh.broken.contains (frameKey src h)
  let wasLost := h.bht && p.dev.mesh.broken.contains (lostKey src h)
  let own := p.frameStatus h
  let status := if h.bht && wasBroken && own == stOk then stNarrow else own
  let whole := status == stOk && p.dev.allHere h.addr.toNat h.len
  let p := p.onDev (·.wakeRange h.addr.toNat (64 * h.len))
  let p := if status = stOk then ((p.writePieces h.addr.toNat data (headerPoison h)).shardData h.addr.toNat data.length).onDev
      (·.noteWriter h.tenant.toNat h.addr.toNat data.length)
    else p.onDev (·.refuseFrame h own)
  let ok := whole && !wasBroken && !wasLost
  p.onDev (fun d =>
    let rest := d.mesh.broken.filter (fun k => k != frameKey src h && (k != lostKey src h || !h.last))
    let d := { d with mesh := { d.mesh with broken := if whole && !wasBroken || h.last then rest else rest ++ [nextKey src h] } }
    let (st, d) := if ok && h.last && h.sig then d.frameSignal h else (stOk, d)
    let answer := statusOf [status, st]
    if answersFrame h status then d.cellTo src (.done h.opid.toNat answer (agentIndex h.agent.toNat)) else d)

/-- A frame that a check of R426 drops at the module it was for. -/
def Device.drops (d : Device) (port : Nat) (f : MeshHdr) : Bool :=
  d.portMode port == 1 && f.dst.toNat == d.node && (!f.fcsOk || (bit (d.get (pagePort port + 0x100)) 12 && !f.macsecOk))

/-- DATA_FRAME (readings: log entry 44). -/
def opDataFrame (port : Nat) (f : MeshHdr) (h : DataHdr) (payload : List Byte) (p : Part) : Part :=
  let r := p.dev.intake port f (.data h payload)
  if r.1 then
    match (if h.bht then none else Config.partOffset h.addr.toNat) with
    | some off => { p with dev := r.2.partFrame f.src.toNat off h (padTo (64 * h.len) 0 payload) }
    | none => ({ p with dev := r.2 } : Part).takeData f.src.toNat h payload
  else { p with dev := if p.dev.drops port f then r.2.frameLost f.src.toNat h else r.2 }

/-! ### Training (R433, R434) -/

/-- A port's state. -/
def Device.port (d : Device) (p : Nat) : PortState := smapGet d.mesh.ports {} p
/-- The device with a port's state changed. -/
def Device.onPort (d : Device) (p : Nat) (g : PortState → PortState) : Device :=
  { d with mesh := { d.mesh with ports := smapSet d.mesh.ports p (g (d.port p)) } }

/-- The 1,024 TRAIN cells of a port, 1 µs apart (R433). -/
def Device.sendTrain (d : Device) (p : Nat) : Device :=
  (List.range 1024).foldl (fun d i => d.cellOn p true (.train 0 i (d.now + 1000 * i) 0)) d

/-- The four lanes of a port calibrated: their counts and ticks, and the eyes they show (R458, R494). -/
def Device.calibrateLanes (d : Device) (p : Nat) : Device :=
  ((List.range 4).foldl (fun d i =>
    let j := 4 * p + i
    ((d.count (pageThm + 0x200 + 4 * j)).set64 (pageThm + 0x280 + 8 * j) d.now).set (pagePort p + 0x110 + 4 * i)
      (Config.laneEye d.free j).toNat) d).drawn

/-- A port that trains: its lanes and FEC lock, and on a mesh port preemption and the hop latency follow (R434) (readings: log entry 44). -/
def Device.train (d : Device) (p : Nat) (lock preempt : Bool) (rate : Nat) : Device :=
  let cfg := d.get (pagePort p + 0x100)
  if !(bit cfg 31) || bits cfg 1 0 = 0 || !lock then d
  else
    let up := bit (d.get (pagePort p + 0x104)) 0
    let d := (d.set (pagePort p + 0x104) (1 + 2 + 4 * flag preempt + 32 * (rate % 4))).calibrateLanes p
    let d := if up then d else d.portEvent p 0 stOk 0 0 0
    if bits cfg 1 0 = 1 then (d.onPort p (fun x => { x with training := true, figures := [] })).sendTrain p else d

/-- PORT_TRAINING. -/
def opPortTraining (p : Nat) (lock preempt : Bool) (rate : Nat) (d : Device) : Device := d.train p lock preempt rate

/-- A latency seen in TRAIN or TIMING timestamps against HOP_LAT (R434). -/
def Device.lateCheck (d : Device) (p : Nat) (f : MeshHdr) (type : Nat) (seen : Int) : Device :=
  if (bits (d.get (pagePort p + 0x108)) 15 0 : Int) < seen then
    (d.count (pagePort p + 0x160)).portEvent p 3 stOk type f.src.toNat f.seq.toNat
  else d

/-- TRAIN_CELL (R433): a request is returned to its sender, a return gives a figure. -/
def opTrainCell (p : Nat) (f : MeshHdr) (role seq sent turn : Nat) (d : Device) : Device :=
  d.onFrame p f (.train role seq sent turn) (fun d =>
    if role = 0 then (d.cellOn p true (.train 1 seq sent (Config.turnaround d.free).toNat)).drawn
    else if (d.port p).training then d.onPort p (fun x => { x with figures := x.figures ++ [d.now - sent - turn] })
    else d.lateCheck p f 0x09 ((d.now - sent - turn) / 2))

/-- HOP_MEAS (R433): the largest HOP_LAT of the mesh ports. -/
def Device.measureHops (d : Device) : Device :=
  d.set (pageHeat + 0x150) ((List.range 8).foldl (fun m p =>
    if d.portMode p = 1 then Nat.max m (bits (d.get (pagePort p + 0x108)) 15 0) else m) 0)

/-- The hop latency and its spread of figures in half nanoseconds (R433). -/
def hopLat (l : List Nat) : Nat := ceilDiv (l.foldl Nat.max 0) 2 + 4
def hopJit (l : List Nat) : Nat := (l.foldl Nat.max 0 - l.foldl Nat.min (l.headD 0)) / 2

/-- TRAINING_DONE (R433): the port's figures, those that its cells have given or those the command brings. -/
def opTrainingDone (p : Nat) (figures : List Nat) (d : Device) : Device :=
  let x := d.port p
  if !x.training then d
  else
    let l := x.figures ++ figures
    let d := d.onPort p (fun x => { x with training := false, figures := [] })
    let d := (d.set (pagePort p + 0x108) (Nat.min (hopLat l) 0xFFFF)).set (pagePort p + 0x10C) (Nat.min (hopJit l) 0xFFFF)
    (d.setBits (pagePort p + 0x104) 3 3 1).measureHops

/-- RETRAIN (R434): ignored and logged while a plan runs. -/
def opRetrain (p agent : Nat) (d : Device) : Device :=
  if d.planRuns then d.refuseCtrl (pagePort p) 2 agent
  else
    let d := (d.setBits (pagePort p + 0x104) 3 3 0).calibrateLanes p
    if bits (d.get (pagePort p + 0x104)) 1 0 = 3 ∧ d.portMode p = 1 then
      (d.onPort p (fun x => { x with training := true, figures := [] })).sendTrain p else d

/-- The first port that is up on the way to the root, and any port that is up when that one is not (R436). -/
def Device.faultPort (d : Device) (failed : Nat) : Option Nat :=
  let up : Nat → Bool := fun p => p != failed && bit (d.get (pagePort p + 0x104)) 0 && d.portMode p == 1
  let tb := bits (d.get (pageMesh + 0x110)) 2 0
  if up tb then some tb else if up (d.portTo 0 false) then some (d.portTo 0 false) else (List.range 8).find? up

/-- LINK_DOWN (R436): a FAULT cell carries the block and the bit of the event. -/
def opLinkDown (p : Nat) (d : Device) : Device :=
  let w := d.get (pagePort p + 0x104)
  let d := d.set (pagePort p + 0x104) (withBits w 3 0 0)
  let d := ((d.count (pagePort p + 0x164)).portEvent p 1 stOk 0 0 0).linkRecord p
  let d := d.onPort p (fun x => { x with training := false, figures := [] })
  if d.portMode p ≠ 1 then d
  else if d.isRoot then d.declareFault stOk d.node
  else match d.faultPort p with
    | some q => d.sendOn q d.node 0 24 d.heatField false (.fault d.node ((0x40 + p) * 0x100 + 1))
    | none => d

/-! ### The time base (R252 to R255, R435) -/

/-- Something done to the time-base page of each of the five dies, which follow one another (R251, R266) (readings: log entry 29). -/
def Device.eachTb (d : Device) (f : Device → Nat → Device) : Device := (List.range 5).foldl (fun d p => f d (pageTb p)) d

/-- An event of the time-base pages (R267). -/
def Device.tbEvent (d : Device) (b : Nat) (offset : Int) : Device :=
  d.eachTb (fun d g => d.event g b (b * 0x100 + toTwos 16 offset * 0x10000))

/-- TB_STAT of the five dies, which follow one another (R251). -/
def Device.setTb (d : Device) (hi lo v : Nat) : Device := d.eachTb (fun d g => d.setBits (g + 0x108) hi lo v)

/-- Whether the time base is locked (R254). -/
def Device.locked (d : Device) : Bool := bit (d.get (pageTb 4 + 0x108)) 0

/-- The lock gained and lost (R254, R255). -/
def Device.gainLock (d : Device) (offset : Int) : Device := (d.setTb 0 0 1).tbEvent 0 offset
def Device.loseLock (d : Device) (offset : Int) : Device :=
  let d := (((d.setTb 0 0 0).eachTb (fun d g => d.count (g + 0x118))).tbEvent 1 offset)
  ({ d with mesh := { d.mesh with stepped := false, inLimits := 0 } }).reportFault false true

/-- The offsets of this module from the master and from node 0 of its group, as TB_STAT holds them (R266). -/
def Device.masterOffset (d : Device) : Int := signed 8 (bits (d.get (pageTb 4 + 0x108)) 15 8)
def Device.groupOffset (d : Device) : Int := signed 8 (bits (d.get (pageTb 4 + 0x108)) 23 16)

/-- TIMING_SEND (R435): a request on the port followed; the time master sends none. -/
def opTimingSend (d : Device) : Device :=
  let w := d.get (pageMesh + 0x110)
  if bit w 31 then d else d.cellOn (bits w 2 0) false (.timing 0 d.now 0 0 0 0)

/-- TIMING_REQUEST (R435): returned with the ticks at which it came and went, and the offsets of this module. -/
def opTimingRequest (p : Nat) (f : MeshHdr) (t1 : Nat) (d : Device) : Device :=
  d.onFrame p f (.timing 0 t1 0 0 0 0) (fun d =>
    let master := if d.node = 0 then 0 else toTwos 8 d.masterOffset
    let group := if d.node % 16 = 0 then 0 else toTwos 8 d.groupOffset
    d.sendOn p d.node f.src.toNat 24 d.heatField false (.timing 1 t1 d.now d.now master group))

/-- The offset from the parent (R435). -/
def offsetOf (t1 t2 t3 t4 : Nat) : Int := Int.tdiv (((t2 : Int) - t1) - ((t4 : Int) - t3)) 2

/-- Half the round trip of a timing message (R434). -/
def tripOf (t1 t2 t3 t4 : Nat) : Int := Int.tdiv (((t4 : Int) - t1) - ((t3 : Int) - t2)) 2

/-- The counters moved in one step (R254). -/
def Device.stepClock (d : Device) (by_ : Int) : Device :=
  { d with ticks := d.ticks.map (fun (t : Nat) => (Int.ofNat t + by_).toNat % 2 ^ 64) }

/-- The steering of the rate after a timing message: toward the master, within ±100 ppm (R252) (readings: log entry 44). -/
def Device.steered (d : Device) (master : Int) : Int :=
  let r : Int := Nat.min (Config.steering d.free) 100000
  if 0 < master then r else if master < 0 then -r else 0

/-- The offsets after a timing message: within the limits of R254, out of them, and the lock. -/
def Device.afterTiming (d : Device) (master group : Int) : Device :=
  let d := (d.setTb 15 8 (toTwos 8 (clampInt master (-127) 127))).setTb 23 16 (toTwos 8 (clampInt group (-127) 127))
  let worst := Nat.min (Nat.max master.natAbs group.natAbs) 0xFF
  let rate := toTwos 32 (d.steered master)
  let d := (d.eachTb (fun d g =>
    ((d.set (g + 0x110) (Nat.max (d.get (g + 0x110)) worst)).count (g + 0x114)).set (g + 0x10C) rate)).drawn
  if master.natAbs ≤ 20 ∧ group.natAbs ≤ 6 then
    let d := { d with mesh := { d.mesh with inLimits := d.mesh.inLimits + 1 } }
    if !d.locked && decide (100 ≤ d.mesh.inLimits) then d.gainLock master else d
  else if d.locked then d.loseLock master
  else { d with mesh := { d.mesh with inLimits := 0 } }

/-- TIMING_RESPONSE (R254, R255, R434, R435) (readings: log entry 44). -/
def opTimingResponse (p : Nat) (f : MeshHdr) (t1 t2 t3 t4 : Nat) (offMaster offGroup : Nat) (d : Device) : Device :=
  d.onFrame p f (.timing 1 t1 t2 t3 offMaster offGroup) (fun d =>
    let d := d.lateCheck p f 0x08 (tripOf t1 t2 t3 t4)
    let own := offsetOf t1 t2 t3 t4
    let master := own + signed 8 offMaster
    let group := if d.node % 16 = 0 then 0 else own + signed 8 offGroup
    if !d.mesh.stepped && !d.planRuns && !d.locked then
      let d := (d.stepClock master).afterTiming 0 0
      { d with mesh := { d.mesh with stepped := true, inLimits := 0 } }
    else d.afterTiming master group)

/-- TIMING_SILENCE (R255). Where it is the time master that has left service, no root is left to fault the domain, and the
module takes the domain fault itself (R256) (readings: log entry 44). -/
def opTimingSilence (d : Device) : Device :=
  if !d.locked || bit (d.get (pageMesh + 0x110)) 31 then d
  else
    let d := d.loseLock d.masterOffset
    if Config.masterGone d.free && d.heat.started then (d.domainFault stOk 0).drawn else d.drawn

/-- TB_NOW_LO_READ (R266): the high word is latched. -/
def opTbNowLoRead (die : Nat) (d : Device) : Device := d.set (pageTb die + 0x104) (d.tick die / 2 ^ 32)

/-! ### Enumeration (R437 to R442) -/

/-- The module serial number (R460). -/
def Device.serial (d : Device) : Nat := d.get64 (pageMesh + 0x108)

/-- An event of the mesh page (R464). -/
def Device.meshEvent (d : Device) (b word3 : Nat) : Device := d.eventSt pageMesh b stOk [word3, 0]

/-- A bit of ENUM_STAT. -/
def Device.enumBit (d : Device) (i : Nat) : Bool := bit (d.get (pageMesh + 0x100)) i

/-- Enumeration failed (R438 to R440). -/
def Device.enumFail (d : Device) (word3 : Nat) : Device := (d.setBits (pageMesh + 0x100) 24 24 1).meshEvent 1 word3

/-- A HELLO on a port (R439). -/
def Device.helloCell (d : Device) (p : Nat) (report ok : Bool) : Cell :=
  .hello (d.node % 16) (d.node / 16) p d.serial (d.enumBit 13) (d.enumBit 14) report ok

/-- HELLO on every mesh port (R439). -/
def Device.helloAll (d : Device) : Device :=
  (List.range 8).foldl (fun d p => if d.portMode p = 1 then d.cellOn p true (d.helloCell p false false) else d) d

/-- The node identity taken (R438). -/
def Device.takeNode (d : Device) (n : Nat) : Device :=
  ((d.setBits (pageMesh + 0x100) 3 0 n).setBits (pageMesh + 0x100) 13 13 1).setBits (pageMesh + 0x104) 3 0 n

/-- ENUM_START (R437, R438): the bridge sends the token value 1. -/
def opEnumStart (d : Device) : Device :=
  if !d.mesh.bridgeSel then d
  else (((d.takeNode 0).setBits (pageMesh + 0x100) 12 12 1).send (.enumOut 1)).helloAll

/-- ENUM_TOKEN (R438) (readings: log entry 44). -/
def opEnumToken (v : Nat) (d : Device) : Device :=
  let second := d.mesh.token
  let d := { d with mesh := { d.mesh with token := true } }
  if second || v = 0 || 15 < v || d.mesh.bridgeSel then (d.setBits (pageMesh + 0x100) 13 13 0).enumFail v
  else ((d.takeNode v).send (.enumOut (v + 1))).helloAll

/-- The node identity that R439 expects on a port. -/
def neighbourOf (n p : Nat) : Nat :=
  let x := n % 4
  let y := n / 4
  if p = 0 then (x + 1) % 4 + 4 * y else if p = 1 then (x + 3) % 4 + 4 * y
  else if p = 2 then x + 4 * ((y + 1) % 4) else if p = 3 then x + 4 * ((y + 3) % 4) else n

/-- The group that R439 expects on a port. -/
def neighbourGroup (groups g p : Nat) : Nat :=
  if p < 4 then g else if p % 2 = 0 then (g + groups - 1) % groups else (g + 1) % groups

/-- Whether a HELLO names the neighbour that R44 puts on a port. -/
def Device.wiringOk (d : Device) (p node group : Nat) (groupKnown : Bool) : Bool :=
  let groups := bits (d.get (pageMesh + 0x100)) 21 16
  neighbourOf (d.node % 16) p == node &&
  (p < 4 || !groupKnown || !(d.enumBit 14) || groups == 0 || neighbourGroup groups (d.node / 16) p == group)

/-- The report to the bridge once ports 0 to 3 are checked (R439). -/
def Device.reportWiring (d : Device) : Device :=
  let checks := (List.range 4).map (fun p => (d.port p).wired)
  if d.mesh.reported || d.mesh.bridgeSel || checks.any (·.isNone) then d
  else
    let port := d.portTo (d.node / 16 * 16) false
    ({ d with mesh := { d.mesh with reported := true } }).cellOn port true
      (d.helloCell port true (checks.all (fun c => c == some true)))

/-- A neighbour's HELLO checked against the wiring (R439). -/
def Device.checkNeighbour (d : Device) (p node group serial : Nat) (groupKnown : Bool) : Device :=
  let ok := d.wiringOk p node group groupKnown
  let d := d.onPort p (fun x => { x with wired := some ok })
  let d := if ok then (d.setBits (pagePort p + 0x104) 24 16 (group * 16 + node)).setBits (pagePort p + 0x104) 25 25 1
    else (d.portEvent p 4 stOk 0x0A 0 0).enumFail (serial % 2 ^ 32)
  d.reportWiring

/-- The group identity taken: the node address, the port followed toward the master, and HC_STATE's roles (R435, R441). -/
def Device.takeGroup (d : Device) (g : Nat) : Device :=
  let n := g * 16 + bits (d.get (pageMesh + 0x100)) 3 0
  let d := ((d.setBits (pageMesh + 0x100) 8 4 g).setBits (pageMesh + 0x100) 14 14 1).set (pageMesh + 0x104) n
  let d := d.set (pageMesh + 0x110) (if n = 0 then 2 ^ 31 else d.portTo (if n % 16 = 0 then 0 else g * 16) false)
  let d := (d.setBits (pageHeat + 0x100) 4 4 (flag (n == 0))).setBits (pageHeat + 0x100) 5 5 (flag (n % 16 == 0))
  let d := d.meshEvent 0 0
  if n = 0 then (d.setTb 1 1 1).gainLock 0 else d

/-- The bridge sends its group identity to its nodes (R440). -/
def Device.announceGroup (d : Device) : Device :=
  (List.range 16).tail.foldl (fun d n => d.cellTo (d.node + n) (d.helloCell (d.portTo (d.node + n) false) false false)) d

/-- How many steps in the port-5 direction this bridge lies from the bridge with a serial number (R440). -/
def Device.ringDistance (d : Device) (serial : Nat) : Option Nat :=
  if serial = d.serial then some 0 else smapFind d.mesh.ring serial

/-- A ring that has closed gives the bridge its group once the distance from the smallest serial is known (R440). -/
def Device.fixGroup (d : Device) : Device :=
  match d.mesh.closed with
  | none => d
  | some (groups, smallest) =>
    if d.enumBit 14 then d
    else if 32 < groups then d.enumFail 0
    else
      match d.ringDistance smallest with
      | some g => (((d.setBits (pageMesh + 0x100) 21 16 groups).takeGroup g).announceGroup)
      | none => d

/-- Ring discovery begins: a bridge whose ring ports have no link makes a domain of one group (R440). -/
def Device.startRing (d : Device) : Device :=
  if bit (d.get (pagePort 4 + 0x104)) 0 || bit (d.get (pagePort 5 + 0x104)) 0 then
    d.cellOn 5 true (.ringDisc d.serial d.serial 1)
  else ({ d with mesh := { d.mesh with closed := some (1, d.serial) } }).fixGroup

/-- The bridge keeps a report; with all 15 in order, ring discovery begins (R439, R440). -/
def Device.keepReport (d : Device) (node : Nat) (ok : Bool) : Device :=
  let l : List (Nat × Bool) := d.mesh.reports.filter (fun r => r.1 != node) ++ [(node, ok)]
  let d := { d with mesh := { d.mesh with reports := l } }
  if !d.mesh.groupFailed && (List.range 16).tail.all (fun n => l.contains (n, true)) then d.startRing else d

/-- HELLO_CELL (R439, R440) (readings: log entry 44). -/
def opHelloCell (p : Nat) (f : MeshHdr) (node group port serial : Nat) (nodeValid groupValid report ok : Bool) (d : Device) :
    Device :=
  let c : Cell := .hello node group port serial nodeValid groupValid report ok
  d.onFrame p f c (fun d =>
    if report then
      if d.mesh.bridgeSel then d.keepReport node ok
      else if f.hops.toNat = 0 then d.count (pagePort p + 0x168)
      else d.sendOn (d.portTo (d.node / 16 * 16) false) f.src.toNat f.dst.toNat (f.hops.toNat - 1) f.heat.toNat f.broadcast c
    else if groupValid && node == 0 && !d.mesh.bridgeSel && d.enumBit 13 && !(d.enumBit 14) then d.takeGroup group
    else d.checkNeighbour p node group serial groupValid)

/-- The neighbours that no HELLO has come from are missing: EVT.WIRING on their ports, and the report follows (R439). The spec
gives no time for it; the model takes the end of the bridge's wait (readings: log entry 44). -/
def Device.missingNeighbours (d : Device) : Device :=
  ((List.range 8).foldl (fun d p =>
    if d.portMode p == 1 && (d.port p).wired.isNone then
      ((d.onPort p (fun x => { x with wired := some false })).portEvent p 4 stOk 0x0A 0 0).enumFail 0
    else d) d).reportWiring

/-- ENUM_REPORT_TIMEOUT (R439). -/
def opEnumReportTimeout (d : Device) : Device :=
  let d := if d.enumBit 13 then d.missingNeighbours else d
  if d.mesh.bridgeSel && !((List.range 16).tail.all (fun n => d.mesh.reports.contains (n, true))) then
    ({ d with mesh := { d.mesh with groupFailed := true } }).meshEvent 2 0
  else d

/-- RING_DISC_CELL (R440) (readings: log entry 44). -/
def opRingDiscCell (p : Nat) (f : MeshHdr) (origin smallest groups : Nat) (d : Device) : Device :=
  d.onFrame p f (.ringDisc origin smallest groups) (fun d =>
    if !d.mesh.bridgeSel || d.mesh.groupFailed then d
    else if origin = d.serial then ({ d with mesh := { d.mesh with closed := some (groups, smallest) } }).fixGroup
    else
      let d := { d with mesh := { d.mesh with ring := smapSet d.mesh.ring origin groups } }
      (d.cellOn 5 true (.ringDisc origin (Nat.min smallest d.serial) (groups + 1))).fixGroup)

/-- RING_DISC_TIMEOUT (R440). -/
def opRingDiscTimeout (d : Device) : Device :=
  if d.mesh.bridgeSel && !d.mesh.groupFailed && d.mesh.closed.isNone then d.enumFail 0 else d

/-- A FAULT cell at the root declares a domain fault (R436). -/
def Device.faultCell (d : Device) (node : Nat) : Device := if d.isRoot then d.declareFault stOk node else d

def execTimingSend (s : State) : Host.Outcome State Fault Refusal := s.onDev opTimingSend
def execTimingSilence (s : State) : Host.Outcome State Fault Refusal := s.onDev opTimingSilence
def execTbNowLoRead (d : PDie) (s : State) : Host.Outcome State Fault Refusal := s.onDev (opTbNowLoRead d.val)
def execDataFrame (p : Port) (f : MeshHdr) (h : DataHdr) (payload : List Byte) (s : State) :
    Host.Outcome State Fault Refusal :=
  s.onPart (opDataFrame p.val f h payload)
def execSignalCell (p : Port) (f : MeshHdr) (obj : BitVec 14) (sop : BitVec 8) (defer : Bool) (value : U32) (agent : Agent)
    (s : State) : Host.Outcome State Fault Refusal :=
  s.onDev (opSignalCell p.val f obj.toNat sop.toNat defer value.toNat agent.toNat)
def execBarArriveCell (p : Port) (f : MeshHdr) (obj : BitVec 14) (agent : Agent) (s : State) :
    Host.Outcome State Fault Refusal :=
  s.onDev (opBarArriveCell p.val f obj.toNat agent.toNat)
def execBarReleaseCell (p : Port) (f : MeshHdr) (obj : BitVec 14) (s : State) : Host.Outcome State Fault Refusal :=
  s.onDev (opBarReleaseCell p.val f obj.toNat)
def execBarFaultCell (p : Port) (f : MeshHdr) (obj : BitVec 14) (s : State) : Host.Outcome State Fault Refusal :=
  s.onDev (opBarFaultCell p.val f obj.toNat)
def execHeatArriveCell (p : Port) (f : MeshHdr) (heatNum : U32) (replay fault : Bool) (marks : ArriveMarks) (level cls : BitVec 8)
    (missing : Node) (s : State) : Host.Outcome State Fault Refusal :=
  s.onDev (opHeatArriveCell p.val f
    ⟨f.src.toNat, heatNum.toNat, replay, fault, marks.unlock, level.toNat, cls.toNat, missing.toNat, marks.stress⟩)
def execHeatReleaseCell (p : Port) (f : MeshHdr) (heatNum : U32) (start : Tick) (level : BitVec 8) (replay fault : Bool)
    (classes : BitVec 128) (s : State) : Host.Outcome State Fault Refusal :=
  s.onDev (opHeatReleaseCell p.val f
    ⟨heatNum.toNat, start.toNat, level.toNat, replay, fault, groupClassesOf classes.toNat⟩)
def execTimingRequest (p : Port) (f : MeshHdr) (t1 : Tick) (s : State) : Host.Outcome State Fault Refusal :=
  s.onDev (opTimingRequest p.val f t1.toNat)
def execTimingResponse (p : Port) (f : MeshHdr) (t1 t2 t3 t4 : Tick) (offMaster offGroup : BitVec 8) (s : State) :
    Host.Outcome State Fault Refusal :=
  s.onDev (opTimingResponse p.val f t1.toNat t2.toNat t3.toNat t4.toNat offMaster.toNat offGroup.toNat)
def execTrainCell (p : Port) (f : MeshHdr) (role : BitVec 8) (seq : U32) (sent : Tick) (turnaround : U32) (s : State) :
    Host.Outcome State Fault Refusal :=
  s.onDev (opTrainCell p.val f role.toNat seq.toNat sent.toNat turnaround.toNat)
def execHelloCell (p : Port) (f : MeshHdr) (nodeId groupId port : BitVec 8) (serial : BitVec 64)
    (nodeValid groupValid report wiringOk : Bool) (s : State) : Host.Outcome State Fault Refusal :=
  s.onDev (opHelloCell p.val f nodeId.toNat groupId.toNat port.toNat serial.toNat nodeValid groupValid report wiringOk)
def execRingDiscCell (p : Port) (f : MeshHdr) (origin smallest : BitVec 64) (groups : BitVec 8) (s : State) :
    Host.Outcome State Fault Refusal :=
  s.onDev (opRingDiscCell p.val f origin.toNat smallest.toNat groups.toNat)
def execPortTraining (p : Port) (lock preempt : Bool) (rate : BitVec 2) (s : State) : Host.Outcome State Fault Refusal :=
  s.onDev (opPortTraining p.val lock preempt rate.toNat)
def execTrainingDone (p : Port) (figures : List Nat) (s : State) : Host.Outcome State Fault Refusal :=
  s.onDev (opTrainingDone p.val figures)
def execRetrain (p : Port) (agent : Agent) (s : State) : Host.Outcome State Fault Refusal :=
  s.onDev (fun d => d.written agent.toNat (opRetrain p.val agent.toNat))
def execLinkDown (p : Port) (s : State) : Host.Outcome State Fault Refusal := s.onDev (opLinkDown p.val)
def execEnumStart (s : State) : Host.Outcome State Fault Refusal := s.onDev opEnumStart
def execEnumToken (value : BitVec 5) (s : State) : Host.Outcome State Fault Refusal := s.onDev (opEnumToken value.toNat)
def execEnumReportTimeout (s : State) : Host.Outcome State Fault Refusal := s.onDev opEnumReportTimeout
def execRingDiscTimeout (s : State) : Host.Outcome State Fault Refusal := s.onDev opRingDiscTimeout

end Sys2Proof.Machine
end

