-- ==== Sys2Proof/Machine/Power.lean ====
section
/-! DEFINITION. Level changes, sleep states, resets and the boot timeline (R39 to R43, R502 to R533). -/

namespace Sys2Proof.Machine

/-- The device with its power control changed. -/
def Device.onPower (d : Device) (f : PowerCtl → PowerCtl) : Device := { d with power := f d.power }

/-- An event of the power page (R533). -/
def Device.pwrEvent (d : Device) (b die : Nat) (rest : List Nat := []) : Device := d.event pagePwr b (b * 0x100 + die * 0x10000) rest

/-! ### Level changes (R505) -/

/-- A level change is in progress, and to a slower level. -/
def Device.changing (d : Device) : Bool := bit (d.get (pagePwr + 0x100)) 12
def Device.slowing (d : Device) : Bool := decide (d.perfLevel < bits (d.get (pagePwr + 0x100)) 10 8)

/-- CLOCK_RELOCK: first on the way to a slower level, after the rail otherwise (readings: log entry 40). -/
def opClockRelock (d : Device) : Device :=
  if d.changing && (d.slowing || d.power.railDone) then d.onPower (fun p => { p with clockDone := true }) else d

/-- RAIL_RAMP: first on the way to a faster level, after the clock otherwise (readings: log entry 40). -/
def opRailRamp (d : Device) : Device :=
  if d.changing && (!d.slowing || d.power.clockDone) then d.onPower (fun p => { p with railDone := true }) else d

/-! ### Sleep (R506 to R512) -/

/-- A die is idle: no engine or sequencer has work (R507). -/
def Device.dieIdle (d : Device) (die : Nat) : Bool :=
  (dieCores die).all (fun c => (d.core c).quiet && (List.range 68).all (fun a => (d.anvil (68 * c + a)).quiet)) &&
  d.transfers.all (fun t => t.core / 128 != die)

/-- The start tick that a boundary counts as an issue at: the release's, or the earliest that the heat allows (R508). -/
def Device.nextStart (d : Device) : Nat :=
  match d.heat.release with
  | some r => r.start
  | none => d.heat.start + d.heat.len

/-- The earliest next issue tick among the resident streams of a die's cores (R508). -/
def Device.nextIssue (d : Device) (die : Nat) : Nat :=
  (dieCores die).foldl (fun m c => match (d.core c).stream[d.wordPtr c]? with
    | some w => Nat.min m (d.heatStart c + wTick w)
    | none => m) d.nextStart

/-- WAKE_LEAD (R508). -/
def wakeLead : Nat := 2200

/-- A die sleeps in a state: counted, and from S2 on with EVT.SLEEP (readings: log entry 40). -/
def Device.fallAsleep (d : Device) (die st : Nat) : Device :=
  let d := (d.setSleep die st).count (pagePwr + 0x110 + 4 * st)
  if 2 ≤ st then d.pwrEvent 1 die else d

/-- A die that may sleep deeper than it does: powered, idle and not waking. -/
def Device.maySleep (d : Device) (die st : Nat) : Bool :=
  decide (d.sleepState die < st) && !(d.power.down.contains die) && !d.hk.stopped && !(d.power.waking.contains die) && d.dieIdle die

/-- IDLE_S1_EXPIRE (R508) (readings: log entry 40). -/
def opIdleS1 (die : Nat) (d : Device) : Device :=
  if d.get (pagePwr + 0x108) != 0 && d.maySleep die 1 && (!d.planRuns || decide (d.now + wakeLead + 1000 ≤ d.nextIssue die)) then
    d.fallAsleep die 1 else d

/-- IDLE_S2_EXPIRE and IDLE_S3_EXPIRE (R510) (readings: log entry 40). -/
def opIdleS2 (die : Nat) (d : Device) : Device :=
  if d.get (pagePwr + 0x10C) != 0 && d.maySleep die 2 && !d.planRuns then d.fallAsleep die 2 else d
def opIdleS3 (die : Nat) (d : Device) : Device :=
  if bit (d.get (pagePwr + 0x110)) 31 && d.maySleep die 3 && !d.planRuns then d.fallAsleep die 3 else d

/-- S1_SELF_WAKE: while a plan runs, WAKE_LEAD before the next issue (R508). -/
def opS1SelfWake (die : Nat) (d : Device) : Device :=
  if d.sleepState die != 1 then d
  else (if d.planRuns then d.reach (d.nextIssue die - wakeLead) else d).setSleep die 0

/-- The 32 test passes of a re-check on an anvil, with the figures of R72 and R74 (R512). -/
def Device.recheck (d : Device) (u : Nat) : Device :=
  let (r, d) := d.testPasses u
  let d := d.setWords (pageAnv u + 0x190) [toTwos 32 r.gain, toTwos 32 r.offs, r.resid % 2 ^ 32]
  if 5000 < r.resid then d.residHigh u else d

/-- The re-check of a die (R512). -/
def Device.recheckDie (d : Device) (die : Nat) : Device := (d.liveAnvils (dieCores die)).foldl (fun d u => d.recheck u) d

/-- The temper pass that ends a wake from S3, over the re-check's figures; its commit applies at once (R512). -/
def Device.wakePass (d : Device) (die : Nat) : Device :=
  if !d.trimRecord then d
  else
    let us := d.liveAnvils (dieCores die)
    let d := us.foldl (fun (d : Device) u =>
      let old := d.correction u
      let step := correctionFor (signed 32 (d.get (pageAnv u + 0x190))) (signed 32 (d.get (pageAnv u + 0x194)))
      let corr := (old.1 + step.1, old.2 + step.2)
      (d.setCorrection u corr).stageTrim u (trimOf (smapGet d.hk.base (2048, 0) (u / 68)) corr)) (d.takeBase die)
    d.applyAtOnce (us.map pageAnv) true

/-- The core stores of some cores rewritten to zero (R390). -/
def Memory.clearStores (m : Memory) (cores : List Nat) : Memory :=
  cores.foldl (fun m c => m.clear (storeBase c / 64) ((storeBase c + 0x600000) / 64)) m

/-- WAKE_COMPLETE (R510 to R512): the die is awake, and a module that waits for it arrives at the initial barrier (readings: log entry 40). -/
def opWakeComplete (die : Nat) (p : Part) : Part :=
  if !(p.dev.power.waking.contains die) then p
  else
    let deep := p.dev.sleepState die == 3
    let p := if deep then p.onMem (·.clearStores (dieCores die)) else p
    p.onDev (fun d =>
      let d := d.recheckDie die
      let d := if deep then d.wakePass die else d
      (((d.setSleep die 0).onPower (fun p => { p with waking := setErase p.waking die })).pwrEvent 2 die).initialArrival)

/-! ### Management-class resets (R513 to R517, R526, R529) -/

/-- What a reset keeps of an anvil: its cells, and that a program in place has not completed (R370, R513) (readings: log entry 41). -/
def AnvilState.kept (x : AnvilState) : AnvilState := { cells := x.cells, stuck := x.stuck, inPlace := x.inPlace }

/-- The device as a power-on or system reset leaves it (R513): flash, fuses, cells and lands keep their state (readings: log entry 41). -/
def Device.afterReset (d : Device) (powerOn : Bool) : Device :=
  let d := (List.range 4).foldl (fun d i => d.interruptPrograms i) d
  let e : Device :=
    { ticks := if powerOn then #v[0, 0, 0, 0, 0] else d.ticks, hist := d.hist, rom := d.rom, sent := d.sent, free := d.free
      anvils := d.anvils.map (fun a => (a.1, a.2.kept)), mesh := { bridgeSel := d.mesh.bridgeSel }
      power := { pwrOk := d.power.pwrOk, resetIn := d.power.resetIn, inputOk := d.power.inputOk, inReset := true, step := 0,
                 origin := if powerOn then d.hist.sec * 1000000000 + d.hist.nanos else d.power.origin }
      work := { tries := if powerOn then 0 else d.work.tries, tap := if powerOn then 0 else d.work.tap } }
  if powerOn then e
  else (e.set (pagePwr + 0x140) (d.get (pagePwr + 0x140))).setBits (pageSec + 0x100) 2 2 (bits (d.get (pageSec + 0x100)) 2 2) |>.setBits
    (pagePwr + 0x160) 15 8 (bits (d.get (pagePwr + 0x160)) 15 8)

/-- The powered nanoseconds (R584). -/
def Device.poweredNs (d : Device) : Nat := d.hist.sec * 1000000000 + d.hist.nanos

/-- The cause of a management-class reset has ended (R517). -/
def Device.endCause (d : Device) : Device := d.onPower (fun x => { x with causeEnd := d.poweredNs })

/-- A reset of the management class, with its cause in RST_CAUSE: memory is lost (R513, R390, R392) (readings: log entry 41). -/
def Part.manageReset (p : Part) (powerOn : Bool) (cause : Nat) : Part :=
  let d := p.dev.afterReset powerOn
  { mem := {}, dev := (d.set (pagePwr + 0x140) (Nat.lor (d.get (pagePwr + 0x140)) cause)).endCause }

/-- PWR_OK_RISE, PWR_OK_FALL (R514, R602). -/
def opPwrOkRise (p : Part) : Part := (p.onDev (·.onPower (fun x => { x with pwrOk := true }))).manageReset true 2
def opPwrOkFall (p : Part) : Part := (p.onDev (·.onPower (fun x => { x with pwrOk := false }))).manageReset true 2
/-- POWER_DETECTOR_TRIP, INPUT_RESTORED (R514, R602). -/
def opDetectorTrip (p : Part) : Part := (p.onDev (·.onPower (fun x => { x with inputOk := false }))).manageReset true 1
def opInputRestored (d : Device) : Device := (d.onPower (fun x => { x with inputOk := true })).endCause
/-- RESET_IN, RESET_IN_RELEASE (R513, R517). -/
def opResetIn (p : Part) : Part := (p.onDev (·.onPower (fun x => { x with resetIn := true }))).manageReset false 4
def opResetInRelease (d : Device) : Device := (d.onPower (fun x => { x with resetIn := false })).endCause
/-- SYS_RESET (R531). -/
def opSysReset (p : Part) : Part := p.manageReset false 0x10
/-- WATCHDOG_EXPIRE (R515, R583). -/
def opWatchdog (processor die : Nat) (p : Part) : Part :=
  let p := p.manageReset false 8
  p.onDev (fun d => ((d.setBits (pagePwr + 0x140) 10 8 processor).setBits (pagePwr + 0x140) 13 12 (if processor = 4 then die else 0)).record
    unitModule 0xA stOk pagePwr)

/-- RESET_STRETCH_END (R517, R602): the stretch ends once nothing holds the reset, 2 ms after its cause ended, and boot begins. -/
def opResetStretchEnd (d : Device) : Device :=
  if d.power.inReset && d.power.pwrOk && !d.power.resetIn && d.power.inputOk then
    (d.elapse (d.power.causeEnd + 2000000 - d.poweredNs)).onPower (fun p => { p with inReset := false, step := 1 }) else d

/-- GROUP_RESET (R516): a FAULT cell whose EVT is 0xFFFF. -/
def opGroupReset (port : Nat) (f : MeshHdr) (p : Part) : Part :=
  let r := p.dev.intake port f (.fault f.src.toNat 0xFFFF)
  let d := r.2
  if !r.1 then { p with dev := d }
  else if bit (d.get (pagePwr + 0x144)) 0 && bit (d.get (pagePort port + 0x104)) 3 && f.src.toNat == d.node / 16 * 16 &&
      bit (d.get (pagePort port + 0x100)) 12 && f.macsecOk then
    Part.manageReset { p with dev := d } false 0x20
  else { p with dev := d.stranger port f 0x0C }

/-- FAULT_CELL (R201, R424): one with EVT 0xFFFF is a group reset message. -/
def opFaultCell (port : Nat) (f : MeshHdr) (node evt : Nat) (p : Part) : Part :=
  if evt = 0xFFFF then opGroupReset port f p
  else p.onDev (fun d => d.onFrame port f (.fault node evt) (fun d => d.faultCell node))

/-! ### Boot (R525 to R530, R561, R563, R564) -/

/-- The first of copies A and B that passes, and how many failed before it (R527, R561). -/
def goodCopy (ok : FlashCopy → Bool) (l : List FlashCopy) : Option Nat × Nat :=
  match l.findIdx? ok with
  | some i => (some i, i)
  | none => (none, l.length)

/-- A record loaded at step 2: its valid bit and copy bit in OPT_STAT, its failed copies in the history, and its SHA-256 in MR1. -/
def Device.loadRecord (d : Device) (copies : List FlashCopy) (validBit copyBit : Nat) : Device :=
  let (i, n) := goodCopy (·.ok) copies
  let d := (List.range n).foldl (fun (d : Device) _ => d.record unitModule 0xB stCrcFail pagePwr) d
  match i with
  | none => d
  | some i =>
    ((d.setBits (pagePwr + 0x160) validBit validBit 1).setBits (pagePwr + 0x160) copyBit copyBit i).extendMr 1
      ((copies[i]?).map (·.sha) |>.getD [])

/-- The reference trims of the trim record in force (R490). -/
def Device.loadRefs (d : Device) : Device :=
  d.onHk (fun h => { h with refTrim := ((d.rom.record.refs.zipIdx).filter (fun e => e.1 != 0)).map (fun e => (e.2, e.1)) })

/-- The live and staged DROOP_THR of a die from the trim record (R490, R497). -/
def Device.loadDroop (d : Device) (p : Nat) : Device :=
  let v := d.rom.record.droop.getD p 0 % 4096
  (d.set (pageMon p + 0x148) v).set (pageMon p + 0x948) v

/-- Step 2 ends (R527, R528, R530) (readings: log entry 41). -/
def Device.loadRecords (d : Device) : Device :=
  let n := bits (d.get (pagePwr + 0x160)) 15 8
  let d := d.setBits (pagePwr + 0x160) 15 8 (Nat.min (n + 1) 255)
  let d := ((d.loadRecord d.rom.option 0 2).loadRecord d.rom.trim 1 3)
  let d := d.extendMr 1 d.coreset
  if d.trimRecord then (List.range 5).foldl (fun d p => d.loadDroop p) d.loadRefs
  else (d.setBits (pagePwr + 0x160) 4 4 1).pwrEvent 4 0

/-- The firmware copy that step 3 accepts: its signature verifies, by a key that is not revoked (R559, R561). -/
def Device.goodFirmware (d : Device) : Option Nat := (goodCopy (fun c => c.ok && !(bit d.rom.fwRevoke c.key) && decide (d.rom.rbCount ≤ c.svn)) d.rom.firmware).1

/-- The firmware accepted: FW_COPY, FW_SVN and MR0 (R561, R563) (readings: log entry 41). -/
def Device.acceptFirmware (d : Device) (i : Nat) : Device :=
  let c := d.rom.firmware.getD i {}
  (((d.setBits (pageSec + 0x100) 1 1 i).setBits (pageSec + 0x100) 15 8 c.svn).extendMr 0 (leBytes 32 Config.romVersion.toNat)).extendMr 0 c.sha

/-- The keys that a boot derives from the fused seed, and the certificate that the identity key signs over the attestation
public key, MR0, MR1 and the boot count (R559, R560, R564) (readings: log entry 50). -/
def Device.deriveKeys (d : Device) : Device :=
  let mr := fun i => d.sec.mrs.getD i []
  let id := hkdf256 [] d.rom.seed (asciiBytes "NBX4-ID") 72
  let ak := hkdf256 [] (d.rom.seed ++ mr 0 ++ mr 1) (asciiBytes "NBX4-AK") 48
  let pub := Config.publicKey 16 ak
  let body := pub ++ mr 0 ++ mr 1 ++ leBytes 8 d.rom.boots
  let cert : AttCert :=
    ⟨pub, mr 0, mr 1, d.rom.boots, (List.range 16224).map (Config.signature d.free id body)⟩
  ({ d with sec := { d.sec with identity := id, attestation := ak, certificate := some cert } }).drawn

/-- Step 8: the witness check sets the correction table and commits the first trims (R485, R525) (readings: log entry 41). -/
def Device.firstTrims (d : Device) : Device := (List.range 4).foldl (fun d die => d.checkCores (dieCores die) true) d

/-- READY and BOOT_MS at the end of step 10 (R525), when the firmware has set its locks (R545) (readings: log entry 41). -/
def Device.bootDone (d : Device) : Device :=
  let ms := (d.poweredNs - d.power.origin) / 1000000
  ((d.setBits (pagePwr + 0x164) 31 31 1).set (pagePwr + 0x168) (ms % 65536)).onPower (fun p => { p with step := 0, locks := true })

/-- A step that has ended: BOOT_STAT shows it, and the next one begins. -/
def Device.stepTo (d : Device) (done next : Nat) : Device :=
  (d.setBits (pagePwr + 0x164) 3 0 done).onPower (fun p => { p with step := next })

/-- Every converter at rest again after its self-calibration. -/
def Device.calibratedAll (d : Device) : Bool := (List.range 5).all (fun p => !(bit (d.mcStat p) 0))

/-- BOOT_STEP_DONE (R525) (readings: log entry 41). -/
def opBootStepDone (p : Part) : Part :=
  match p.dev.power.step with
  | 1 => p.onDev (fun d => ({ d with rom := { d.rom with boots := d.rom.boots + 1 } }).stepTo 1 2)
  | 2 => p.onDev (fun d => d.loadRecords.stepTo 2 3)
  | 3 => p.onDev (fun d => match d.goodFirmware with
    | none => d.onPower (fun x => { x with step := 0 })
    | some i => (d.acceptFirmware i).stepTo 3 4)
  | 4 => p.onDev (fun d =>
    (List.range 5).foldl (fun d q => d.startCal q) ((d.deriveKeys.stepTo 4 5).setBits (pageSec + 0x100) 0 0 1))
  | 5 => p.onDev (fun d => if d.calibratedAll then d.stepTo 5 (if d.safe then 9 else 6) else d)
  | 6 => (p.onMem (·.clear 0 (0x6000000000 / 64))).onDev (·.stepTo 6 7)
  | 7 => (p.onMem (·.clearStores (List.range 512))).onDev (fun d => (d.bootTables.stepTo 7 8).onPower (fun x => { x with down := [] }))
  | 8 => p.onDev (fun d => d.firstTrims.stepTo 8 9)
  | 9 => p.onDev (·.stepTo 9 10)
  | 10 => p.onDev (fun d => if d.locked then (d.stepTo 10 0).bootDone else d)
  | _ => p

/-! ### Core resets (R518 to R520, R619) -/

/-- The wake delay of a sleeping target (R506, R518). -/
def wakeDelay (st : Nat) : Nat := [0, 2000, 350000].getD st 60000000

/-- CORE_RST (R518). A SCOPE of 0 names no target (readings: log entry 42). -/
def opCoreRst (d : Device) : Device :=
  let w := d.get (pagePwr + 0x150)
  let die := bits w 5 4
  let t := d.get64 (pagePwr + 0x154)
  let scope := bits w 1 0
  if scope = 0 then d
  else if t < d.now + 1000 + wakeDelay (d.sleepState die) then d.pwrEvent 3 0 [w, t % 2 ^ 32]
  else
    let r : CoreReset := { scope := scope, die := die, unit := if scope = 2 then bits w 10 8 else bits w 14 8, tick := t, acting := false }
    let d := if d.sleepState die = 1 then d.setSleep die 0 else d.wakeDie die
    d.onPower (fun p => { p with coreResets := p.coreResets ++ [r] })

/-- The pages with BLK_RESET that a core reset covers (R619): those of its cores, and of the bellows of the clusters that it
covers whole (readings: log entry 42). -/
def CoreReset.pages (r : CoreReset) : List Nat :=
  r.cores.flatMap (fun c => [pageSeq c, pageAcc c] ++ (List.range 68).map (pageAnvil c)) ++
  (if r.scope = 2 then [pageBellows (8 * r.die + r.unit)]
   else if r.scope = 3 then (List.range 8).map (fun k => pageBellows (8 * r.die + k)) else [])

/-- The transfers lost to a reset: those of its cores (R258, R522). -/
def Device.loseTransfers (d : Device) (cores : List Nat) : Device :=
  let lost := d.transfers.filter (fun t => cores.contains t.core)
  let d := lost.foldl (fun d t => d.loseWords t.core [(opXfer, t.idx)]) d
  ({ d with transfers := d.transfers.filter (fun t => !(cores.contains t.core)) }).settleRouters

/-- The vector engine of a core emptied (R522). -/
def Device.emptyVector (d : Device) (c : Nat) : Device :=
  (d.loseWords c ((d.core c).vecQ.map (fun q => (opVec, q.idx)))).onCore c (fun x => { x with vecQ := [] })

/-- A core reset acts on what it covers (R513, R520, R619): covered anvils lose their corrections too (readings: log entry 42). -/
def Device.actReset (d : Device) (r : CoreReset) : Device :=
  let cs := r.cores
  let d := if (smapFind d.billet.batches r.die).any (fun b => b.anvils.any (fun a => cs.contains (a.anvil / 68))) then
    d.interruptPrograms r.die else d
  let d := r.pages.foldl (fun d g => d.resetPage g) d
  let d := ((cs.foldl (fun d c => d.emptyVector c) d).loseTransfers cs).onHk (fun h => { h with corr := h.corr.filter (fun e => !(cs.contains (e.1 / 68))) })
  let d := if d.planRuns then d.onPower (fun p => { p with blocked := setInserts p.blocked cs }) else d
  d.onPower (fun p => { p with coreResets := p.coreResets.map (fun x => if x = r then { x with acting := true } else x) })

/-- CORE_RESET_ACT: the oldest core reset acts at its tick, once its die is awake (R518) (readings: log entry 42). -/
def opCoreResetAct (p : Part) : Part :=
  match p.dev.power.coreResets.find? (fun r => !r.acting) with
  | none => p
  | some r =>
    if 2 ≤ p.dev.sleepState r.die then p
    else (p.onDev (fun d => (d.reach r.tick).actReset r)).onMem (·.clearStores r.cores)

/-- CORE_RESET_DONE: out of reset 20 µs or, for a die, 30 ms after the tick; the witness check follows (R519) (readings: log entry 42). -/
def opCoreResetDone (d : Device) : Device :=
  match d.power.coreResets.find? (·.acting) with
  | none => d
  | some r =>
    let d := d.reach (r.tick + (if r.scope = 3 then 30000000 else 20000))
    (d.onPower (fun p => { p with coreResets := dropFirst (· == r) p.coreResets })).checkCores r.cores false

/-- QUENCH_CLR (R484): the clocks start with a core reset of all four dies (readings: log entry 55). -/
def opQuenchClr (agent : Nat) (d : Device) : Device :=
  if !d.hk.stopped || d.hk.clearRounds < 100 then d.refuseCtrl pageThm 2 agent
  else
    let d := (d.onHk (fun h => { h with stopped := false })).setBits (pageThm + 0x128) 24 24 0
    let new := (List.range 4).map (fun die => CoreReset.mk 3 die 0 d.now false)
    d.onPower (fun p => { p with coreResets := p.coreResets ++ new })

/-! ### Routers (R42, R43, R587) -/

/-- ROUTER_FAULT (R42): a core's router has failed in service; it is recorded, and fenced at the next maintenance commit
(readings: log entry 64). -/
def opRouterFault (c : Nat) (d : Device) : Device :=
  if d.isDead c || d.fabric.failed.contains c then d
  else (d.record (unitCore c) 9 stOk (pageSeq c)).onFabric (fun f => { f with failed := setInsert f.failed c })

/-- FABRIC_FAULT (R43): a cluster router or bridge has failed; the module records it, raises a module fault and leaves service.
The class, the unit and the detail of the record are the model's (readings: log entry 64). -/
def opFabricFault (unit : Nat) (d : Device) : Device := (d.record unit 9 stOk pagePwr).moduleFault

def execClockRelock (s : State) : Host.Outcome State Fault Refusal := s.onDev opClockRelock
def execRailRamp (s : State) : Host.Outcome State Fault Refusal := s.onDev opRailRamp
def execIdleS1Expire (d : Die) (s : State) : Host.Outcome State Fault Refusal := s.onDev (opIdleS1 d.val)
def execIdleS2Expire (d : Die) (s : State) : Host.Outcome State Fault Refusal := s.onDev (opIdleS2 d.val)
def execIdleS3Expire (d : Die) (s : State) : Host.Outcome State Fault Refusal := s.onDev (opIdleS3 d.val)
def execS1SelfWake (d : Die) (s : State) : Host.Outcome State Fault Refusal := s.onDev (opS1SelfWake d.val)
def execDieWake (d : Die) (s : State) : Host.Outcome State Fault Refusal := s.onDev (fun x => x.wakeDie d.val)
def execWake (agent : Agent) (s : State) : Host.Outcome State Fault Refusal := s.onDev (fun d => d.written agent.toNat (·.wakeAll))
def execWakeComplete (d : Die) (s : State) : Host.Outcome State Fault Refusal := s.onPart (opWakeComplete d.val)
def execPwrOkRise (s : State) : Host.Outcome State Fault Refusal := s.onPart opPwrOkRise
def execPwrOkFall (s : State) : Host.Outcome State Fault Refusal := s.onPart opPwrOkFall
def execPowerDetectorTrip (s : State) : Host.Outcome State Fault Refusal := s.onPart opDetectorTrip
def execInputRestored (s : State) : Host.Outcome State Fault Refusal := s.onDev opInputRestored
def execResetIn (s : State) : Host.Outcome State Fault Refusal := s.onPart opResetIn
def execResetInRelease (s : State) : Host.Outcome State Fault Refusal := s.onDev opResetInRelease
def execWatchdogExpire (processor : Fin 5) (d : Die) (s : State) : Host.Outcome State Fault Refusal :=
  s.onPart (opWatchdog processor.val d.val)
def execSysReset (agent : Agent) (s : State) : Host.Outcome State Fault Refusal := s.onPart (fun p => p.written agent.toNat opSysReset)
def execResetStretchEnd (s : State) : Host.Outcome State Fault Refusal := s.onDev opResetStretchEnd
def execGroupReset (p : Port) (f : MeshHdr) (s : State) : Host.Outcome State Fault Refusal := s.onPart (opGroupReset p.val f)
def execFaultCell (p : Port) (f : MeshHdr) (node : Node) (evt : BitVec 16) (s : State) : Host.Outcome State Fault Refusal :=
  s.onPart (opFaultCell p.val f node.toNat evt.toNat)
def execBootStepDone (s : State) : Host.Outcome State Fault Refusal := s.onPart opBootStepDone
def execCoreRst (agent : Agent) (s : State) : Host.Outcome State Fault Refusal := s.onDev (fun d => d.written agent.toNat opCoreRst)
def execCoreResetAct (s : State) : Host.Outcome State Fault Refusal := s.onPart opCoreResetAct
def execCoreResetDone (s : State) : Host.Outcome State Fault Refusal := s.onDev opCoreResetDone
def execQuenchClr (agent : Agent) (s : State) : Host.Outcome State Fault Refusal :=
  s.onDev (fun d => d.written agent.toNat (opQuenchClr agent.toNat))
def execRouterFault (c : Core) (s : State) : Host.Outcome State Fault Refusal := s.onDev (opRouterFault c.val)
def execFabricFault (unit : BitVec 32) (s : State) : Host.Outcome State Fault Refusal := s.onDev (opFabricFault unit.toNat)

end Sys2Proof.Machine
end

