-- ==== Sys2Proof/Machine/Scrub.lean ====
section
/-! DEFINITION. The valid map's clearing, the scrubbers, writebacks and the end of a repair copy (R391 to R411). -/

namespace Sys2Proof.Machine

/-! ### VM_CLEAR (R393, R416) -/

/-- The map granules that an address range touches within one 64 KiB window, as the stack's bit, in the order of the lowest
range address that each covers (R393). -/
def touchedIn (lo hi w : Nat) : List Nat :=
  let a := Nat.max lo (65536 * w)
  let b := (a / 4096 + 1) * 4096
  [a / 4096 % 2] ++ (if b < Nat.min hi (65536 * (w + 1)) then [b / 4096 % 2] else [])

/-- The n-th map granule that an address range touches: its window and its stack's bit. -/
def mapGranule (lo hi n : Nat) : Option (Nat × Nat) :=
  let first := (touchedIn lo hi (lo / 65536)).length
  let w := if n < first then lo / 65536 else lo / 65536 + 1 + (n - first) / 2
  if hi ≤ 65536 * w then none
  else ((touchedIn lo hi w)[if n < first then n else (n - first) % 2]?).map (fun s => (w, s))

/-- The bits of one map granule within the range cleared (R392, R393) (readings: log entry 48). -/
def Memory.clearMapGranule (m : Memory) (lo hi : Nat) (g : Nat × Nat) : Memory :=
  (List.range 8).foldl (fun m i =>
    let b := 65536 * g.1 + 4096 * (2 * i + g.2)
    if Nat.max lo b < Nat.min hi (b + 4096) then m.clear (Nat.max lo b / 64) (Nat.min hi (b + 4096) / 64) else m) m

/-- VM_CLEAR ends with a status (R393, R416). -/
def Device.endClear (d : Device) (die a status : Nat) : Device :=
  (d.set (pageMem die + 0x150) (2 ^ 31 + status)).event (pageMem die) 7
    (status + 7 * 0x100 + a / 4096 % 2 * 0x10000) [a % 2 ^ 32, a / 2 ^ 32]

/-- VM_CLEAR (R393, R416) (readings: log entry 48). -/
def opVmClear (die agent : Nat) (d : Device) : Device :=
  let page := pageMem die
  if !(bit (d.get (page + 0x150)) 31) then d.refuseCtrl page 4 agent
  else
    let hi := d.get (page + 0x14C)
    let a := d.get (page + 0x148) / 64 * 64 + bits hi 7 0 * 2 ^ 32
    let n := bits hi 31 12 + 1
    if a < dramBase die || decide (dramBase (die + 1) < a + 64 * n) then d.endClear die a stTenant
    else d.startClear die { lo := a / 64, hi := a / 64 + n }

/-- VM_CLEAR_GRANULE (R393): the next map granule of the range in progress; DONE with the last (readings: log entry 48). -/
def opVmClearGranule (die : Nat) (p : Part) : Part :=
  match (smapGet p.dev.mems {} die).clears with
  | [] => p
  | c :: l =>
    let p := match mapGranule (64 * c.lo) (64 * c.hi) c.cleared with
      | some g => p.onMem (·.clearMapGranule (64 * c.lo) (64 * c.hi) g)
      | none => p
    if (mapGranule (64 * c.lo) (64 * c.hi) (c.cleared + 1)).isSome then
      p.onDev (·.onMems die (fun m => { m with clears := { c with cleared := c.cleared + 1 } :: l }))
    else p.onDev (fun d =>
      let d := (d.onMems die (fun m => { m with clears := l })).endClear die (64 * c.lo) stOk
      if l == [] then d else d.set (pageMem die + 0x150) 0)

/-! ### The scrubbers (R404, R405, R408) -/

/-- Whether a page's scrubbers run with an interval (R408). -/
def Device.scrubs (d : Device) (die ivl : Nat) : Bool :=
  bit (d.get (pageMem die + 8)) 1 && bits (d.get (pageMem die + ivl)) 23 0 != 0 && (decide (4 ≤ die) || decide (d.sleepState die < 2))

/-- A scrub read of one granule (R405): a correctable granule waits for its writeback, and an uncorrectable one takes the
poisoned form. Every correctable codeword counts (R385, R414) (readings: log entry 48). -/
def Part.scrubRead (p : Part) (die g : Nat) (error : Option Ecc) : Part :=
  let p : Part := match error with
    | some e => p.onMem (·.arise [(BitVec.ofNat 40 (64 * g), e)])
    | none => p
  let p := (p.mem.errorsOf (64 * g) 64 isParity).foldl Part.decodeWord p
  let bad := p.mem.errorsIn (64 * g) 64 .uncorrectable
  let good := p.mem.errorsIn (64 * g) 64 .correctable
  let p := good.foldl (fun (p : Part) _ => p.onDev (·.corrected (64 * g))) p
  if bad ≠ [] then (p.onMem (·.poisonGranule g)).onDev (·.uncorrected (64 * g))
  else if good ≠ [] then p.onMem (fun m => { m with writebacks := m.writebacks ++ [⟨die, g, true, false⟩] })
  else p

/-- The granules of a stack, and the stack granule of a module granule (R26). -/
def stackGranules : Nat := 805306368
def stackGranule (g : Nat) : Nat := g % 0x60000000 / 128 * 64 + g % 64

/-- Whether a module granule lies in a stack. -/
def inStack (die stack g : Nat) : Bool := decide (g / 0x60000000 = die) && decide (g / 64 % 2 = stack)

/-- The next valid granule of a stack from a stack granule on, or with the wrap the first one (R404). -/
def nextValid (valid : List Nat) (die stack pos : Nat) : Option (Nat × Bool) :=
  let l := valid.filter (inStack die stack)
  match l.find? (fun g => decide (pos ≤ stackGranule g)) with
  | some g => some (g, false)
  | none => l.head?.map (fun g => (g, true))

/-- A stack's pass counter grown (R414). -/
def Device.scrubPass (d : Device) (die stack : Nat) : Device :=
  let off := pageMem die + 0x114
  d.setBits off (16 * stack + 15) (16 * stack) (satAdd16 (bits (d.get off) (16 * stack + 15) (16 * stack)) 1)

/-- DRAM_SCRUB_READ (R404). -/
def opDramScrubRead (die stack : Nat) (error : Option Ecc) (p : Part) : Part :=
  if !(p.dev.scrubs die 0x100) then p
  else
    let off := pageMem die + 0x108 + 4 * stack
    match nextValid p.mem.valid die stack (p.dev.get off) with
    | none => p
    | some (g, wrapped) =>
      let p := if wrapped then p.onDev (·.scrubPass die stack) else p
      let next := stackGranule g + 1
      let p := p.onDev (·.set off (next % stackGranules))
      (if next = stackGranules then p.onDev (·.scrubPass die stack) else p).scrubRead die g error

/-- CORE_STORE_SCRUB_READ (R404): core 0 to core 127 in turn. -/
def opCoreStoreScrubRead (die : Nat) (error : Option Ecc) (p : Part) : Part :=
  if !(p.dev.scrubs die 0x104) then p
  else
    let pos := p.dev.get (pageMem die + 0x110)
    let core := pos / 131072 % 128
    let g := pos % 131072
    let next := if g + 1 = 98304 then (core + 1) % 128 * 131072 else core * 131072 + g + 1
    (p.onDev (·.set (pageMem die + 0x110) next)).scrubRead die (storeBase (128 * die + core) / 64 + g) error

/-- SRAM_SCRUB_READ (R404). -/
def opSramScrubRead (error : Option Ecc) (p : Part) : Part :=
  if !(p.dev.scrubs 4 0x104) then p
  else
    let g := p.dev.get (pageMem 4 + 0x110)
    (p.onDev (·.set (pageMem 4 + 0x110) ((g + 1) % 1048576))).scrubRead 4 (sramBase / 64 + g) error

/-- SCRUB_WRITEBACK (R405 to R407): the corrected granule is whole again, or a newer write has cancelled the writeback (readings: log entry 48). -/
def opScrubWriteback (die : Nat) (p : Part) : Part :=
  if die < 4 && decide (2 ≤ p.dev.sleepState die) then p
  else match p.mem.writebacks.find? (fun w => w.page == die) with
    | none => p
    | some w =>
      let p := p.onMem (fun m => { m with writebacks := dropFirst (fun w => w.page == die) m.writebacks })
      if w.stale then p.onDev (·.count (pageMem die + 0x13C)) else p.onMem (fun m => { m with ecc := smapEraseRange m.ecc (8 * w.granule) (8 * w.granule + 8) })

/-- REPAIR_COPY_DONE (R410): every granule of the block has been read and copied; the spare takes its addresses (readings: log entry 48). -/
def opRepairCopyDone (die : Nat) (p : Part) : Part :=
  match (smapGet p.dev.mems {} die).copy with
  | none => p
  | some (stack, k) =>
    let a := blockAddr (2 * die + stack) k
    let p := (p.touch a 4096).onMem (fun m => { m with ecc := smapEraseRange m.ecc (a / 8) (a / 8 + 512) })
    p.onDev (fun d =>
      let d := (d.onMems die (fun m => { m with copy := none })).memEvent a 5 stOk
      d.onHist (fun h => { h with repairs := h.repairs ++ [⟨true, 2 * die + stack, k⟩] }))

def execVmClear (d : Die) (agent : Agent) (s : State) : Host.Outcome State Fault Refusal :=
  s.onDev (fun v => v.written agent.toNat (opVmClear d.val agent.toNat))
def execVmClearGranule (d : Die) (s : State) : Host.Outcome State Fault Refusal := s.onPart (opVmClearGranule d.val)
def execDramScrubRead (d : Die) (stack : Fin 2) (error : Option Ecc) (s : State) : Host.Outcome State Fault Refusal :=
  s.onPart (opDramScrubRead d.val stack.val error)
def execCoreStoreScrubRead (d : Die) (error : Option Ecc) (s : State) : Host.Outcome State Fault Refusal :=
  s.onPart (opCoreStoreScrubRead d.val error)
def execSramScrubRead (error : Option Ecc) (s : State) : Host.Outcome State Fault Refusal := s.onPart (opSramScrubRead error)
def execScrubWriteback (d : PDie) (s : State) : Host.Outcome State Fault Refusal := s.onPart (opScrubWriteback d.val)
def execRepairCopyDone (d : Die) (s : State) : Host.Outcome State Fault Refusal := s.onPart (opRepairCopyDone d.val)

end Sys2Proof.Machine
end

