-- ==== Sys2Proof/Machine/RegRead.lean ====
section
/-! DEFINITION. What a register reads as: the word held for it, or the value that follows from the rest of the state
(R535, R538, R541, R543). -/

namespace Sys2Proof.Machine

/-! ### STAT (R94, R538) -/

/-- Whether a page's block has no work in progress or queued (R538) (readings: log entry 32). -/
def Device.blockIdle (d : Device) (page : Nat) : PageKind → Bool
  | .anvil => (d.anvil (68 * (offDie page * 128 + (offUnit page - 0x80)) + (offBlock page - 0x40))).quiet
  | .accumulator => (d.core (offDie page * 128 + (offUnit page - 0x80))).quiet &&
      (d.core (offDie page * 128 + (offUnit page - 0x80))).joins.isEmpty
  | .sequencer =>
      let c := offDie page * 128 + (offUnit page - 0x80)
      bits (d.get (page + 0x100)) 2 0 != 2 || decide ((d.core c).stream.length ≤ d.wordPtr c)
  | .bellows =>
      let x := d.core (offDie page * 128 + 16 * (offUnit page - 0x10))
      x.attnQ.isEmpty && x.retries.isEmpty
  | .heatControl => d.heat.loading.isNone && !d.heat.starting && !d.planRuns
  | .sync => d.sync.inFlight.isEmpty && d.sync.outcomes.isEmpty
  | .pageStore => ((smapGet d.serving.dies {} (offDie page)).copies).isEmpty
  | .adapter => d.serving.loads.isEmpty
  | .program => (smapFind d.billet.batches (offDie page)).isNone
  | .billet => !([1, 2, 4].contains (bits (d.get (pageBlt + 0x128)) 2 0))
  | .memory =>
      let die := if offDie page = 8 then 4 else offDie page
      (smapGet d.mems {} die).clears.isEmpty && (smapGet d.mems {} die).copy.isNone
  | .monitor => !(bit (d.get (page + 0x100)) 0) && !(bit (d.get (page + 0x104)) 0) && !(bit (d.get (page + 0x104)) 2)
  | .port => !(d.port (offBlock page - 0x40)).training
  | .bht => d.bht.stores.isEmpty && d.bht.sessions.all (fun e => e.2.flying.isEmpty && e.2.waiting.isEmpty)
  | .thermal => d.hk.passes.isEmpty
  | .power => !d.changing && d.power.coreResets.isEmpty && d.power.waking.isEmpty
  | .commit => d.commits.commits.isEmpty
  | .security => !(bit (d.get (pageSec + 0x100)) 4) && !d.work.blowing
  | .tenant => d.work.keyLoad.isNone
  | .history => d.work.dump.isNone
  | .timeBase | .numerics | .serving | .anvilMap | .kvStore | .mesh | .board => true

/-- Whether a page's block is powered, out of reset, and neither fenced nor retired (R538, R588) (readings: log entry 32). -/
def Device.blockEnabled (d : Device) (page : Nat) (k : PageKind) : Bool :=
  if offDie page = 8 then !d.power.inReset
  else
    let c := offDie page * 128 + (offUnit page - 0x80)
    !(d.power.down.contains (offDie page)) && decide (d.sleepState (offDie page) < 3) &&
    (decide (offUnit page < 0x80) || (!(d.isFenced c) && d.power.coreResets.all (fun r => !(r.acting && r.cores.contains c)))) &&
    !(k == .anvil && d.retired (68 * c + (offBlock page - 0x40)))

/-- STAT of a page (readings: log entry 32). -/
def Device.readStat (d : Device) (page : Nat) (k : PageKind) : Nat :=
  let own := match k with
    | .anvil =>
      let u := 68 * (offDie page * 128 + (offUnit page - 0x80)) + (offBlock page - 0x40)
      16 * flag (d.retired u) + 32 * flag (d.trimValid u) + 64 * flag (!(d.anvil u).quiet)
    | _ => 0
  flag (d.blockIdle page k) + 2 * flag (d.blockEnabled page k) +
    4 * flag (Nat.land (d.get (page + 0x10)) (d.get (page + 0x14)) != 0) + 8 * flag (d.stagePending page) + own

/-! ### Registers that follow from other state -/

/-- A bit map of the numbers 32 × j to 32 × j + 31 that satisfy a predicate. -/
def bitMap (j : Nat) (p : Nat → Bool) : Nat := sumNat ((List.range 32).map (fun i => if p (32 * j + i) then 2 ^ i else 0))

/-- The storage session in use, the oldest that is open (R457). -/
def Device.storeSession (d : Device) : Option Nat :=
  ((d.bht.sessions.filter (fun e => e.2.isOpen && e.2.role == 0xFE)).foldl (fun best e => match best with
    | none => some e
    | some b => if e.2.order < b.2.order then some e else some b) none).map (·.1)

/-- An access key is installed (R571, R575). -/
def Device.accessKey (d : Device) (tenant : Nat) : Bool := (smapFind d.sec.keys tenant).isSome

/-- The permanent slots of the history that are not fenced (R591). -/
def Device.permanentSlots (d : Device) : Nat :=
  sumNat (d.hist.summaries.map (fun e => (e.2.slots.filter (fun s => s.state == 1)).length))

/-- The fewest free spare rows of any core of a die (R414). -/
def Device.fewestRows (d : Device) (die : Nat) : Nat := (dieCores die).foldl (fun m c => Nat.min m (d.spareRows c)) 16

/-- The module has its node address (R441): ENUM_STAT shows NODE_VALID and GROUP_VALID. -/
def Device.grouped (d : Device) : Bool := bits (d.get (pageMesh + 0x100)) 14 13 == 3

/-- The live registers whose value follows from the rest of the state (readings: log entry 31). -/
def Device.derived (d : Device) (page o : Nat) (k : PageKind) : Option Nat :=
  let die := offDie page
  let core := die * 128 + (offUnit page - 0x80)
  let word : Nat → Nat → Nat := fun v i => v / 2 ^ (32 * i) % 2 ^ 32
  match k with
  | .anvil =>
    let f := d.flash (68 * core + (offBlock page - 0x40))
    if o = 0x108 then some (word f.progCnt 0) else if o = 0x10C then some f.ledger.length
    else if o = 0x128 ∨ o = 0x12C then some (word f.strikeCnt ((o - 0x128) / 4))
    else if 0x200 ≤ o ∧ o < 0x280 then some (f.ledger.getD ((o - 0x200) / 4) 0)
    else none
  | .anvilMap =>
    if 0x150 ≤ o ∧ o < 0x15C then some (bitMap ((o - 0x150) / 4) (fun a => decide (a < 68) && d.retired (68 * core + a)))
    else if 0x160 ≤ o ∧ o < 0x16C then some (bitMap ((o - 0x160) / 4) (fun a => d.spareFree core a))
    else if o = 0x180 then some (d.core core).joinBusy
    else none
  | .numerics => if o = 0x100 then some (d.numCond die) else none
  | .accumulator =>
    if o = 0x100 then some (d.core core).tiles.length else if o = 0x104 then some (d.core core).wordsUsed else none
  | .heatControl => if o = 0x100 then some (d.heatState + 16 * flag (d.grouped && d.isRoot) + 32 * flag (d.grouped && d.isLead)) else none
  | .sync =>
    if o = 0x100 then some d.sync.objs.length else if o = 0x104 then some d.barUsed
    else if o = 0x108 then some d.sync.waiters.length else none
  | .timeBase => if o = 0x100 then some (word (d.pageTick page) 0) else none
  | .bellows =>
    let n := (d.core (die * 128 + 16 * (offUnit page - 0x10))).attnQ.length
    if o = 0x100 then some (flag (n != 0) + 256 * (n - 1)) else none
  | .pageStore =>
    if 0x140 ≤ o ∧ o < 0x150 then some (d.poolFree die ((o - 0x140) / 4))
    else if o = 0x154 then some (d.serving.remote.filter (fun n => pageDieOf n == die)).length
    else if o = 0x15C then some (d.serving.starved.filter (fun r => ((smapFind d.serving.seqs r).map (·.die)) == some die)).length
    else none
  | .serving => if o = 0x120 then some (d.serving.reqs.filter (fun e => e.1 / 2048 == die)).length else none
  | .memory =>
    if o = 0x140 then some (if die = 8 then 0 else
      d.spareBlocks (2 * die) + 256 * d.spareBlocks (2 * die + 1) + 65536 * d.fewestRows die) else none
  | .bht =>
    if o = 0x12C then some (d.bht.sessions.filter (·.2.isOpen)).length
    else if o = 0x130 then some (d.storeSession.getD 0) else none
  | .thermal => if 0x144 ≤ o ∧ o < 0x154 then some (d.temperEff ((o - 0x144) / 4)) else none
  | .commit => if o = 0x11C then some d.pendingCommits.length else none
  | .security =>
    if o = 0x100 then
      some (withBits (d.get (page + o)) 3 3 (flag d.hist.returned) % 2 ^ 16 + d.rom.rbCount % 256 * 2 ^ 16)
    else if 0x114 ≤ o ∧ o < 0x134 then
      some (field (d.sec.mrs.getD (d.get (page + 0x110) % 8) []) (o - 0x114) 4)
    else none
  | .tenant =>
    if o = 0x524 then some (d.get (page + o) + 256 * flag (d.accessKey 0xFE) + 512 * flag (d.accessKey 0xFF))
    else if o = 0x528 ∨ o = 0x52C then some (bitMap ((o - 0x528) / 4) d.accessKey)
    else none
  | .history =>
    if o = 0x100 then some (Nat.min d.permanentSlots 0xFFFF + 2 ^ 16 * flag d.hist.returned + 2 ^ 17 * flag d.work.dump.isSome)
    else if o = 0x104 then some (word d.hist.sec 0)
    else if o = 0x108 then some (Config.historyLength d.hist.summaries.length d.hist.log.length).toNat
    else none
  | .board => if o = 0x104 then some (withBits (d.get (page + o)) 16 16 (d.get (pageBrd + 0x100))) else none
  | .sequencer | .kvStore | .adapter | .program | .billet | .port | .mesh | .monitor | .power => none

/-! ### Reads -/

/-- The value of a 32-bit read at a register-space offset, none where the access gets an error response (R535, R538,
R541, R462) (readings: log entry 31). -/
def Device.readReg (d : Device) (off : Nat) : Option Nat :=
  if off % 4 ≠ 0 ∨ !(d.pageHere (pageOf off)) then none
  else match pageKind off with
    | none => none
    | some k =>
      let page := pageOf off
      let o := offByte off
      if k = .bht ∧ !(d.enumBit 12) then some 0
      else if o = 0xC then some (d.readStat page k)
      else if o = 0x54 then some (2 * flag (d.isLocked page))
      else if o = 0x50 ∨ 0xF00 ≤ o then some 0
      else if 0x100 ≤ o ∧ o < 0x700 then
        some (match regRow k o with
          | none => 0
          | some r => if r.writeOnly then 0 else (d.derived page o k).getD (d.get off))
      else some (d.get off)

/-- What a read does besides: TB_NOW_LO latches TB_NOW_HI, and CH_MINMAX restarts (R266, R473, R543) (readings: log entry 31). -/
def Device.afterRead (d : Device) (off : Nat) : Device :=
  let die := if offDie off = 8 then 4 else offDie off
  match pageKind off with
  | some .timeBase => if offByte off = 0x100 then opTbNowLoRead die d else d
  | some .monitor =>
    if 0x240 ≤ offByte off ∧ offByte off < 0x280 then opChMinmaxRead die ((offByte off - 0x240) / 4) d else d
  | _ => d

end Sys2Proof.Machine
end

