-- ==== Sys2Proof/Machine/Session.lean ====
section
/-! DEFINITION. BHT sessions: packets, acknowledgement, the sending window, handshakes and closing (R445 to R453). -/

namespace Sys2Proof.Machine

/-- The device with the BHT engine changed. -/
def Device.onBht (d : Device) (f : BhtState → BhtState) : Device := { d with bht := f d.bht }
/-- A session, or a handshake. -/
def Device.session (d : Device) (s : Nat) : Option BhtSession := smapFind d.bht.sessions s
/-- The device with a session set. -/
def Device.setSession (d : Device) (s : Nat) (x : BhtSession) : Device := d.onBht (fun b => { b with sessions := smapSet b.sessions s x })
/-- The device with a session changed. -/
def Device.onSession (d : Device) (s : Nat) (f : BhtSession → BhtSession) : Device :=
  match d.session s with
  | some x => d.setSession s (f x)
  | none => d

/-- An event of the BHT page (R464). -/
def Device.bhtEvent (d : Device) (b status s word4 : Nat) : Device := d.eventSt pageBht b status [s, word4 % 2 ^ 32]

/-- Whether the module is a bridge whose BHT engine runs (R462). -/
def Device.bhtOn (d : Device) : Bool := d.enumBit 12 && bit (d.get (pageBht + 0x124)) 31

/-- The largest data of a segment (R446). -/
def Device.maxData (d : Device) : Nat := 1024 * 2 ^ (bits (d.get (pageBht + 0x124)) 1 0)

/-- A session gone. The requests of the storage session in use fail with it (R457) (readings: log entry 45). -/
def Device.closeSession (d : Device) (s : Nat) : Device :=
  let stores := if d.storeSession = some s then [] else d.bht.stores
  d.onBht (fun b => { b with sessions := smapErase b.sessions s, stores := stores })

/-- Every open session that a predicate picks closed. -/
def Device.closeSessions (d : Device) (f : BhtSession → Bool) : Device :=
  (d.bht.sessions.filter (fun e => e.2.isOpen && f e.2)).foldl (fun d e => d.closeSession e.1) d

/-! ### Sending (R451, R452) -/

/-- A message without content. -/
def blankMsg : BhtMsg :=
  { first := false, last := false, sig := false, ece := false, status := 0, node := 0, msn := 0, opid := 0, ackMsn := 0, sack := 0
    addr := 0, len := 0, obj := 0, sop := 0, value := 0, data := [] }

/-- SRTT, or the initial timeout before the first measurement (R451) (readings: log entry 45). -/
def BhtSession.srtt (x : BhtSession) : Nat := (x.rtt.map (·.1)).getD 1000000

/-- The SACK bitmap of what has been received beyond the next MSN (R446). -/
def BhtSession.sackMap (x : BhtSession) : BitVec 64 :=
  BitVec.ofNat 64 (sumNat ((List.range 64).map (fun i => if x.early.any (fun e => e.2.msn == x.msnIn + 1 + i) then 2 ^ i else 0)))

/-- A DATA packet with its acknowledgement; a session whose PN has reached 2^62 closes instead (R449, R451) (readings: log entry 45). -/
def Device.sendPacket (d : Device) (s op : Nat) (m : BhtMsg) : Device :=
  match d.session s with
  | none => d
  | some x =>
    if 2 ^ 62 < x.pnOut then d.closeSession s
    else
      let ece := match x.eceUntil with
        | some t => decide (d.now < t)
        | none => false
      let m := { m with ece := ece, ackMsn := x.msnIn, sack := x.sackMap }
      (d.setSession s { x with pnOut := x.pnOut + 1, unacked := 0 }).send (.bhtData s x.pnOut op ece m)

/-- The messages that wait, sent while the window has room (readings: log entry 45). -/
def Device.pump (d : Device) (s : Nat) : Nat → Device
  | 0 => d
  | n + 1 =>
    match d.session s with
    | none => d
    | some x =>
      match x.waiting with
      | [] => d
      | o :: l =>
        if x.window ≤ x.flying.length then d
        else
          let o := { o with sentAt := d.now }
          ((d.setSession s { x with waiting := l, flying := x.flying ++ [o] }).sendPacket s o.op o.msg).pump s n

/-- A message sent reliably, in the order of MSN. -/
def Device.sendMessage (d : Device) (s op : Nat) (m : BhtMsg) : Device :=
  (d.onSession s (fun x => { x with waiting := x.waiting ++ [{ op := op, msg := { m with msn := x.msnOut } }], msnOut := x.msnOut + 1 })).pump s
    1024

/-- A packet that is only an ACK. -/
def Device.sendAck (d : Device) (s : Nat) : Device := d.sendPacket s 4 blankMsg

/-- A round trip measured (R451, RFC 6298). -/
def BhtSession.measured (x : BhtSession) (r : Nat) : BhtSession :=
  match x.rtt with
  | none => { x with rtt := some (r, r / 2) }
  | some (s, v) => { x with rtt := some ((7 * s + r) / 8, (3 * v + ((s : Int) - r).natAbs) / 4) }

/-- The sending window halved, at most once in a SRTT (R452) (readings: log entry 45). -/
def BhtSession.halve (x : BhtSession) (now : Nat) : BhtSession :=
  let soon := match x.halved with
    | some t => decide (now < t + x.srtt)
    | none => false
  if soon then x else { x with window := Nat.max 4 (x.window / 2), acked := 0, halved := some now }

/-- Whether a packet's fields acknowledge a message (R446). -/
def acksMsn (m : BhtMsg) (msn : Nat) : Bool :=
  decide (msn < m.ackMsn) || (decide (m.ackMsn < msn) && decide (msn ≤ m.ackMsn + 64) && bit m.sack.toNat (msn - m.ackMsn - 1))

/-- What a packet's acknowledgement and its ECE flag do (R451, R452). -/
def BhtSession.takeAck (x : BhtSession) (m : BhtMsg) (now : Nat) : BhtSession :=
  let done := x.flying.filter (fun o => acksMsn m o.msg.msn)
  let x := { x with flying := x.flying.filter (fun o => !(acksMsn m o.msg.msn)) }
  let x := done.foldl (fun x o => if o.again then x else x.measured (now - o.sentAt)) x
  let acked := x.acked + done.length
  let x := if x.window ≤ acked then { x with window := Nat.min 1024 (x.window + 1), acked := acked - x.window } else { x with acked := acked }
  if m.ece then x.halve now else x

/-! ### Receiving (R450) -/

/-- A packet dropped without an answer (R450) (readings: log entry 45). -/
def Device.authDrop (d : Device) (s pn : Nat) : Device :=
  let d := d.count (pageBht + 0x13C)
  let soon := match d.bht.authEvent with
    | some t => decide (d.now < t + 1000000)
    | none => false
  if soon then d else (d.onBht (fun b => { b with authEvent := some d.now })).bhtEvent 1 stOk s pn

/-- A PN that lies below the window of 1,024 or has been seen (R450). -/
def BhtSession.replayed (x : BhtSession) (pn : Nat) : Bool := decide (pn + 1024 < x.pnHigh) || x.pnSeen.contains pn

/-- A PN taken. -/
def BhtSession.see (x : BhtSession) (pn : Nat) : BhtSession :=
  let high := Nat.max x.pnHigh pn
  { x with pnHigh := high, pnSeen := (pn :: x.pnSeen).filter (fun q => decide (high ≤ q + 1024)) }

/-- A packet of a session that is open, or of a handshake: whether it is taken, and the device after the checks (readings: log entry 45). -/
def Device.takePacket (d : Device) (k : BhtPacket) (finish : Bool) : Bool × Device :=
  if !d.bhtOn then (false, d)
  else match d.session k.session with
    | none => (false, d.authDrop k.session k.pn)
    | some x =>
      if !k.tagOk || (!x.isOpen && !finish) then (false, d.authDrop k.session k.pn)
      else if x.replayed k.pn then (false, d.count (pageBht + 0x140))
      else
        let x := { x.see k.pn with heard := d.now }
        if 2 ^ 62 < k.pn then (false, d.closeSession k.session)
        else if k.ce then (true, (d.setSession k.session { x with eceUntil := some (d.now + x.srtt) }).count (pageBht + 0x14C))
        else (true, d.setSession k.session x)

/-! ### Handshakes (R448, R449, R572) -/

/-- The cookie for a source at a second. -/
def Device.cookie (d : Device) (source second : Nat) : List Byte :=
  hmac256 (leBytes 32 (Config.cookieKey d.bht.cookieKey).toNat) (beBytes 16 source ++ beBytes 8 second)

/-- A session number that is free, of 1 to 4,096 (R447) (readings: log entry 45). -/
def Device.freeSession (d : Device) : Option Nat :=
  (freshFrom (Config.sessionChoice d.free).toNat 4096 (d.bht.sessions.map (·.1 - 1))).map (· + 1)

/-- A role that a host may claim (R445). -/
def isRole (r : Nat) : Bool := decide (r < 64) || r == 0xFE || r == 0xFF

/-- BHT_INIT (R448): the two keys and salts derived, and ACCEPT with the certificate chain, the ciphertext and the signature of the
transcript hash (readings: log entry 45). -/
def opBhtInit (role source : Nat) (cookie : Option Nat) (second : Nat) (hostKey : List Byte) (hostNonce : Nat) (d : Device) : Device :=
  if !d.bhtOn then d
  else if !(isRole role) then d.authDrop 0 0
  else if cookie.map (leBytes 32) ≠ some (d.cookie source second) then d.send (.bhtRetry source (d.cookie source second))
  else
    let n := if d.bht.signed.1 = second then d.bht.signed.2 else 0
    let rate := bits (d.get (pageBht + 0x124)) 23 16
    if rate ≤ n || 16 ≤ (d.bht.sessions.filter (fun e => !e.2.isOpen)).length then d.count (pageBht + 0x144)
    else match d.freeSession with
      | none => d
      | some s =>
        let t := leBytes 32 (Config.transcript d.free (hostKey ++ leBytes 32 hostNonce)).toNat
        let keys := hkdf256 (leBytes 32 hostNonce ++ leBytes 32 (Config.moduleNonce d.free).toNat)
          (leBytes 32 (Config.sharedSecret d.free hostKey).toNat) (asciiBytes "BHT1" ++ t) 72
        let sign := (List.range 16224).map (Config.signature d.free d.sec.identity t)
        let certs := (d.rom.idCert :: d.rom.idChain) ++ [Config.ciphertext d.free hostKey]
        let d := (d.drawn).setSession s { source := source, keys := keys, role := role, since := d.now, heard := d.now, transcript := t }
        (d.onBht (fun b => { b with signed := (second, n + 1) })).send (.bhtAccept s t certs sign)

/-- A handshake that failed or expired (R449). -/
def Device.failHandshake (d : Device) (s pn : Nat) : Device := ((d.closeSession s).count (pageBht + 0x138)).bhtEvent 0 stOk s pn

/-- The role proof (R572). -/
def Device.roleProof (d : Device) (x : BhtSession) : Option (List Byte) :=
  (smapFind d.sec.keys x.role).map (fun k => hmac256 k (asciiBytes "BHT1 role" ++ x.transcript))

/-- BHT_FINISH (readings: log entry 45). -/
def opBhtFinish (k : BhtPacket) (proof : Nat) (d : Device) : Device :=
  let r := d.takePacket k true
  if !r.1 then r.2
  else
    let d := r.2
    match d.session k.session with
    | none => d
    | some x =>
      if x.isOpen then d
      else if d.roleProof x = some (leBytes 32 proof) then
        ((d.setSession k.session { x with isOpen := true, order := d.bht.opened }).onBht (fun b => { b with opened := b.opened + 1 })).count
          (pageBht + 0x134)
      else d.failHandshake k.session k.pn

/-- HANDSHAKE_TIMEOUT: 1 s after it began (R449) (readings: log entry 45). -/
def opHandshakeTimeout (s : Nat) (d : Device) : Device :=
  match d.session s with
  | some x => if x.isOpen then d else (d.reach (x.since + 1000000000)).failHandshake s 0
  | none => d

/-- SESSION_IDLE_TIMEOUT: 60 s after the last authenticated packet (R449) (readings: log entry 45). -/
def opSessionIdle (s : Nat) (d : Device) : Device :=
  match d.session s with
  | some x => if x.isOpen then (d.reach (x.heard + 60000000000)).closeSession s else d
  | none => d

/-- BHT_CLOSE (R449). -/
def opBhtClose (k : BhtPacket) (d : Device) : Device :=
  let r := d.takePacket k false
  if r.1 then r.2.closeSession k.session else r.2

/-- CLOSE_ALL (R462). -/
def opCloseAll (agent : Nat) (d : Device) : Device :=
  if d.enumBit 12 then d.closeSessions (fun _ => true) else d.refuseCtrl pageBht 2 agent

/-- COOKIE_KEY_CHANGE (R448). -/
def opCookieKeyChange (d : Device) : Device := d.onBht (fun b => { b with cookieKey := b.cookieKey + 1 })

/-- BHT_RETX_TIMEOUT (R451 to R453): the message is sent again, or the session closes at the eighth timeout of one message (readings: log entry 45). -/
def opRetxTimeout (s msn : Nat) (d : Device) : Device :=
  match d.session s with
  | none => d
  | some x =>
    match x.flying.find? (fun o => o.msg.msn == msn) with
    | none => d
    | some o =>
      if 8 ≤ o.timeouts + 1 then ((d.closeSession s).count (pageBht + 0x150)).bhtEvent 2 stTimeout s x.pnOut
      else
        let again := { o with timeouts := o.timeouts + 1, again := true, sentAt := d.now }
        let x := { x with flying := x.flying.map (fun (q : BhtOut) => if q.msg.msn == msn then again else q) }
        ((d.setSession s (x.halve d.now)).count (pageBht + 0x148)).sendPacket s o.op o.msg

/-- BHT_ACK_TIMER (R451) (readings: log entry 45). -/
def opAckTimer (s : Nat) (d : Device) : Device :=
  match d.session s with
  | some x => if x.unacked = 0 then d else d.sendAck s
  | none => d

def execBhtInit (role : BitVec 8) (source : BitVec 128) (cookie : Option (BitVec 256)) (second : Nat) (hostKey : List Byte)
    (hostNonce : BitVec 256) (s : State) : Host.Outcome State Fault Refusal :=
  s.onDev (opBhtInit role.toNat source.toNat (cookie.map (·.toNat)) second hostKey hostNonce.toNat)
def execBhtFinish (k : BhtPacket) (proof : BitVec 256) (s : State) : Host.Outcome State Fault Refusal := s.onDev (opBhtFinish k proof.toNat)
def execBhtClose (k : BhtPacket) (s : State) : Host.Outcome State Fault Refusal := s.onDev (opBhtClose k)
def execBhtRetxTimeout (session msn : Nat) (s : State) : Host.Outcome State Fault Refusal := s.onDev (opRetxTimeout session msn)
def execBhtAckTimer (session : Nat) (s : State) : Host.Outcome State Fault Refusal := s.onDev (opAckTimer session)
def execHandshakeTimeout (session : Nat) (s : State) : Host.Outcome State Fault Refusal := s.onDev (opHandshakeTimeout session)
def execSessionIdleTimeout (session : Nat) (s : State) : Host.Outcome State Fault Refusal := s.onDev (opSessionIdle session)
def execCookieKeyChange (s : State) : Host.Outcome State Fault Refusal := s.onDev opCookieKeyChange
def execCloseAll (agent : Agent) (s : State) : Host.Outcome State Fault Refusal :=
  s.onDev (fun d => d.written agent.toNat (opCloseAll agent.toNat))

end Sys2Proof.Machine
end

