-- ==== Sys2Proof/Machine/Bht.lean ====
section
/-! DEFINITION. BHT operations, DONE frames, fetch requests that the bridge serves, and what a host port sends beside BHT (R443,
R444, R454 to R457). -/

namespace Sys2Proof.Machine

/-- The agent identity of a session (R226). -/
def Device.sessionAgent (d : Device) (s : Nat) : Nat := agentId d.node 3 s

/-- A NODE field names this module, or a module of the group that has reported (R439, R455). -/
def Device.ownNode (d : Device) (n : Nat) : Bool := n == d.node % 16
def Device.groupNode (d : Device) (n : Nat) : Bool := d.ownNode n || d.mesh.reports.any (fun r => r.1 % 16 == n)

/-- An operation completed with TENANT_VIOLATION (R462). -/
def Device.bhtRefused (d : Device) (s opid : Nat) : Device := (d.count (pageBht + 0x154)).bhtEvent 3 stTenant s opid

/-! ### WRITE (R242, R387, R454, R455, R568) -/

/-- The DONE message of an operation, which leaves the session. -/
def Device.finishOp (d : Device) (s : Nat) (o : BhtOp) (conds : List Nat) : Device :=
  let d := d.onSession s (fun x => { x with ops := x.ops.filter (fun q => q.opid != o.opid) })
  let d := if conds.contains stTenant then d.bhtRefused s o.opid else d
  d.sendMessage s 12 { blankMsg with
    status := BitVec.ofNat 8 (statusOf conds), node := BitVec.ofNat 8 o.node, opid := BitVec.ofNat 32 o.opid }

/-- The frames of a relayed segment (R425, R455). -/
def Device.relayFrames (d : Device) (s role : Nat) (m : BhtMsg) (data : List Byte) : List Cell :=
  let total := data.length / 64
  (List.range (ceilDiv total 64)).map (fun k =>
    let n := Nat.min 64 (total - 64 * k)
    let last := m.last && decide (total ≤ 64 * k + n)
    .data
      { addr := BitVec.ofNat 40 (m.addr.toNat + 4096 * k), sched := false, last := last, sig := last && m.sig, defer := false
        bht := true, len := n, tenant := BitVec.ofNat 8 role, poison := 0, agent := BitVec.ofNat 26 (d.sessionAgent s), obj := m.obj
        sop := BitVec.ofNat 8 m.sop, value := m.value, opid := m.opid }
      ((data.drop (4096 * k)).take (64 * n)))

/-- Whether an access of this module touches an absent address (R30, R31). -/
def Device.touchesAbsent (d : Device) (a n : Nat) : Bool := !(d.reachable a && d.reachable (a + n - 1))

/-- The status under which a segment is refused, OK when it is written or forwarded. Once a segment breaks R387, or touches
an absent address, so do those that follow it (R31, R454) (readings: log entry 46). -/
def Part.segmentStatus (p : Part) (o : BhtOp) (role a n : Nat) : Nat :=
  let own := p.dev.ownNode o.node
  if o.conds.contains stNarrow then stNarrow
  else if o.absent then stTenant
  else if !(p.dev.groupNode o.node) || decide (64 ≤ role) || (own && !(p.tenantMay role a n true)) then stTenant
  else if own && p.dev.touchesAbsent a n then stTenant
  else if own && p.dev.inReset a n then stResetLost
  else if isNarrow a n || (!own && (a % 64 != 0 || n % 64 != 0)) then stNarrow
  else stOk

/-- A segment written, forwarded, or refused (readings: log entry 46). -/
def Part.segment (p : Part) (s role : Nat) (o : BhtOp) (m : BhtMsg) (status a : Nat) (data : List Byte) : Part :=
  let own := p.dev.ownNode o.node
  if status = stOk then
    (if own then ((p.onDev (·.wakeRange a data.length)).put a data false (p.dev.sessionAgent s)).onDev (·.noteWriter role a data.length)
    else p.onDev (fun d => (d.relayFrames s role m data).foldl (fun d c => d.cellTo (d.node / 16 * 16 + o.node) c) d))
  else if status = stTenant then
    p.onDev (fun d => if d.groupNode o.node && !(own && d.touchesAbsent a m.len) && !o.absent then d.tenantRefused role a else d)
  else if own && status == stNarrow && !(o.conds.contains stNarrow) then p.onDev (·.refuseNarrow a data.length (p.dev.sessionAgent s))
  else p

/-- One segment of a WRITE in MSN order (readings: log entry 46). -/
def Part.bhtWrite (p : Part) (s : Nat) (m : BhtMsg) : Part :=
  match p.dev.session s with
  | none => p
  | some x =>
    let fresh : BhtOp := { opid := m.opid.toNat, node := m.node.toNat }
    let o := if m.first then fresh else (x.ops.find? (fun q => q.opid == m.opid.toNat)).getD fresh
    let a := m.addr.toNat % 2 ^ 40
    let data := padTo m.len 0 m.data
    let status := p.segmentStatus o x.role a m.len
    let own := p.dev.ownNode o.node
    let gone := own && status == stTenant && p.dev.touchesAbsent a m.len
    let p := p.segment s x.role o m status a data
    let o := { o with
      conds := if status = stOk then o.conds else o.conds ++ [status], absent := o.absent || gone, awaited := m.last && status == stOk && !own }
    let p := p.onDev (·.onSession s (fun x => { x with ops := x.ops.filter (fun q => q.opid != o.opid) ++ [o] }))
    if !m.last || o.awaited then p
    else p.onDev (fun d =>
      let r := if m.sig && o.conds == [] && !o.absent then
        d.tenantSignal x.role m.obj.toNat m.sop m.value.toNat (d.sessionAgent s) else (stOk, d)
      r.2.finishOp s o (o.conds ++ [r.1]))

/-- DONE_FRAME (R455, R460). -/
def opDoneFrame (port : Nat) (f : MeshHdr) (opid status session : Nat) (d : Device) : Device :=
  d.onFrame port f (.done opid status session) (fun d =>
    let d := if status = stOk then d else d.count (pageMesh + 0x11C)
    match (d.session session).bind (fun x => x.ops.find? (fun q => q.opid == opid && q.awaited)) with
    | some o => d.finishOp session o (o.conds ++ [status])
    | none => d)

/-! ### READ (R385, R403, R456, R536, R541, R568) -/

/-- Successive 32-bit reads of a page, with what each does besides; none once a read gets an error response. -/
def Device.readWords (d : Device) (off : Nat) : Nat → Option (List Byte) × Device
  | 0 => (some [], d)
  | n + 1 =>
    match d.readReg off with
    | none => (none, d)
    | some v =>
      let r := (d.afterRead off).readWords (off + 4) n
      (r.1.map (leBytes 4 v ++ ·), r.2)

/-- What a READ of register space returns (readings: log entry 46). -/
def Device.bhtReadRegs (d : Device) (off n : Nat) : Nat × List Byte × Device :=
  if off % 4 ≠ 0 ∨ n % 4 ≠ 0 ∨ pageOf off ≠ pageOf (off + n - 1) then (stNarrow, [], d)
  else
    let r := (d.wakePage off).readWords off (n / 4)
    match r.1 with
    | some l => (stOk, l, r.2)
    | none => (stNarrow, [], r.2)

/-- What a READ of memory returns: poisoned granules as zeros with POISONED, and no data under a reset (R519)
(readings: log entry 46). -/
def Part.bhtReadMem (p : Part) (a n : Nat) : Nat × List Byte × Part :=
  if p.dev.inReset a n then (stResetLost, [], p) else
  let p := (p.onDev (·.wakeRange a n)).touch a n
  (if p.mem.poisoned a n then stPoisoned else stOk, p.mem.read a n, p)

/-- The READ_RESP segments, in address order (readings: log entry 46). -/
def Device.respond (d : Device) (s : Nat) (m : BhtMsg) (status : Nat) (data : List Byte) : Device :=
  let size := d.maxData
  let parts := if data = [] then [[]] else chunks size (ceilDiv data.length size) data
  (parts.zipIdx 0).foldl (fun d e =>
    d.sendMessage s 3 { blankMsg with
      first := e.2 == 0, last := e.2 + 1 == parts.length, status := BitVec.ofNat 8 status, node := m.node, opid := m.opid
      addr := BitVec.ofNat 64 (m.addr.toNat + size * e.2), len := e.1.length, data := e.1 }) d

/-- A READ (readings: log entry 46). -/
def Part.bhtRead (p : Part) (s : Nat) (m : BhtMsg) : Part :=
  match p.dev.session s with
  | none => p
  | some x =>
    let a := m.addr.toNat % 2 ^ 40
    let n := Nat.min m.len 0x100000
    let regs := decide (0xFF00000000 ≤ a) && decide (a + n ≤ 2 ^ 40)
    let refuse : Part := p.onDev (fun d => (d.bhtRefused s m.opid.toNat).respond s m stTenant [])
    if !(p.dev.groupNode m.node.toNat) then refuse
    else if !(p.dev.ownNode m.node.toNat) then
      (if x.role = 0xFE then refuse
      else p.onDev (fun d => (d.drawn).respond s m stOk ((List.range n).map (fun i => Config.remoteByte d.free i))))
    else if x.role = 0xFF then
      (if regs then
        p.onDev (fun d =>
          let r := d.bhtReadRegs (a - 0xFF00000000) n
          r.2.2.respond s m r.1 r.2.1)
      else if p.dev.touchesAbsent a n then refuse
      else
        let r := p.bhtReadMem a n
        r.2.2.onDev (·.respond s m r.1 r.2.1))
    else if decide (x.role < 64) && p.tenantMay x.role a n false then
      (if p.dev.touchesAbsent a n then refuse else
      let r := p.bhtReadMem a n
      r.2.2.onDev (·.respond s m r.1 r.2.1))
    else refuse.onDev (·.tenantRefused x.role a)

/-! ### SYNC_READ, WATCH, NOTIFY (R261, R456) -/

/-- Whether a session may operate on an object: it lies in its tenant's range (readings: log entry 43). -/
def Device.mayObject (d : Device) (role o : Nat) : Bool := decide (role < 64) && d.tenantOf o == some role

/-- A SYNC_READ (readings: log entry 46). -/
def Device.bhtSyncRead (d : Device) (s : Nat) (m : BhtMsg) : Device :=
  match d.session s with
  | none => d
  | some x =>
    let o := m.obj.toNat
    let answer : Device → Nat → Nat → Device := fun d st v =>
      d.sendMessage s 6 { blankMsg with
        status := BitVec.ofNat 8 st, node := m.node, opid := m.opid, obj := m.obj, value := BitVec.ofNat 32 v }
    if !(d.groupNode m.node.toNat) then answer (d.bhtRefused s m.opid.toNat) stTenant 0
    else if !(d.ownNode m.node.toNat) then
      (if decide (x.role < 64) && Config.remoteMay d.free then answer d.drawn stOk (Config.remoteValue d.free).toNat
      else answer (d.drawn.bhtRefused s m.opid.toNat) stTenant 0)
    else if d.mayObject x.role o then answer d stOk (dbgValue (d.obj o))
    else answer ((d.syncViolation o (d.sessionAgent s) 0).bhtRefused s m.opid.toNat) stTenant 0

/-- What a watch list names an object by: its number, with the node where that is another one. -/
def watchKey (own : Bool) (node o : Nat) : Nat := if own then o else (node + 1) * 2 ^ 14 + o

/-- A WATCH: a list of up to 64 objects (readings: log entry 46). -/
def Device.bhtWatch (d : Device) (s : Nat) (m : BhtMsg) : Device :=
  match d.session s with
  | none => d
  | some x =>
    let o := m.obj.toNat
    let own := d.ownNode m.node.toNat
    let may := if own then d.mayObject x.role o
      else d.groupNode m.node.toNat && decide (x.role < 64) && Config.remoteMay d.free
    let key := watchKey own m.node.toNat o
    let d := if own then d else d.drawn
    if !may then
      let d := if d.ownNode m.node.toNat then d.syncViolation o (d.sessionAgent s) m.value.toNat else d
      (d.bhtRefused s m.opid.toNat).sendMessage s 12 { blankMsg with
        status := BitVec.ofNat 8 stTenant, node := m.node, opid := m.opid, obj := m.obj }
    else if m.value = 0 then d.setSession s { x with watch := x.watch.filter (fun w => w.1 != key) }
    else if m.value ≠ 1 ∨ x.watch.any (fun w => w.1 == key) ∨ 64 ≤ x.watch.length then d
    else d.setSession s { x with watch := x.watch ++ [(key, none)] }

/-- BHT_NOTIFY: at most once in 10 µs for an object. The value of an object of another node is free
(readings: log entry 46). -/
def opBhtNotify (s o : Nat) (d : Device) : Device :=
  match (d.session s).bind (fun x => x.watch.find? (fun w => w.1 % 2 ^ 14 == o)) with
  | none => d
  | some w =>
    let soon := match w.2 with
      | some t => decide (d.now < t + 10000)
      | none => false
    if soon then d
    else
      let d := d.onSession s (fun x => { x with watch := x.watch.map (fun v => if v.1 == w.1 then (w.1, some d.now) else v) })
      let far := decide (2 ^ 14 ≤ w.1)
      let value := if far then (Config.remoteValue d.free).toNat else dbgValue (d.obj o)
      let node := if far then w.1 / 2 ^ 14 - 1 else d.node % 16
      (if far then d.drawn else d).sendMessage s 8 { blankMsg with
        node := BitVec.ofNat 8 node, obj := BitVec.ofNat 14 o, value := BitVec.ofNat 32 value }

/-! ### The storage session (R457) -/

/-- The OPID of a request of the bridge (R446): one that no request in progress has (readings: log entry 45). -/
def Device.newOpid (d : Device) : Nat := (freshFrom (Config.opidChoice d.free).toNat (2 ^ 32) (d.bht.stores.map (·.opid))).getD 0

/-- STORE_READ (readings: log entry 46). -/
def opStoreRead (node object offset len : Nat) (d : Device) : Device :=
  if !d.bhtOn then d
  else match d.storeSession with
    | none => d.bhtEvent 4 stOk 0 0
    | some s =>
      let opid := d.newOpid
      let d := d.drawn.onBht (fun b => { b with stores := b.stores ++ [{ opid := opid, node := node, object := object, offset := offset, len := len }] })
      d.sendMessage s 9 { blankMsg with
        node := BitVec.ofNat 8 node, opid := BitVec.ofNat 32 opid, addr := BitVec.ofNat 64 offset, len := len, data := leBytes 16 object }

/-- A STORE_DATA segment put where the requester fetches to: this module's staging region, or frames to another module. -/
def Part.storePut (p : Part) (q : StoreReq) (offset : Nat) (last : Bool) (data : List Byte) : Part :=
  if p.dev.ownNode q.node then
    let a := p.dev.stageRegion + offset
    let q := p.put a data false (agentId p.dev.node 2 3)
    if isNarrow a data.length then q else q.shardData a data.length
  else
    let a := (Config.stageBase q.node).toNat + offset
    let m : BhtMsg := { blankMsg with last := last, addr := BitVec.ofNat 64 a }
    p.onDev (fun d =>
      ((d.relayFrames 0 0xFF m data).map (fun c => match c with
        | .data h l => .data { h with bht := false, agent := BitVec.ofNat 26 (agentId d.node 2 3) } l
        | c => c)).foldl (fun d c => d.cellTo (d.node / 16 * 16 + q.node) c) d)

/-- A STORE_DATA (readings: log entry 46). -/
def Part.bhtStoreData (p : Part) (s : Nat) (m : BhtMsg) : Part :=
  match (p.dev.session s).bind (fun x => if x.role = 0xFE then p.dev.bht.stores.find? (fun q => q.opid == m.opid.toNat) else none) with
  | none => p
  | some q =>
    let others := p.dev.bht.stores.filter (fun r => r.opid != q.opid)
    if m.status ≠ 0 then p.onDev (·.onBht (fun b => { b with stores := others }))
    else
      let left := if m.last then 0 else q.len - m.len
      let p := p.onDev (·.onBht (fun b => { b with stores := if left = 0 then others else others ++ [{ q with len := left }] }))
      p.storePut q m.addr.toNat m.last (padTo m.len 0 m.data)

/-! ### Delivery in MSN order (R451, R452) -/

/-- A message delivered: 1 WRITE, 2 READ, 5 SYNC_READ, 7 WATCH, 10 STORE_DATA; no other OP that a host sends has an effect. -/
def Part.runMessage (p : Part) (s op : Nat) (m : BhtMsg) : Part :=
  match op with
  | 1 => p.bhtWrite s m
  | 2 => p.bhtRead s m
  | 5 => p.onDev (·.bhtSyncRead s m)
  | 7 => p.onDev (·.bhtWatch s m)
  | 10 => p.bhtStoreData s m
  | _ => p

/-- The messages that are next in MSN order, at most n of them. -/
def Part.runMessages (p : Part) (s : Nat) : Nat → Part
  | 0 => p
  | n + 1 =>
    match p.dev.session s with
    | none => p
    | some x =>
      match x.early.find? (fun e => e.2.msn == x.msnIn) with
      | none => p
      | some e =>
        let next := { x with msnIn := x.msnIn + 1, early := x.early.filter (fun e => e.2.msn != x.msnIn) }
        ((p.onDev (·.setSession s next)).runMessage s e.1 e.2).runMessages s n

/-- RCV_WIN (R452, R462). -/
def Device.rcvWin (d : Device) : Nat := bits (d.get (pageBht + 0x128)) 10 0

/-- A message that a packet brings: kept until its turn, dropped when it was received before or lies beyond RCV_WIN (readings: log entry 45). -/
def Part.takeMessage (p : Part) (s op : Nat) (m : BhtMsg) : Part :=
  if m.msn = 0 then p
  else
    let win := p.dev.rcvWin
    let p := p.onDev (·.onSession s (fun x =>
      let known := decide (m.msn < x.msnIn) || decide (x.msnIn + win ≤ m.msn) || x.early.any (fun e => e.2.msn == m.msn)
      { x with unacked := x.unacked + 1, early := if known then x.early else x.early ++ [(op, m)] }))
    let p := p.runMessages s (win + 1)
    p.onDev (fun d => if 16 ≤ ((d.session s).map (·.unacked)).getD 0 then d.sendAck s else d)

/-- A DATA packet of a session. -/
def opBhtData (op : Nat) (k : BhtPacket) (m : BhtMsg) (p : Part) : Part :=
  let r := p.dev.takePacket k false
  let p : Part := { p with dev := r.2 }
  if !r.1 then p
  else
    (p.onDev (fun d => (d.onSession k.session (fun x => x.takeAck m d.now)).pump k.session 1024)).takeMessage k.session op m

/-! ### Host ports beside BHT (R443, R444) -/

/-- A host port that is enabled. -/
def Device.hostPort (d : Device) (p : Nat) : Bool := d.portMode p == 2 && bit (d.get (pagePort p + 0x100)) 31

/-- An IPv6 address of the BHT page (R462). -/
def Device.ip6 (d : Device) (off : Nat) : Nat := (List.range 4).foldl (fun a i => a * 2 ^ 32 + d.get (pageBht + off + 4 * i)) 0

/-- The link-local address of a MAC address (R444). -/
def linkLocal (mac : Nat) : Nat := 0xFE80 * 2 ^ 112 + Nat.xor (mac / 2 ^ 24) 0x20000 * 2 ^ 40 + 0xFFFE * 2 ^ 24 + mac % 2 ^ 24

/-- NEIGHBOR_SOLICITATION. -/
def opNeighborSolicitation (p target mac : Nat) (d : Device) : Device :=
  if !(d.hostPort p) then d
  else if target = linkLocal (Config.portMac p).toNat ∨ target = d.ip6 0x100 then
    ((d.count64 (pagePort p + 0x128) 1).count64 (pagePort p + 0x120) 1).send (.advert p target mac)
  else d.count (pagePort p + 0x158)

/-- NEIGHBOR_ADVERTISEMENT. -/
def opNeighborAdvertisement (p target mac : Nat) (d : Device) : Device :=
  if !(d.hostPort p) then d
  else if target = d.ip6 0x110 ∧ (d.port p).solicited then (d.count64 (pagePort p + 0x128) 1).onBht (fun b => { b with gateway := some mac })
  else d.count (pagePort p + 0x158)

/-- The ordering part number, by the usable cores at shipment, and the count of usable cores that the module reports beside
it (R2, R5). R444 puts the part number into the system name; that the count travels there too is the model's choice
(readings: log entry 65). -/
def Device.partNumber (d : Device) : Nat × Nat := (d.rom.fuses.grade, d.usable.length)

/-- GATEWAY_SOLICIT and LLDP_SEND. -/
def opGatewaySolicit (p : Nat) (d : Device) : Device :=
  if d.hostPort p then
    ((d.onPort p (fun x => { x with solicited := true })).count64 (pagePort p + 0x120) 1).send (.solicit p (d.ip6 0x110))
  else d
def opLldpSend (p : Nat) (d : Device) : Device :=
  if d.hostPort p then (d.count64 (pagePort p + 0x120) 1).send (.lldp p d.serial d.partNumber.1 d.partNumber.2) else d

def execDoneFrame (p : Port) (f : MeshHdr) (opid : U32) (status : BitVec 8) (session : BitVec 16) (s : State) :
    Host.Outcome State Fault Refusal :=
  s.onDev (opDoneFrame p.val f opid.toNat status.toNat session.toNat)
def execBhtWrite (k : BhtPacket) (m : BhtMsg) (s : State) : Host.Outcome State Fault Refusal := s.onPart (opBhtData 1 k m)
def execBhtRead (k : BhtPacket) (m : BhtMsg) (errors : EccFaults) (s : State) : Host.Outcome State Fault Refusal :=
  s.onPart (fun p => opBhtData 2 k m (p.onMem (·.arise errors)))
def execBhtAck (k : BhtPacket) (m : BhtMsg) (s : State) : Host.Outcome State Fault Refusal := s.onPart (opBhtData 4 k m)
def execBhtSyncRead (k : BhtPacket) (m : BhtMsg) (s : State) : Host.Outcome State Fault Refusal := s.onPart (opBhtData 5 k m)
def execBhtWatch (k : BhtPacket) (m : BhtMsg) (s : State) : Host.Outcome State Fault Refusal := s.onPart (opBhtData 7 k m)
def execBhtNotify (session : Nat) (o : Obj) (s : State) : Host.Outcome State Fault Refusal := s.onDev (opBhtNotify session o.val)
def execBhtStoreData (k : BhtPacket) (m : BhtMsg) (s : State) : Host.Outcome State Fault Refusal := s.onPart (opBhtData 10 k m)
def execBhtKeepalive (k : BhtPacket) (m : BhtMsg) (s : State) : Host.Outcome State Fault Refusal := s.onPart (opBhtData 11 k m)
def execStoreRead (node : BitVec 4) (object : BitVec 128) (offset : BitVec 64) (len : Nat) (s : State) :
    Host.Outcome State Fault Refusal :=
  s.onDev (opStoreRead node.toNat object.toNat offset.toNat len)
def execNeighborSolicitation (p : Port) (_source target : BitVec 128) (sourceMac : BitVec 48) (s : State) :
    Host.Outcome State Fault Refusal :=
  s.onDev (opNeighborSolicitation p.val target.toNat sourceMac.toNat)
def execNeighborAdvertisement (p : Port) (target : BitVec 128) (mac : BitVec 48) (s : State) : Host.Outcome State Fault Refusal :=
  s.onDev (opNeighborAdvertisement p.val target.toNat mac.toNat)
def execGatewaySolicit (p : Port) (s : State) : Host.Outcome State Fault Refusal := s.onDev (opGatewaySolicit p.val)
def execLldpSend (p : Port) (s : State) : Host.Outcome State Fault Refusal := s.onDev (opLldpSend p.val)

end Sys2Proof.Machine
end

