-- ==== Sys2Proof/Machine/Secure.lean ====
section
/-! DEFINITION. The security processor: anti-rollback fuses, measurements, quotes, the debug unlock and tenant keys (R562 to R577). -/

namespace Sys2Proof.Machine

/-- The device with the security processor's work changed. -/
def Device.onWork (d : Device) (f : SecWork → SecWork) : Device := { d with work := f d.work }

/-- An event of the security page, with a sequence number in word 3 (R577). -/
def Device.secEvent (d : Device) (b seq : Nat) : Device := d.eventSt pageSec b stOk [seq % 2 ^ 32]

/-- SEC_STAT.FW_SVN and SEC_STAT.DBG_UNLOCKED (R575). -/
def Device.fwSvn (d : Device) : Nat := bits (d.get (pageSec + 0x100)) 15 8
def Device.unlocked (d : Device) : Bool := bit (d.get (pageSec + 0x100)) 2

/-- A 40-bit address register of the security page. -/
def Device.secAddr (d : Device) (off : Nat) : Nat := d.get64 (pageSec + off) % 2 ^ 40

/-! ### Anti-rollback and measurements (R562, R563) -/

/-- ROLLBACK_ADV (readings: log entry 50). -/
def opRollbackAdv (d : Device) : Device := if d.rom.rbCount < d.fwSvn then d.onWork (fun w => { w with blowing := true }) else d

/-- FUSE_BLOWN (readings: log entry 50). -/
def opFuseBlown (d : Device) : Device :=
  if !d.work.blowing then d
  else
    let d := { d with rom := { d.rom with rbCount := d.rom.rbCount + 1 } }
    if d.fwSvn ≤ d.rom.rbCount then (d.onWork (fun w => { w with blowing := false })).secEvent 3 0 else d

/-- EXTEND (R563, R575): MR7 with the 32 bytes at EXT_ADDR. -/
def opExtend (agent : Nat) (p : Part) : Part :=
  if p.dev.get (pageSec + 0x110) % 8 ≠ 7 then p.onDev (·.refuseCtrl pageSec 2 agent)
  else
    let a := p.dev.secAddr 0x138
    let p := p.touch a 32
    p.onDev (·.extendMr 7 (p.mem.read a 32))

/-! ### Quotes (R565, R566) -/

/-- The ready slots that a quote lists: those of the tenant, or every one. -/
def Part.quoteSlots (p : Part) (t : Nat) : List Nat :=
  (List.range 1024).filter (fun s =>
    p.adpState s == 2 && (t == 0xFF || p.mem.nat (p.dev.adpEntry s + 9) 1 == t))

/-- One entry of ADAPTERS. -/
def Part.quoteAdapter (p : Part) (s : Nat) : List Byte :=
  let e := p.dev.adpEntry s
  p.mem.read e 8 ++ leBytes 2 s ++ p.mem.read (e + 0xA) 1 ++ List.replicate 5 0 ++ p.mem.read (e + 0x20) 32

/-- The tenant's part of a quote, bytes 0x180 to 0x24F (readings: log entry 50). -/
def Part.quoteTenant (p : Part) (t : Nat) : List Byte :=
  if 64 ≤ t then List.replicate 0xD0 0
  else
    let d := p.dev
    let key : Nat → List Byte := fun kind => (smapFind d.sec.keys (256 * kind + t)).getD []
    let scope := if key 1 = [] then List.replicate 32 0 else sha256 (key 1)
    let (first, count) := p.recRange t
    let regions := (List.range 128).filter (fun i =>
      bit (d.get (pageTen + 0x100 + 8 * i)) 31 && bits (d.get (pageTen + 0x100 + 8 * i)) 29 24 == t)
    let pairs := regions.flatMap (fun i => leBytes 4 (d.get (pageTen + 0x100 + 8 * i)) ++ leBytes 4 (d.get (pageTen + 0x104 + 8 * i)))
    scope ++ padTo 32 0 (key 2) ++ leBytes 4 (d.get (pageSync + 0x200 + 4 * t)) ++ leBytes 2 first ++ leBytes 2 count ++
      leBytes 1 (flag (bit (d.get64 (pageHeat + 0x140)) t)) ++ leBytes 1 regions.length ++ List.replicate 6 0 ++ padTo 128 0 pairs

/-- The bytes that a quote signs, of the state that is live now. -/
def Part.quoteBytes (p : Part) : List Byte :=
  let d := p.dev
  let t := d.get (pageSec + 0x150) % 256
  let slots := p.quoteSlots t
  let flags := flag d.unlocked + 2 * flag d.hist.returned + 4 * flag d.safe + 8 * flag (bit (d.get (pageSec + 0x100)) 1)
  let billet := if d.get (pageBlt + 0x100) = 0 then List.replicate 32 0 else p.mem.read (d.get64 (pageBlt + 0x104) % 2 ^ 40 + 0x60) 32
  [0x4E, 0x42, 0x58, 0x51] ++ leBytes 2 1 ++ leBytes 1 t ++ leBytes 1 flags ++ leBytes 8 d.serial ++ leBytes 8 d.now ++
    leBytes 2 d.node ++ leBytes 2 slots.length ++ leBytes 4 (d.get (pageBlt + 0x100)) ++ p.mem.read (d.secAddr 0x140) 32 ++
    d.sec.mrs.flatten ++ billet ++ leBytes 8 (d.get64 (pageHeat + 0x104)) ++ leBytes 1 d.fwSvn ++ leBytes 1 d.rom.rbCount ++
    List.replicate 6 0 ++ leBytes 4 (0x250 + 48 * slots.length) ++ List.replicate 12 0 ++ p.quoteTenant t ++
    slots.flatMap p.quoteAdapter

/-- QUOTE (readings: log entry 50). -/
def opQuote (agent : Nat) (p : Part) : Part :=
  if bit (p.dev.get (pageSec + 0x100)) 4 then p.onDev (·.refuseCtrl pageSec 4 agent)
  else
    let t := p.dev.get (pageSec + 0x150) % 256
    let p := p.touchAll [(p.dev.secAddr 0x140, 32), (p.dev.get64 (pageBlt + 0x104) % 2 ^ 40 + 0x60, 32), (p.dev.adpEntry 0, 65536),
      (p.dev.tenSrv t, 16)]
    let q := (p.dev.secAddr 0x148, p.quoteBytes)
    p.onDev (fun d => (d.setBits (pageSec + 0x100) 4 4 1).onWork (fun w => { w with quote := some q, quotes := w.quotes + 1 }))

/-- QUOTE_DONE: the quote with its 17,088 bytes of signature by the attestation key (R559, R565). -/
def opQuoteDone (p : Part) : Part :=
  match p.dev.work.quote with
  | none => p
  | some (a, q) =>
    let sign := (List.range 17088).map (Config.signature p.dev.free p.dev.sec.attestation q)
    let p := p.put a (q ++ sign) false (agentId p.dev.node 2 0)
    p.onDev (fun d =>
      let d := ((d.drawn).setBits (pageSec + 0x100) 4 4 0).onWork (fun w => { w with quote := none })
      ((d.set (pageSec + 0x154) (q.length + 17088)).count (pageSec + 0x18C)).secEvent 0 d.work.quotes)

/-! ### Debug unlock (R573, R574) -/

/-- DBG_CHAL: ignored after 3 failed attempts. -/
def opDbgChal (agent : Nat) (d : Device) : Device :=
  if 3 ≤ d.work.tries then d.refuseCtrl pageSec 8 agent
  else
    let c := (Config.challenge d.free).toNat
    let d := (d.drawn).setWords (pageSec + 0x160) ((List.range 8).map (fun i => c / 2 ^ (32 * i) % 2 ^ 32))
    d.onWork (fun w => { w with challenge := some d.now, challenges := w.challenges + 1 })

/-- The challenge shown, and SERIAL: what the response signs. -/
def Device.challengeBytes (d : Device) : List Byte :=
  (List.range 8).flatMap (fun i => leBytes 4 (d.get (pageSec + 0x160 + 4 * i))) ++ leBytes 8 d.serial

/-- The response: a signature of 29,792 bytes at DBG_RESP (R559). -/
def Part.response (p : Part) : List Byte := p.mem.read (p.dev.secAddr 0x180) 29792

/-- Whether an attempt is accepted: an open challenge less than 10 min old, no plan, and a signature that verifies. -/
def Part.unlocks (p : Part) : Bool :=
  (match p.dev.work.challenge with
    | some t => decide (p.dev.now < t + 600000000000)
    | none => false) && !p.dev.planRuns &&
  Config.signatureValid (leBytes 32 Config.debugKey.toNat) p.dev.challengeBytes p.response

/-- DBG_UNLOCK (R573, R574): what an accepted response does stands in its order (readings: log entry 50). -/
def opDbgUnlock (p : Part) : Part :=
  let p := p.touch (p.dev.secAddr 0x180) 29792
  let ok := p.unlocks
  let digest := sha256 p.response
  let p := p.onDev (·.onWork (fun w => { w with challenge := none }))
  if ok then
    let p := p.onDev (fun d => { d.closeSessions (fun _ => true) with sec := { d.sec with keys := [] } })
    let p := p.onMem (·.clear 0 (0x6000000000 / 64))
    p.onDev (fun d =>
      (((d.onHist (fun h => { h with returned := true })).extendMr 2 digest).setBits (pageSec + 0x100) 2 2 1).secEvent 1 d.work.challenges)
  else p.onDev (fun d =>
    ((d.onWork (fun w => { w with tries := w.tries + 1 })).count (pageSec + 0x188)).secEvent 2 d.work.challenges)

/-- CHALLENGE_EXPIRE (readings: log entry 50). -/
def opChallengeExpire (d : Device) : Device :=
  match d.work.challenge with
  | none => d
  | some t => (d.reach (t + 600000000000)).onWork (fun w => { w with challenge := none })

/-! ### Tenant keys (R571, R575) -/

/-- The key that KSEL names, by its place among the keys. -/
def Device.keyName (d : Device) : Option Nat :=
  let w := d.get (pageTen + 0x500)
  let t := bits w 7 0
  let kind := bits w 9 8
  if t < 64 ∧ kind < 3 then some (256 * kind + t) else if (t = 0xFE ∨ t = 0xFF) ∧ kind = 0 then some t else none

/-- KEY_STAT with an outcome. -/
def Device.keyStat (d : Device) (status : Nat) : Device := d.set (pageTen + 0x524) (2 ^ 31 + status)

/-- KEY_LOAD (readings: log entry 50). -/
def opKeyLoad (agent : Nat) (d : Device) : Device :=
  let key := (List.range 8).flatMap (fun i => leBytes 4 (d.get (pageTen + 0x504 + 4 * i)))
  match d.keyName with
  | none => d.refuseCtrl pageTen 2 agent
  | some k =>
    let d := d.setWords (pageTen + 0x504) (List.replicate 8 0)
    if d.unlocked then d.keyStat stTenant
    else (d.set (pageTen + 0x524) 0).onWork (fun w => { w with keyLoad := some (k, key) })

/-- KEY_LOAD_DONE: a new access key closes the sessions of its tenant or role (readings: log entry 50). -/
def opKeyLoadDone (d : Device) : Device :=
  match d.work.keyLoad with
  | none => d
  | some (k, key) =>
    let d := d.onWork (fun w => { w with keyLoad := none })
    if d.unlocked then d.keyStat stTenant
    else
      let d := { d with sec := { d.sec with keys := smapSet d.sec.keys k key } }
      let d := if k < 256 then d.closeSessions (fun x => x.role == k) else d
      (d.keyStat stOk).eventSt pageTen 0 stOk [k % 256, 0]

/-- KEY_ERASE (readings: log entry 50). -/
def opKeyErase (agent : Nat) (d : Device) : Device :=
  match d.keyName with
  | none => d.refuseCtrl pageTen 4 agent
  | some k => { d with sec := { d.sec with keys := smapErase d.sec.keys k } }

def execRollbackAdv (agent : Agent) (s : State) : Host.Outcome State Fault Refusal := s.onDev (fun d => d.written agent.toNat opRollbackAdv)
def execFuseBlown (s : State) : Host.Outcome State Fault Refusal := s.onDev opFuseBlown
def execExtend (agent : Agent) (s : State) : Host.Outcome State Fault Refusal :=
  s.onPart (fun p => p.written agent.toNat (opExtend agent.toNat))
def execQuote (agent : Agent) (s : State) : Host.Outcome State Fault Refusal :=
  s.onPart (fun p => p.written agent.toNat (opQuote agent.toNat))
def execQuoteDone (s : State) : Host.Outcome State Fault Refusal := s.onPart opQuoteDone
def execDbgChal (agent : Agent) (s : State) : Host.Outcome State Fault Refusal :=
  s.onDev (fun d => d.written agent.toNat (opDbgChal agent.toNat))
def execDbgUnlock (agent : Agent) (s : State) : Host.Outcome State Fault Refusal := s.onPart (fun p => p.written agent.toNat opDbgUnlock)
def execChallengeExpire (s : State) : Host.Outcome State Fault Refusal := s.onDev opChallengeExpire
def execKeyLoad (agent : Agent) (s : State) : Host.Outcome State Fault Refusal :=
  s.onDev (fun d => d.written agent.toNat (opKeyLoad agent.toNat))
def execKeyLoadDone (s : State) : Host.Outcome State Fault Refusal := s.onDev opKeyLoadDone
def execKeyErase (agent : Agent) (s : State) : Host.Outcome State Fault Refusal :=
  s.onDev (fun d => d.written agent.toNat (opKeyErase agent.toNat))

end Sys2Proof.Machine
end

