-- ==== Sys2Proof/Machine/Reliable.lean ====
section
/-! DEFINITION. Proof kernels and history dumps (R578 to R581, R589, R593). -/

namespace Sys2Proof.Machine

/-- An event of the history page (R593). -/
def Device.hisEvent (d : Device) (b status cls unit : Nat) : Device :=
  d.event pageHis b (status + b * 0x100 + cls * 0x10000) [unit, d.hist.sec % 2 ^ 32]

/-! ### Proof kernels (R578, R581) -/

/-- An entry of the proof table. -/
structure ProofEntry where
  unit : Nat
  heat : Nat
  exact : Bool
  tol : U32
  len : Nat
  out : Nat
  expected : Nat
  deriving DecidableEq, Repr

def Part.proofEntry (p : Part) (i : Nat) : ProofEntry :=
  let e := p.mem.read (p.dev.get64 (pageHis + 0x110) % 2 ^ 40 + 32 * i) 32
  ⟨field e 0 4, field e 4 2, inRange 0 1 (field e 6 1) == 0, BitVec.ofNat 32 (field e 8 4), 64 * field e 0xC 4,
    field e 0x10 8 % 2 ^ 40, field e 0x18 8 % 2 ^ 40⟩

/-- Whether two FP32 elements lie within a tolerance. -/
def within (tol a b : U32) : Bool :=
  let diff := ((f32 a).add (f32 b).neg).abs
  !diff.isNan && !((f32 tol).lt diff)

/-- Whether an entry's output matches what is expected; a poisoned or absent output granule does not (readings: log entry 51). -/
def Part.proofMatches (p : Part) (e : ProofEntry) : Bool :=
  let out := p.mem.read e.out e.len
  let want := p.mem.read e.expected e.len
  !(p.mem.poisoned e.out e.len) && (granules e.out e.len).all (fun g => p.dev.reachable (64 * g)) &&
    (if e.exact then out == want
    else (List.range (e.len / 4)).all (fun i =>
      within e.tol (BitVec.ofNat 32 (field out (4 * i) 4)) (BitVec.ofNat 32 (field want (4 * i) 4))))

/-- PROOF_COMPARE: an entry of the proof table after its maintenance heat (readings: log entry 51). -/
def opProofCompare (i : Nat) (p : Part) : Part :=
  match p.dev.work.proof with
  | none => p
  | some (prog, stressed, held) =>
    let runs := p.dev.planRuns && p.dev.heat.kind == 1 && decide (p.dev.now < p.dev.heat.start + p.dev.heat.len)
    if runs || p.dev.get (pageHis + 0x118) ≤ i then p
    else
      let p := p.touch (p.dev.get64 (pageHis + 0x110) % 2 ^ 40 + 32 * i) 32
      let e := p.proofEntry i
      if e.heat ≠ prog then p
      else if !held then p.onDev (fun d => (d.count (pageHis + 0x138)).hisEvent 4 stOk 4 e.unit)
      else
        let p := ((p.touch e.out e.len).touch e.expected e.len).onDev (·.count (pageHis + 0x130))
        if p.proofMatches e then p
        else p.onDev (fun d =>
          ((d.count (pageHis + 0x134)).hisEvent 1 stOk 4 e.unit).record e.unit 4 stOk pageHis (!stressed))

/-! ### Dumps (R589) -/

/-- DUMP (readings: log entry 51). -/
def opDump (agent : Nat) (d : Device) : Device :=
  let a := d.get64 (pageHis + 0x11C) % 2 ^ 40
  let n := d.get (pageHis + 0x128)
  if d.planRuns || d.work.dump.isSome || n = 0 || 4096 < n || a < sramBase || sramBase + 0x4000000 < a + 4096 * n + 32 then
    d.refuseCtrl pageHis 2 agent
  else d.onWork (fun w => { w with dump := some (a, d.get (pageHis + 0x124), n) })

/-- The bytes of a block of the history image, zeros beyond HIST_LEN. -/
def Device.dumpBytes (d : Device) (ofs n : Nat) : List Byte :=
  let len := 4096 * (Config.historyLength d.hist.summaries.length d.hist.log.length).toNat
  (List.range (4096 * n)).map (fun i => if 4096 * ofs + i < len then Config.historyByte d.free (4096 * ofs + i) else 0)

/-- DUMP_DONE: the block, and behind it its hash, which MR6 is extended with (readings: log entry 51). -/
def opDumpDone (p : Part) : Part :=
  match p.dev.work.dump with
  | none => p
  | some (a, ofs, n) =>
    let block := p.dev.dumpBytes ofs n
    let p := p.put a (block ++ sha256 block) false (agentId p.dev.node 2 0)
    p.onDev (fun d =>
      (((d.drawn).onWork (fun w => { w with dump := none })).extendMr 6 (sha256 block)).hisEvent 3 stOk 0 unitModule)

def execProofCompare (entry : Nat) (s : State) : Host.Outcome State Fault Refusal := s.onPart (opProofCompare entry)
def execDump (agent : Agent) (s : State) : Host.Outcome State Fault Refusal :=
  s.onDev (fun d => d.written agent.toNat (opDump agent.toNat))
def execDumpDone (s : State) : Host.Outcome State Fault Refusal := s.onPart opDumpDone

end Sys2Proof.Machine
end

