-- ==== Sys2Proof/Machine/RegWrite.lean ====
section
/-! DEFINITION. Register writes: the fields that take them, the writes that act, and those that are ignored and logged (R12,
R536 to R546). -/

namespace Sys2Proof.Machine

/-- A CTRL bit that acts when 1 is written to it (readings: log entry 31). -/
def Part.strobe (p : Part) (page : Nat) (k : PageKind) (agent i : Nat) : Part :=
  let die := if offDie page = 8 then 4 else offDie page
  match k, i with
  | .heatControl, 1 => p.onDev (opHoldDone agent)
  | .heatControl, 2 => p.onDev (opPlanStart agent)
  | .heatControl, 3 => p.onDev (opPlanLoad agent)
  | .billet, 1 => opBilletFetch agent p
  | .billet, 2 => p.onDev opAbandon
  | .memory, 2 => if die < 4 then p.onDev (opVmClear die agent) else p.onDev (·.logAccess 3 (page + 8) 4 agent)
  | .port, 1 => p.onDev (opRetrain (offBlock page - 0x40) agent)
  | .bht, 1 => p.onDev (opCloseAll agent)
  | .monitor, 1 => p.onDev (opMcInject die)
  | .monitor, 2 => p.onDev (opSelfCal die agent)
  | .thermal, 1 => p.onDev (opQuenchClr agent)
  | .power, 1 => opSysReset p
  | .power, 2 => p.onDev opCoreRst
  | .power, 3 => p.onDev (·.wakeAll)
  | .commit, 1 => p.onDev opSubmit
  | .commit, 2 => p.onDev opWithdraw
  | .security, 1 => opExtend agent p
  | .security, 2 => opQuote agent p
  | .security, 3 => p.onDev (opDbgChal agent)
  | .security, 4 => opDbgUnlock p
  | .security, 5 => p.onDev opRollbackAdv
  | .tenant, 1 => p.onDev (opKeyLoad agent)
  | .tenant, 2 => p.onDev (opKeyErase agent)
  | .history, 1 => p.onDev (opDump agent)
  | .anvil, 2 => p.onDev (opCntClr page agent)
  | .anvil, _ => p
  | _, 0 => p.onDev (opCntClr page agent)
  | _, _ => p

/-- RWL bits replaced, or refused while the lock is set (R545) (readings: log entry 31). -/
def Device.writeLocked (d : Device) (off v mask agent : Nat) (free : Bool) : Device :=
  let old := d.get off
  if mask = 0 then d
  else if d.isLocked (pageOf off) && !free then d.logAccess 4 off v agent
  else d.set off (old - Nat.land old mask + Nat.land v mask)

/-- RW bits replaced (readings: log entry 31). -/
def Device.writeBits (d : Device) (off v mask : Nat) : Device :=
  let old := d.get off
  d.set off (old - Nat.land old mask + Nat.land v mask)

/-- A write of CTRL: its fields, then what its bits do, in bit order (readings: log entry 31). -/
def Part.writeCtrl (p : Part) (off v agent : Nat) (k : PageKind) : Part :=
  let i := pageInfo k
  if i.ctrlRw = 0 ∧ i.ctrlRwl = 0 ∧ i.ctrlWo = 0 then p.onDev (·.logAccess 3 off v agent)
  else
    let p := p.onDev (fun d => (d.writeBits off v i.ctrlRw).writeLocked off v i.ctrlRwl agent false)
    (List.range 6).foldl (fun p b => if bit i.ctrlWo b && bit v b then p.strobe (pageOf off) k agent b else p) p

/-- A command of the sync page (R263). -/
def Device.syncCommand (d : Device) (v agent : Nat) : Device :=
  match v % 16 with
  | 1 => opInitCounter d
  | 2 => opInitFlag d
  | 3 => opInitBarrier d
  | 4 => opFree agent d
  | 5 => opAdd agent d
  | 6 => opSet agent d
  | 7 => opClear agent d
  | 8 => opArrive agent d
  | 9 => opClrSticky agent d
  | _ => opCmdReserved d

/-- A write of a live register. -/
def Device.writeLive (d : Device) (off v agent : Nat) (k : PageKind) : Device :=
  match regRow k (offByte off) with
  | none => d.logAccess 3 off v agent
  | some r =>
    if off = pageCom + 0x140 then (if bit v 31 then opAccLogClear d else d)
    else if r.rw = 0 ∧ r.rwl = 0 then d.logAccess 3 off v agent
    else if off = pageSync + 0x14C then d.syncCommand v agent
    else if off = pageSync + 0x160 then opDbgSelWrite v d
    else if off = pageCom + 0x120 ∧ v < 8000 then d.logAccess 7 off v agent
    else if k = .monitor ∧ offByte off = 0x11C ∧ bit v 16 ∧ !d.unlocked then d.logAccess 7 off v agent
    else (d.writeBits off v r.rw).writeLocked off v r.rwl agent (k == .monitor && d.unlocked)

/-- A register write, of whatever agent may make it (readings: log entry 31). -/
def Part.writeReg (p : Part) (off v width agent : Nat) : Part :=
  match p.dev.badAccess off v width agent with
  | some d => { p with dev := d }
  | none =>
    match pageKind off with
    | none => p
    | some k =>
      let p := p.onDev (·.wakePage off)
      let page := pageOf off
      let o := offByte off
      if 0xF00 ≤ o then p
      else if o = 8 then p.writeCtrl off v agent k
      else p.onDev (fun d =>
        if 0x900 ≤ o then opStagedImageWrite off v agent d
        else if o = 0x10 then opEvtClear page v agent d
        else if o = 0x14 then d.set off (Nat.land v (pageInfo k).evt)
        else if o = 0x18 then d.set off (v % 64)
        else if o = 0x1C then (if bit v 0 then opCapClear page agent d else d)
        else if o = 0x40 then (if bit v 0 then opStageDiscard page agent d else d)
        else if o = 0x50 then opBlkReset page v agent d
        else if o = 0x54 then (if bit v 0 then opLockSet page agent d else d)
        else if 0x100 ≤ o ∧ o < 0x700 then d.writeLive off v agent k
        else d.logAccess 3 off v agent)

def execRegisterWrite (off v : U32) (width : Nat) (agent : Agent) (s : State) : Host.Outcome State Fault Refusal :=
  s.onPart (fun p => p.written agent.toNat (fun p => p.writeReg off.toNat v.toNat width agent.toNat))

end Sys2Proof.Machine
end

