-- ==== Sys2Proof/Machine/Board.lean ====
section
/-! DEFINITION. The I3C target of the board management interface and the IEEE 1149.1 TAP (R523, R600, R605 to R610). -/

namespace Sys2Proof.Machine

/-- An event of the board management page, with the offset of a refused access (R610). -/
def Device.brdEvent (d : Device) (b off : Nat) : Device := d.eventSt pageBrd b stOk [off]

/-- The management processor has started (R523, R525). -/
def Device.managed (d : Device) : Bool := !d.power.inReset && decide (4 ≤ bits (d.get (pagePwr + 0x164)) 3 0)

/-- BM_CFG.I2C_MODE (R608) (readings: log entry 52). -/
def Device.i2cMode (d : Device) : Bool := bit (d.get (pageBrd + 0x100)) 0

/-- The provisioned identifier: the manufacturer's identity in bits 47:33, and bits 31:0 of SERIAL (R605). -/
def Device.provisionedId (d : Device) : Nat := Config.mipiManufacturer.toNat * 2 ^ 33 + d.serial % 2 ^ 32

/-- ENTDAA (R605, R608): BCR is 0x06 and DCR 0x00 (readings: log entry 52). -/
def opEntdaa (addr : Nat) (d : Device) : Device :=
  if !d.managed || d.i2cMode then d
  else ((((d.send (.i3cId d.provisionedId 0x06 0x00)).setBits (pageBrd + 0x104) 0 0 1).setBits (pageBrd + 0x104) 14 8 addr)).brdEvent 0 0

/-- The target answers on its bus: by its dynamic address, or as an I²C target by SADDR (R605, R608) (readings: log entry 52). -/
def Device.answersBoard (d : Device) : Bool := d.managed && (d.i2cMode || bit (d.get (pageBrd + 0x104)) 0)

/-- An access refused (R606). -/
def Device.boardRefused (d : Device) (off : Nat) : Device := (d.count (pageBrd + 0x10C)).brdEvent 1 off

/-- I3C_OFFSET_WRITE (readings: log entry 52). -/
def opI3cOffset (off : Nat) (d : Device) : Device := if d.answersBoard then d.onWork (fun w => { w with i3cOffset := off }) else d

/-- I3C_REGISTER_READ: the pages of DIE 8 only (readings: log entry 52). -/
def opI3cRead (d : Device) : Device :=
  if !d.answersBoard then d
  else
    let off := d.work.i3cOffset
    match if offDie off = 8 then d.readReg off else none with
    | some v => (d.afterRead off).send (.i3cWord v)
    | none => (d.boardRefused off).send (.i3cWord 0xFFFFFFFF)

/-- The agent identity of the board management controller (R536). -/
def Device.boardAgent (d : Device) : Nat := agentId d.node 2 5

/-- I3C_REGISTER_WRITE: the board management page only (readings: log entry 52). -/
def opI3cWrite (off v : Nat) (p : Part) : Part :=
  if !p.dev.answersBoard then p
  else
    let p := p.onDev (·.onWork (fun w => { w with i3cOffset := off }))
    if pageOf off = pageBrd then p.writeReg off v 4 p.dev.boardAgent else p.onDev (·.boardRefused off)

/-! ### The TAP (R600, IEEE 1149.1) -/

/-- The states of the TAP in the order of its two columns: 0 Test-Logic-Reset, 1 Run-Test/Idle, 2 to 8 Select-DR-Scan,
Capture-DR, Shift-DR, Exit1-DR, Pause-DR, Exit2-DR and Update-DR, and 9 to 15 the same of IR (readings: log entry 52). -/
def tapNext (s : Nat) (tms : Bool) : Nat :=
  let pair : Nat × Nat := match s with
    | 0 => (1, 0) | 1 => (1, 2)
    | 2 => (3, 9) | 3 => (4, 5) | 4 => (4, 5) | 5 => (6, 8) | 6 => (6, 7) | 7 => (4, 8) | 8 => (1, 2)
    | 9 => (10, 0) | 10 => (11, 12) | 11 => (11, 12) | 12 => (13, 15) | 13 => (13, 14) | 14 => (11, 15)
    | _ => (1, 2)
  if tms then pair.2 else pair.1

/-- TAP_ACCESS: one edge of TCK (readings: log entry 52). -/
def opTapAccess (tms : Bool) (d : Device) : Device := d.onWork (fun w => { w with tap := tapNext w.tap tms })

/-- TRST_N driven low (readings: log entry 52). -/
def opTrstN (d : Device) : Device := d.onWork (fun w => { w with tap := 0 })

def execEntdaa (addr : BitVec 7) (s : State) : Host.Outcome State Fault Refusal := s.onDev (opEntdaa addr.toNat)
def execI3cOffsetWrite (off : U32) (s : State) : Host.Outcome State Fault Refusal := s.onDev (opI3cOffset off.toNat)
def execI3cRegisterRead (s : State) : Host.Outcome State Fault Refusal := s.onDev opI3cRead
def execI3cRegisterWrite (off v : U32) (s : State) : Host.Outcome State Fault Refusal := s.onPart (opI3cWrite off.toNat v.toNat)
def execTrstN (s : State) : Host.Outcome State Fault Refusal := s.onDev opTrstN
def execTapAccess (tms _tdi : Bool) (s : State) : Host.Outcome State Fault Refusal := s.onDev (opTapAccess tms)

end Sys2Proof.Machine
end

