-- ==== Sys2Proof/Machine/Vector.lean ====
section
/-! DEFINITION. The vector engine (R144, R174 to R177, R191). -/

namespace Sys2Proof.Machine

/-- The plan loaded is in compatibility mode (R137). -/
def Device.compat (d : Device) : Bool := Config.compatPlan (d.get64 (pageHeat + 0x104))

/-! ### Formats (R97, R98) -/

/-- The bytes of n elements of a VEC format code. -/
def vecBytes (fmt n : Nat) : Nat :=
  if fmt = 0 then n / 2 else if fmt ≤ 3 then n else if fmt = 4 then 2 * n else 4 * n

/-- Elements read as FP32: every format's values are FP32 values. -/
def vecDecode (fmt n : Nat) (l : List Byte) : List U32 :=
  if fmt = 0 then (nibbles l).map (fun w => f32OfInt (signed 4 w))
  else if fmt = 1 then l.map (fun b => f32OfInt (signed 8 b.toNat))
  else if fmt = 2 then l.map (fun b => toF32 (e4m3.decode b.toNat))
  else if fmt = 3 then l.map (fun b => toF32 (e5m2.decode b.toNat))
  else if fmt = 4 then (elements 2 n l).map (fun w => BitVec.ofNat 32 (w * 65536))
  else (elements 4 n l).map (BitVec.ofNat 32)

/-- INT4 codes packed two to a byte (R98). -/
def packNibbles : List Nat → List Byte
  | a :: b :: l => BitVec.ofNat 8 (a % 16 + b % 16 * 16) :: packNibbles l
  | [a] => [BitVec.ofNat 8 (a % 16)]
  | [] => []

/-- A value's code in a format (R123). -/
def vecCode (fmt : Nat) (x : U32) : Conversion :=
  if fmt = 0 then convertInt 4 7 x
  else if fmt = 1 then convertInt 8 127 x
  else if fmt = 2 then convertFp e4m3 x
  else if fmt = 3 then convertFp e5m2 x
  else if fmt = 4 then convertFp bf16 x
  else ⟨if (f32 x).isNan then nanF32.toNat else x.toNat, false, (f32 x).isNan, (f32 x).isInf⟩

/-- Codes as bytes of a format. -/
def vecPack (fmt : Nat) (codes : List Nat) : List Byte :=
  if fmt = 0 then packNibbles codes
  else codes.flatMap (leBytes (if fmt ≤ 3 then 1 else if fmt = 4 then 2 else 4))

/-! ### Elementwise operations (R175, R176) -/

/-- A value that an operation gives: a NaN in its canonical form (R99). -/
def canonical (a : U32) : U32 := if (f32 a).isNan then nanF32 else a

/-- The lesser or greater of two elements. -/
def vecOrder (vop : Nat) (a b : U32) : U32 :=
  if (f32 a).isNan || (f32 b).isNan || ((f32 a).isZero && (f32 b).isZero && a != b) then
    canonical (if Config.vectorOrder vop a b then a else b)
  else if vop = 4 then (if (f32 b).lt (f32 a) then b else a) else (if (f32 a).lt (f32 b) then b else a)

/-- An element's magnitude, and its negation; a NaN gives the canonical NaN (R99). -/
def vecAbs (a : U32) : U32 := if (f32 a).isNan then nanF32 else a &&& 0x7FFFFFFF
def vecNeg (a : U32) : U32 := if (f32 a).isNan then nanF32 else a ^^^ 0x80000000

/-- The FP32 operations of VOP 0x00 to 0x07 and 0x0E to 0x16, on an element of each operand and of DST. -/
def vecFloat (vop : Nat) (a b dst : U32) : U32 :=
  match vop with
  | 0x00 => fAdd a b | 0x01 => fSub a b | 0x02 => fMul a b | 0x03 => fFma a b dst
  | 0x04 => vecOrder 4 a b | 0x05 => vecOrder 5 a b | 0x06 => vecAbs a | 0x07 => vecNeg a
  | 0x0E => fRecip a | 0x0F => fDiv a b | 0x10 => fSqrt a | 0x11 => fRsqrt a
  | 0x12 => fExp a | 0x13 => fLog a | 0x14 => fTanh a | 0x15 => fSin a | _ => fCos a

/-- The INT32 operations: VOP 0x0A to 0x0D add, and, or, shift (readings: log entry 36). -/
def vecWordOp (vop : Nat) (a b : U32) : U32 :=
  match vop with
  | 0x0A => a + b
  | 0x0B => a &&& b
  | 0x0C => a ||| b
  | _ => Config.vectorShift a b

/-- Whether an operation takes and gives 32-bit integers whatever the format codes. -/
def isWordOp (vop : Nat) : Bool := decide (0x0A ≤ vop) && decide (vop ≤ 0x0D)

/-! ### Reductions (R177) -/

/-- The elements of a lane, in increasing index. -/
def laneOf {α : Type} (l : List α) (lane : Nat) : List α :=
  (l.zipIdx.filter (fun e => e.2 % 64 == lane)).map (·.1)

/-- A list combined from its first element on. -/
def foldFirst {α : Type} (f : α → α → α) : List α → Option α
  | [] => none
  | a :: l => some (l.foldl f a)

/-- The pairwise tree of R167 with any operation. -/
def pairTree {α : Type} (f : α → α → α) : Nat → List α → Option α
  | 0, l => l.head?
  | n + 1, l =>
    let rec level : List α → List α
      | a :: b :: t => f a b :: level t
      | t => t
    pairTree f n (level l)

/-- A reduction: lanes first, then the tree by lane index. -/
def reduce {α : Type} (f : α → α → α) (l : List α) : Option α :=
  pairTree f 7 ((List.range 64).filterMap (fun k => foldFirst f (laneOf l k)))

/-- Whether element b stands above element a in argmax: a NaN above every number (R177). -/
def aboveMax (a b : U32) : Bool := (!(f32 a).isNan && (f32 b).isNan) || (f32 a).lt (f32 b)

/-- Whether two elements are equal maxima. -/
def sameMax (a b : U32) : Bool := ((f32 a).isNan && (f32 b).isNan) || (f32 a).eqv (f32 b)

/-- The better of two indexed elements: the greater, or the lower index of equals. -/
def betterMax (a b : U32 × Nat) : U32 × Nat :=
  if aboveMax a.1 b.1 || (sameMax a.1 b.1 && decide (b.2 < a.2)) then b else a

/-- The 32-bit word a reduction gives: the value, every sum flushed in compatibility mode (R176), or the index of argmax. -/
def vecReduce (compat : Bool) (vop : Nat) (l : List U32) : Option U32 :=
  if vop = 0x18 then reduce (fun a b => keep compat (fAdd a b)) l
  else if vop = 0x19 then reduce (vecOrder 5) l
  else if vop = 0x1A then reduce (vecOrder 4) l
  else (reduce betterMax l.zipIdx).map (fun e => BitVec.ofNat 32 e.2)

/-! ### Conversion (R103, R165, R175) -/

/-- Element values of a conversion's source: integer codes count at the scale that SRC_B holds. -/
def convertSource (fmt : Nat) (scale : U32) (l : List U32) : List U32 :=
  if fmt ≤ 1 then l.map (fun x => fMul x scale) else l

/-- The codes of a conversion's result, and the scale that goes with them: for INT4 and INT8 the quantiser's (R103) or the static one,
for FP8 E4M3 the static one (R165). -/
def convertTarget (fmt : Nat) (static : Bool) (sout : U32) (l : List U32) : List Nat × Option U32 :=
  let scaled := l.map (fun x => (vecCode fmt (fMul x (fRecip sout))).code)
  if fmt ≤ 1 then
    if static then (scaled, some sout)
    else
      let qmax := if fmt = 0 then 7 else 127
      let amax := amaxOf l
      (l.map (fun x => toTwos (if fmt = 0 then 4 else 8) (quantCode qmax amax x)), some (scaleOf qmax amax))
  else if fmt = 2 then (scaled, none)
  else (l.map (fun x => (vecCode fmt x).code), none)

/-! ### One operation -/

/-- Bytes written into a core's store: what lies past its end is not written (R31). -/
def Part.coreWrite (p : Part) (c a : Nat) (data : List Byte) (poison : List Nat) : Part :=
  p.onMem (·.write a (data.take (storeBase c + 0x600000 - a)) poison)

/-- The granules of an output whose elements come from poisoned operands: sources as address and bytes, cut in as many
equal parts as the output has granules (R403). -/
def spreadPoison (m : Memory) (c out outBytes : Nat) (sources : List (Nat × Nat)) : List Nat :=
  (granules out outBytes).filter (fun g =>
    let lo := Nat.max (64 * g) out - out
    let hi := Nat.min (64 * g + 64) (out + outBytes) - out
    sources.any (fun s => coreOperandBad m c (s.1 + lo * s.2 / outBytes) (ceilDiv (hi * s.2) outBytes - lo * s.2 / outBytes)))

/-- The operands that an operation reads: SRC_A, SRC_B where it has two, DST where it reads it. -/
def vecSources (c : Nat) (v : VecWord) : List (Nat × Nat) :=
  let n := 64 * v.count
  let b := if isWordOp v.vop then 4 * n else vecBytes v.fmtIn n
  let two := decide (v.vop ≤ 5) || v.vop == 8 || v.vop == 9 || isWordOp v.vop || v.vop == 0x0F
  let three := v.vop == 3 || v.vop == 9
  [(storeAddr c v.srcA, b)] ++ (if two then [(storeAddr c v.srcB, b)] else []) ++
  (if three then [(storeAddr c v.dst, vecBytes v.fmtOut n)] else [])

/-- The elements of compare and select (R175): compare gives mask elements of FMT_OUT; select takes its mask from DST, in FMT_OUT. -/
def vecMask (vop fmtOut : Nat) (a b : U32) (mask : Nat) : Nat :=
  if vop = 8 then Config.vectorCompare fmtOut a b
  else (vecCode fmtOut (if Config.maskSet fmtOut mask then a else b)).code

/-- The codes of the elements of a format, as they stand. -/
def vecCodes (fmt n : Nat) (l : List Byte) : List Nat :=
  if fmt = 0 then nibbles l else if fmt ≤ 3 then l.map (·.toNat) else elements (if fmt = 4 then 2 else 4) n l

/-- The output of an operation, and whether it is one whole for poison. -/
def Part.vecOutput (p : Part) (c : Nat) (v : VecWord) : List Byte × Bool :=
  let n := 64 * v.count
  let flush := keep p.dev.compat
  let fmtIn := if isWordOp v.vop then 5 else v.fmtIn
  let fmtOut := if isWordOp v.vop then 5 else v.fmtOut
  let bytes : Nat → Nat → List Byte := fun fmt g => p.mem.read (storeAddr c g) (vecBytes fmt n)
  let a := vecDecode fmtIn n (bytes fmtIn v.srcA)
  let b := vecDecode fmtIn n (bytes fmtIn v.srcB)
  if v.vop = 0x17 then
    let s0 := BitVec.ofNat 32 (p.mem.nat (storeAddr c v.srcB) 4)
    let s1 := BitVec.ofNat 32 (p.mem.nat (storeAddr c v.srcB + (if fmtIn ≤ 1 then 4 else 0)) 4)
    let r := convertTarget fmtOut (Config.staticScale c v.dst) s1 ((convertSource fmtIn s0 (a.map flush)).map flush)
    let body := vecPack fmtOut r.1
    (match r.2 with
      | some s => padTo (granuleUp body.length) 0 body ++ leBytes 4 s.toNat ++ leBytes 4 0
      | none => body, false)
  else if 0x18 ≤ v.vop then
    (match vecReduce p.dev.compat v.vop (a.map flush) with
      | some w =>
        let body := if v.vop = 0x1B then leBytes 4 w.toNat else vecPack fmtOut [(vecCode fmtOut (flush w)).code]
        body ++ (List.range (8 - body.length)).map (Config.reducePad c v.dst)
      | none => [], true)
  else if isWordOp v.vop then (vecPack 5 ((a.zip b).map (fun e => (vecWordOp v.vop e.1 e.2).toNat)), false)
  else if v.vop = 8 ∨ v.vop = 9 then
    (vecPack fmtOut (((a.zip b).zip (vecCodes fmtOut n (bytes fmtOut v.dst))).map (fun e =>
      vecMask v.vop fmtOut (flush e.1.1) (flush e.1.2) e.2)), false)
  else
    (vecPack fmtOut (((a.zip b).zip (vecDecode fmtOut n (bytes fmtOut v.dst))).map (fun e =>
      (vecCode fmtOut (flush (vecFloat v.vop (flush e.1.1) (flush e.1.2) (flush e.2)))).code)), false)

/-- The scales in SRC_B that a conversion reads, as a number of bytes. -/
def convertScales (c : Nat) (v : VecWord) : Nat :=
  if v.vop = 0x17 then
    (if v.fmtIn ≤ 1 then 4 else 0) + (if v.fmtOut = 2 ∨ (v.fmtOut ≤ 1 ∧ Config.staticScale c v.dst = true) then 4 else 0)
  else 0

/-- An operation carried out: its operands are read, and its output is written with the marks of R403. -/
def Part.vecRun (p : Part) (c : Nat) (v : VecWord) : Part :=
  let sources := vecSources c v
  let scales := convertScales c v
  let p := (sources.foldl (fun p s => p.touch s.1 s.2) p).touch (storeAddr c v.srcB) scales
  let out := p.vecOutput c v
  let dst := storeAddr c v.dst
  let bad :=
    if out.2 then (if sources.any (fun s => coreOperandBad p.mem c s.1 s.2) then granules dst out.1.length else [])
    else if scales != 0 && coreOperandBad p.mem c (storeAddr c v.srcB) scales then granules dst out.1.length
    else spreadPoison p.mem c dst out.1.length sources
  p.coreWrite c dst out.1 bad

/-! ### The queue (R191) -/

/-- A queue that takes no further word: as many wait as it is deep, beside the one in service. -/
def queueFull (depth : Nat) (q : List Queued) : Bool := decide (depth + 1 ≤ q.length)

/-- VEC (R191): the word enters the queue or is dropped. -/
def opVecWord (c : Nat) (d : Device) : Device :=
  match d.next c (isOp opVec) with
  | none => d
  | some (i, w, tick, d) =>
    if queueFull 4 (d.core c).vecQ then d.dropWord c i tick w
    else d.onCore c (fun x => { x with vecQ := x.vecQ ++ [⟨i, w, false⟩] })

/-- The word at the head of a queue, when it has not begun. -/
def headWaiting : List Queued → Option Queued
  | [] => none
  | q :: _ => if q.ran then none else some q

/-- The queue with its head begun. -/
def headRan : List Queued → List Queued
  | [] => []
  | q :: l => { q with ran := true } :: l

/-- One vector operation: the head of the queue when it has this VOP. -/
def opVector (c vop : Nat) (p : Part) : Part :=
  match headWaiting (p.dev.core c).vecQ with
  | none => p
  | some q =>
    let v := vecWord q.word
    if v.vop = vop then
      (p.vecRun c v).onDev (fun d => d.onCore c (fun x => { x with vecQ := headRan x.vecQ }))
    else p

/-- VEC_DONE (R191): the operation in service has completed. -/
def opVecDone (c : Nat) (d : Device) : Device :=
  match (d.core c).vecQ with
  | q :: l => if q.ran then d.onCore c (fun x => { x with vecQ := l }) else d
  | [] => d

def execVec (c : Core) (s : State) : Host.Outcome State Fault Refusal := s.onDev (opVecWord c.val)
def execVecAdd (c : Core) (s : State) : Host.Outcome State Fault Refusal := s.onPart (opVector c.val 0x00)
def execVecSub (c : Core) (s : State) : Host.Outcome State Fault Refusal := s.onPart (opVector c.val 0x01)
def execVecMul (c : Core) (s : State) : Host.Outcome State Fault Refusal := s.onPart (opVector c.val 0x02)
def execVecFma (c : Core) (s : State) : Host.Outcome State Fault Refusal := s.onPart (opVector c.val 0x03)
def execVecMin (c : Core) (s : State) : Host.Outcome State Fault Refusal := s.onPart (opVector c.val 0x04)
def execVecMax (c : Core) (s : State) : Host.Outcome State Fault Refusal := s.onPart (opVector c.val 0x05)
def execVecAbs (c : Core) (s : State) : Host.Outcome State Fault Refusal := s.onPart (opVector c.val 0x06)
def execVecNeg (c : Core) (s : State) : Host.Outcome State Fault Refusal := s.onPart (opVector c.val 0x07)
def execVecCompare (c : Core) (s : State) : Host.Outcome State Fault Refusal := s.onPart (opVector c.val 0x08)
def execVecSelect (c : Core) (s : State) : Host.Outcome State Fault Refusal := s.onPart (opVector c.val 0x09)
def execVecInt32Add (c : Core) (s : State) : Host.Outcome State Fault Refusal := s.onPart (opVector c.val 0x0A)
def execVecAnd (c : Core) (s : State) : Host.Outcome State Fault Refusal := s.onPart (opVector c.val 0x0B)
def execVecOr (c : Core) (s : State) : Host.Outcome State Fault Refusal := s.onPart (opVector c.val 0x0C)
def execVecShift (c : Core) (s : State) : Host.Outcome State Fault Refusal := s.onPart (opVector c.val 0x0D)
def execVecRecip (c : Core) (s : State) : Host.Outcome State Fault Refusal := s.onPart (opVector c.val 0x0E)
def execVecDiv (c : Core) (s : State) : Host.Outcome State Fault Refusal := s.onPart (opVector c.val 0x0F)
def execVecSqrt (c : Core) (s : State) : Host.Outcome State Fault Refusal := s.onPart (opVector c.val 0x10)
def execVecRsqrt (c : Core) (s : State) : Host.Outcome State Fault Refusal := s.onPart (opVector c.val 0x11)
def execVecExp (c : Core) (s : State) : Host.Outcome State Fault Refusal := s.onPart (opVector c.val 0x12)
def execVecLog (c : Core) (s : State) : Host.Outcome State Fault Refusal := s.onPart (opVector c.val 0x13)
def execVecTanh (c : Core) (s : State) : Host.Outcome State Fault Refusal := s.onPart (opVector c.val 0x14)
def execVecSin (c : Core) (s : State) : Host.Outcome State Fault Refusal := s.onPart (opVector c.val 0x15)
def execVecCos (c : Core) (s : State) : Host.Outcome State Fault Refusal := s.onPart (opVector c.val 0x16)
def execVecConvert (c : Core) (s : State) : Host.Outcome State Fault Refusal := s.onPart (opVector c.val 0x17)
def execVecSum (c : Core) (s : State) : Host.Outcome State Fault Refusal := s.onPart (opVector c.val 0x18)
def execVecReduceMax (c : Core) (s : State) : Host.Outcome State Fault Refusal := s.onPart (opVector c.val 0x19)
def execVecReduceMin (c : Core) (s : State) : Host.Outcome State Fault Refusal := s.onPart (opVector c.val 0x1A)
def execVecArgmax (c : Core) (s : State) : Host.Outcome State Fault Refusal := s.onPart (opVector c.val 0x1B)
def execVecDone (c : Core) (s : State) : Host.Outcome State Fault Refusal := s.onDev (opVecDone c.val)

end Sys2Proof.Machine
end

