-- ==== Sys2Proof/Machine/Fuller.lean ====
section
/-! DEFINITION. The fuller: outlier channels, adapters, rungs 3 and 4 of the format ladder, and gradients (R130, R131,
R135, R157 to R162, R170 to R173, R188, R191, R615). -/

namespace Sys2Proof.Machine

/-! ### A tile's words and inputs -/

/-- The PASS words of a tile in join and slot order. -/
def Device.wordsOf (d : Device) (c e : Nat) (t : Tile) : List (Nat × PassWord) :=
  sortByKey (fun w => 4 * w.2.join + w.2.slot) ((d.core c).tileWords (d.cls c) t.openIdx e)

/-- The wide values of a word's input row: FP32 bits, or the stored code times s_x (R128, R131, R158). -/
def Tile.wideValues (t : Tile) (m : Memory) (c : Nat) (p : PassWord) (tok : Nat) : List U32 :=
  if p.wide then wideRow m c p tok
  else (storedRow m c p tok).map (fun x => fMul (f32OfInt x) (t.sx.getD tok 0))

/-- The tokens of a tile that an operand read whole poisons: all of them when it is poisoned (R403). -/
def badTokens (m : Memory) (c a n shape : Nat) : List Nat :=
  if coreOperandBad m c a n then List.range (2 ^ shape) else []

/-- A tile whose values were computed from operands of which some tokens' were poisoned. -/
def Device.consumeTokens (d : Device) (c e : Nat) (toks : List Nat) : Device := d.onTile c e (fun t => t.consume toks)

/-- BF16 elements as FP32 bits. -/
def readBf16 (m : Memory) (a n : Nat) : List U32 := (elements 2 n (m.read a (2 * n))).map (fun w => BitVec.ofNat 32 (w * 65536))
/-- FP32 elements. -/
def readF32 (m : Memory) (a n : Nat) : List U32 := (elements 4 n (m.read a (4 * n))).map (BitVec.ofNat 32)
/-- An FP32 value rounded to BF16, as FP32 bits. -/
def toBf16 (x : U32) : U32 := BitVec.ofNat 32 ((convertFp bf16 x).code * 65536)

/-- A sum of products in increasing index, in FP32. -/
def dotF32 (a b : List U32) : U32 := (a.zip b).foldl (fun s e => fAdd s (fMul e.1 e.2)) 0

/-! ### Outlier channels (R157, R158) -/

/-- An OUTLIER section as it stands in core store (R354): its rows, the weights of a row as FP32, the scales when the
weights are INT8, and its bytes. -/
structure OutlierSection where
  rows : List Nat
  weights : List (List U32)
  scales : Option (List U32)
  bytes : Nat
  deriving DecidableEq, Repr

def outlierSection (m : Memory) (a : Nat) : OutlierSection :=
  let n := m.nat a 1
  let int8 := m.nat (a + 1) 1 == 0
  let body := a + 0x40 + granuleUp (2 * n)
  let first := if int8 then body + 2048 else body
  { rows := (elements 2 n (m.read (a + 0x40) (2 * n)))
    weights := (List.range n).map (fun k =>
      if int8 then (m.read (first + 512 * k) 512).map (fun b => f32OfInt (signed 8 b.toNat)) else readBf16 m (first + 1024 * k) 512)
    scales := if int8 then some (readF32 m body 512) else none
    bytes := granuleUp (first - a + n * (if int8 then 512 else 1024)) }

/-- The side sums of one section for a token's values: products in increasing row index, times s_o (R158). -/
def OutlierSection.sums (s : OutlierSection) (x : List U32) : List U32 :=
  let rows := sortByKey (fun e => e.1) (s.rows.zip s.weights)
  let sums := rows.foldl (fun acc e => (acc.zip e.2).map (fun q => fAdd q.1 (fMul (x.getD e.1 0) q.2))) (List.replicate 512 0)
  match s.scales with
  | some so => (sums.zip so).map (fun q => fMul q.1 q.2)
  | none => sums

/-- The sections of a tile's words from an address on, one after another (R188). -/
def sectionsFrom (m : Memory) : Nat → List (Nat × PassWord) → List (PassWord × OutlierSection × Nat)
  | _, [] => []
  | a, w :: l =>
    let s := outlierSection m a
    (w.2, s, a) :: sectionsFrom m (a + s.bytes) l

/-- The core with values added to a tile's side region, for a token. -/
def CoreState.addSide (x : CoreState) (t : Tile) (tok : Nat) (vals : List U32) : CoreState :=
  { x with acc := addWords x.acc (t.sideWord tok 0) vals }

/-- The outlier channels of a tile added (R157, R158) (readings: log entry 35). -/
def Device.outliers (d : Device) (m : Memory) (c e : Nat) (t : Tile) (src : Nat) : Device :=
  (sectionsFrom m (storeAddr c src) (d.wordsOf c e t)).foldl (fun d s =>
    let d := (List.range (2 ^ t.shape)).foldl (fun d tok =>
      d.onCore c (fun x => x.addSide t tok (s.2.1.sums (t.wideValues m c s.1 tok)))) d
    d.consumeTokens c e (badTokens m c s.2.2 s.2.1.bytes t.shape ++ poisonedTokens m c s.1)) d

/-! ### Adapters (R160 to R162, R328) -/

/-- The entry of the heat's adapter list that a word selects (R322, R328): its address and the slot it holds. -/
def Device.adapterPlace (d : Device) (c aslot : Nat) : Nat :=
  let page := pageSrv (c / 128)
  d.get64 (page + 0x104) % 2 ^ 40 + bits (d.get (page + 0x164)) 0 0 * 0x21000 + 0x20000 + 2 * (aslot % 16)

def Device.adapterEntry (d : Device) (m : Memory) (c aslot : Nat) : Nat := m.nat (d.adapterPlace c aslot) 2

/-- The tokens of a tile that are bound to an adapter slot, in increasing index (R160, R162). -/
def Device.boundTokens (d : Device) (c : Nat) (t : Tile) (slot : Nat) : List Nat :=
  (List.range (2 ^ t.shape)).filter (fun tok => (d.tokenUse c t.tileId tok).any (fun q => q.adp == slot))

/-- ADAPT_A on a core leaves a partial u in FP32, which the plan's vector words combine and round (R161, log entry 67). -/
def Device.partialU (d : Device) (c g : Nat) : Bool := Config.partialU (d.get64 (pageHeat + 0x104)) c g

/-- A token's row of u in core store: COUNT values of 2 or 4 bytes from a granule on. -/
def uBytes (count : Nat) (whole : Bool) : Nat := granuleUp ((if whole then 2 else 4) * count)
def uRow (c g count tok : Nat) : Nat := storeAddr c g + tok * uBytes count true

/-- u = A·x in FP32 (R160): A is COUNT rows over the inputs of the tile's words, BF16. -/
def Device.adapterU (d : Device) (m : Memory) (c e : Nat) (t : Tile) (f : FullWord) (tok : Nat) : List U32 :=
  let x := (d.wordsOf c e t).flatMap (fun w => t.wideValues m c w.2 tok)
  (List.range f.count).map (fun i => dotF32 (readBf16 m (storeAddr c f.srcA + 2 * x.length * i) x.length) x)

/-- FP32 bits of BF16 values as stored bytes. -/
def bf16Bytes (l : List U32) : List Byte := l.flatMap (fun x => leBytes 2 (x.toNat / 65536))

/-- A token's row of u as it is written: rounded to BF16 when u is whole (R160), in FP32 when it is a partial (R161). -/
def uData (count : Nat) (whole : Bool) (u : List U32) : List Byte :=
  padTo (uBytes count whole) 0 (if whole then bf16Bytes (u.map toBf16) else u.flatMap (fun x => leBytes 4 x.toNat))

/-- FULL_ADAPT_A on a tile (readings: log entry 35). -/
def Part.adaptA (p : Part) (c e : Nat) (t : Tile) (f : FullWord) : Part :=
  let slot := p.dev.adapterEntry p.mem c f.aslot
  if slot = 0xFFFF then p
  else
    let whole := !(p.dev.partialU c f.dst)
    let bad := p.mem.poisoned (storeAddr c f.srcA) (2 * f.count * 1024 * (p.dev.wordsOf c e t).length)
    (p.dev.boundTokens c t slot).foldl (fun q tok =>
      let row := uData f.count whole (p.dev.adapterU p.mem c e t f tok)
      let hurt := bad || (p.dev.wordsOf c e t).any (fun w => (poisonedTokens p.mem c w.2).contains tok)
      let a := storeAddr c f.dst + tok * uBytes f.count whole
      q.coreWrite c a row (if hurt then granules a row.length else [])) p

/-- The adapter term of one token: B·u over 512 columns (R160). -/
def adapterTerm (m : Memory) (c : Nat) (f : FullWord) (tok : Nat) : List U32 :=
  let u := readBf16 m (uRow c f.srcB f.count tok) f.count
  (List.range 512).map (fun j => dotF32 (readBf16 m (storeAddr c f.srcA + 2 * f.count * j) f.count) u)

/-- FULL_ADAPT_B on a tile (readings: log entry 35). -/
def Device.adaptB (d : Device) (m : Memory) (c e : Nat) (t : Tile) (f : FullWord) : Device :=
  let slot := d.adapterEntry m c f.aslot
  if slot = 0xFFFF then d
  else
    let toks := d.boundTokens c t slot
    let d := toks.foldl (fun d tok => d.onCore c (fun x => x.addSide t tok (adapterTerm m c f tok))) d
    let hurt := toks.filter (fun tok => coreOperandBad m c (uRow c f.srcB f.count tok) (2 * f.count) ||
      coreOperandBad m c (storeAddr c f.srcA) (1024 * f.count))
    (d.consumeTokens c e hurt).count (pageAcc c + 0x11C) toks.length

/-! ### Rungs 3 and 4 (R130, R131, R135, R159) -/

/-- The sections of a kind for every word of a tile; none when one is missing (R357) (readings: log entry 35). -/
def Device.tileSections (d : Device) (m : Memory) (kind c : Nat) (ws : List (Nat × PassWord)) : Option (List (PassWord × Nat)) :=
  ws.foldr (fun w acc => match acc, d.section_ m kind c w.2.anvil with
    | some l, some a => some ((w.2, a) :: l)
    | _, _ => none) (some [])

/-- The joins of a list of words, in order. -/
def joinsOf (ws : List (Nat × PassWord)) : List Nat := dedup (ws.map (·.2.join))

/-- INT8 codes of a token for a word: the quantiser's with q_max 127, or the stored ones (R159). -/
def Device.codes8 (d : Device) (m : Memory) (c : Nat) (t : Tile) (p : PassWord) (tok : Nat) : List Int :=
  maskOut (d.passMask c p) 0
    (if p.wide then (wideRow m c p tok).map (quantCode 127 (t.amax.getD tok 0)) else storedRow m c p tok)

/-- The integer sums of a word's codes with its shadow weights (R159). -/
def shadowSums (m : Memory) (a : Nat) (codes : List Int) : List Int :=
  (codes.zipIdx).foldl (fun acc e =>
    if e.1 = 0 then acc
    else addLists acc ((m.read (a + 512 * e.2) 512).map (fun b => e.1 * signed 8 b.toNat))) (List.replicate 512 0)

/-- The main region of a token at rung 3: each join group summed in INT32 and promoted in join order. -/
def Device.rung3Row (d : Device) (m : Memory) (c : Nat) (t : Tile) (ws : List (PassWord × Nat)) (tok : Nat) : List U32 :=
  (dedup (ws.map (·.1.join))).foldl (fun acc k =>
    let sum := (ws.filter (fun w => w.1.join == k)).foldl
      (fun s w => addLists s (shadowSums m w.2 (d.codes8 m c t w.1 tok))) (List.replicate 512 0)
    (acc.zip sum).map (fun e => fAdd e.1 (f32OfInt (signed 32 (toTwos 32 e.2))))) (List.replicate 512 0)

/-- The BX-2 tree over up to 16 products (R135). -/
def bx2Tree : Nat → List U32 → List U32
  | 0, l => l
  | n + 1, l =>
    let rec pairs : List U32 → List U32
      | a :: b :: t => flushF32 (fAdd a b) :: pairs t
      | t => t
    bx2Tree n (pairs l)

/-- The BX-2 accumulation of an output, chunk after chunk of 16 (R135). -/
def bx2Sum (xw : List (U32 × U32)) : U32 :=
  (chunks 16 (ceilDiv xw.length 16) xw).foldl (fun acc ch =>
    let p := padTo 16 0 (ch.map (fun e => flushF32 (fMul (flushF32 e.1) (flushF32 e.2))))
    flushF32 (fAdd acc ((bx2Tree 4 p).headD 0))) 0

/-- A token's BF16 inputs at rung 4, each with its row's weights address: over the rows that are not masked (R159), over every
row for a plan in compatibility mode (R137). A masked row is left out and the later ones move up in the chunks of 16; an input
in another format is rounded to FP32 and then to BF16 (readings: log entry 66). -/
def Device.rung4Inputs (d : Device) (m : Memory) (c : Nat) (t : Tile) (ws : List (PassWord × Nat)) (tok : Nat) :
    List (U32 × Nat) :=
  ws.flatMap (fun w =>
    let mask := d.passMask c w.1
    (((t.wideValues m c w.1 tok).zipIdx).filter (fun e => d.compat || !(bit mask e.2))).map (fun e => (toBf16 e.1, w.2 + 1024 * e.2)))

/-- The main region of a token at rung 4. -/
def Device.rung4Row (d : Device) (m : Memory) (c : Nat) (t : Tile) (ws : List (PassWord × Nat)) (tok : Nat) : List U32 :=
  let xs := d.rung4Inputs m c t ws tok
  (List.range 512).map (fun j => bx2Sum (xs.map (fun e => (e.1, BitVec.ofNat 32 (m.nat (e.2 + 2 * j) 2 * 65536)))))

/-- The tokens that a rung's operands poison: all when a billet section is, else those of poisoned inputs (R403). -/
def rungBad (m : Memory) (c : Nat) (t : Tile) (bytes : Nat) (ws : List (PassWord × Nat)) : List Nat :=
  if ws.any (fun w => m.poisoned w.2 bytes) then List.range (2 ^ t.shape)
  else dedup (ws.flatMap (fun w => poisonedTokens m c w.1))

/-- A tile with its main region replaced by rows, and its scale pair (R159). -/
def Device.replaceMain (d : Device) (c e : Nat) (t : Tile) (rows : List (List U32)) (sx : List U32) (scol : ColScale) : Device :=
  d.onCore c (fun x =>
    { x.setTile e { t with sx := sx, scol := scol } with
      acc := (rows.zipIdx).foldl (fun a r => putWords a (t.mainWord r.2 0) r.1) x.acc })

/-- A tile recomputed at rung 3, where its layer offers it (readings: log entry 35). -/
def Device.rung3 (d : Device) (m : Memory) (c e : Nat) (t : Tile) : Option Device :=
  match d.tileSections m 5 c (d.wordsOf c e t) with
  | none => none
  | some ws =>
    let rows := (List.range (2 ^ t.shape)).map (d.rung3Row m c t ws)
    let sx := if 2 ≤ t.inFmt then t.amax.map (scaleOf 127) else t.sx
    let scol : ColScale := match ws.head? with
      | some w => .table (w.2 + 524288)
      | none => .one
    some ((d.replaceMain c e t rows sx scol).consumeTokens c e (rungBad m c t 526336 ws))

/-- A tile recomputed at rung 4, where its layer offers it (readings: log entry 35). -/
def Device.rung4 (d : Device) (m : Memory) (c e : Nat) (t : Tile) : Option Device :=
  match d.tileSections m 6 c (d.wordsOf c e t) with
  | none => none
  | some ws =>
    let rows := (List.range (2 ^ t.shape)).map (d.rung4Row m c t ws)
    some ((d.replaceMain c e t rows (List.replicate (2 ^ t.shape) oneF32) .one).consumeTokens c e (rungBad m c t 1048576 ws))

/-! ### Gradients (R170 to R173) -/

/-- A gradient row of 512 columns as FP32 (R173). -/
def gradRow (m : Memory) (c g shape tok : Nat) : List U32 :=
  let a := storeAddr c g
  if Config.gradIsInt8 c g then
    let s := BitVec.ofNat 32 (m.nat (a + granuleUp (512 * 2 ^ shape) + 4 * tok) 4)
    (m.read (a + 512 * tok) 512).map (fun b => fMul (f32OfInt (signed 8 b.toNat)) s)
  else (m.read (a + 512 * tok) 512).map (fun b => toF32 (e5m2.decode b.toNat))

/-- The bytes of a gradient tensor. -/
def gradBytes (c g shape : Nat) : Nat :=
  if Config.gradIsInt8 c g then granuleUp (512 * 2 ^ shape) + 4 * 2 ^ shape else 512 * 2 ^ shape

/-- g′ of a token: g × s_w / s_wmax (R170). -/
def gradPrep (g sw : List U32) : List U32 :=
  let top := sw.foldl maxF32 (sw.headD 0)
  (g.zip sw).map (fun e => fDiv (fMul e.1 e.2) top)

/-- FULL_GRAD_PREP (R170): the INT8 input block of a transposed pass, its scales behind it (readings: log entry 35). -/
def Part.gradPrepare (p : Part) (c : Nat) (f : FullWord) : Part :=
  let T := 2 ^ f.shape
  let sw := readF32 p.mem (storeAddr c f.srcB) 512
  let rows := (List.range T).map (fun tok => gradPrep (gradRow p.mem c f.srcA f.shape tok) sw)
  let amax := rows.map amaxOf
  let codes := (rows.zip amax).flatMap (fun e => e.1.map (fun x => BitVec.ofNat 8 (toTwos 8 (quantCode 127 e.2 x))))
  let scales := amax.flatMap (fun a => leBytes 4 (scaleOf 127 a).toNat)
  let body := padTo (granuleUp codes.length) 0 codes ++ padTo (granuleUp (4 * T)) 0 scales
  let a := storeAddr c f.dst
  let bad := coreOperandBad p.mem c (storeAddr c f.srcA) (gradBytes c f.srcA f.shape) ||
    coreOperandBad p.mem c (storeAddr c f.srcB) 2048
  p.coreWrite c a body (if bad then granules a body.length else [])

/-- The core with values added to rows of a token's main region. -/
def CoreState.addRows (x : CoreState) (t : Tile) (tok : Nat) (rows : List (Nat × U32)) : CoreState :=
  { x with acc := rows.foldl (fun a r => smapSet a (t.mainWord tok r.1) (fAdd (smapGet a 0 (t.mainWord tok r.1)) r.2)) x.acc }

/-- The core with values added to a token's main region. -/
def CoreState.addMain (x : CoreState) (t : Tile) (tok : Nat) (vals : List U32) : CoreState :=
  { x with acc := addWords x.acc (t.mainWord tok 0) vals }

/-- FULL_GRAD_ROWS (R172): the rows of the row zero mask, in which no row result of an anvil is promoted, take the outlier weights'
sums: each word those over the columns of its section (readings: log entry 35). -/
def Device.gradRows (d : Device) (m : Memory) (c e : Nat) (t : Tile) (f : FullWord) : Device :=
  let s := outlierSection m (storeAddr c f.srcA)
  let weight : List U32 → List U32 := fun w => match s.scales with
    | some so => (w.zip so).map (fun q => fMul q.1 q.2)
    | none => w
  let d := (List.range (2 ^ t.shape)).foldl (fun d tok =>
    let g := gradRow m c f.srcB t.shape tok
    d.onCore c (fun x => x.addRows t tok ((s.rows.zip s.weights).map (fun r => (r.1 % 1024, dotF32 (weight r.2) g))))) d
  d.consumeTokens c e (badTokens m c (storeAddr c f.srcA) s.bytes t.shape ++
    badTokens m c (storeAddr c f.srcB) (gradBytes c f.srcB t.shape) t.shape)

/-- The operands of FULL_GRAD_ADAPT in core store: at SRC_A, B (512 × COUNT) and then A (COUNT × 1,024), BF16; at
SRC_B, the gradient tensor g in its stored format (R173), and behind it rows of u and of x, BF16, each kind after the other. -/
structure GradOperands where
  b : Nat
  a : Nat
  u : Nat
  x : Nat
  stop : Nat
  deriving DecidableEq, Repr

def gradOperands (c : Nat) (f : FullWord) (shape : Nat) : GradOperands :=
  let T := 2 ^ shape
  let b := storeAddr c f.srcA
  let u := storeAddr c f.srcB + granuleUp (gradBytes c f.srcB shape)
  let x := u + T * granuleUp (2 * f.count)
  { b := b, a := b + 1024 * f.count, u := u, x := x, stop := x + 2048 * T }

/-- g of a token as the products of R173 take it: rounded to BF16. -/
def gradG (m : Memory) (c : Nat) (f : FullWord) (shape tok : Nat) : List U32 := (gradRow m c f.srcB shape tok).map toBf16

/-- du of a token: Bᵀ·g, rounded to BF16 for the products that follow (R173). -/
def gradU (m : Memory) (f : FullWord) (o : GradOperands) (g : List U32) : List U32 :=
  (List.range f.count).map (fun i =>
    toBf16 (dotF32 ((List.range 512).map (fun j => BitVec.ofNat 32 (m.nat (o.b + 2 * (f.count * j + i)) 2 * 65536))) g))

/-- A sum over tokens of an outer product's element, in increasing token index (R173). -/
def outerSum (T : Nat) (a b : Nat → U32) : U32 := (List.range T).foldl (fun s tok => fAdd s (fMul (a tok) (b tok))) 0

/-- FULL_GRAD_ADAPT (R173): dB and dA to DST in FP32, and Aᵀ·du added to the base dx of the tile (readings: log entry 35). -/
def Part.gradAdapt (p : Part) (c e : Nat) (t : Tile) (f : FullWord) : Part :=
  if p.dev.adapterEntry p.mem c f.aslot = 0xFFFF then p
  else
    let m := p.mem
    let T := 2 ^ f.shape
    let o := gradOperands c f f.shape
    let bf : Nat → U32 := fun a => BitVec.ofNat 32 (m.nat a 2 * 65536)
    let g := (List.range T).map (gradG m c f f.shape)
    let du := g.map (gradU m f o)
    let dB := (List.range 512).flatMap (fun j => (List.range f.count).map (fun i =>
      outerSum T (fun tok => (g.getD tok []).getD j 0) (fun tok => bf (o.u + tok * granuleUp (2 * f.count) + 2 * i))))
    let dA := (List.range f.count).flatMap (fun i => (List.range 1024).map (fun k =>
      outerSum T (fun tok => (du.getD tok []).getD i 0) (fun tok => bf (o.x + 2048 * tok + 2 * k))))
    let body := (dB ++ dA).flatMap (fun w => leBytes 4 w.toNat)
    let bad := coreOperandBad m c (storeAddr c f.srcA) (3072 * f.count) ||
      coreOperandBad m c (storeAddr c f.srcB) (o.stop - storeAddr c f.srcB)
    let dst := storeAddr c f.dst
    let p := p.coreWrite c dst (padTo (granuleUp body.length) 0 body) (if bad then granules dst (granuleUp body.length) else [])
    let p := p.onDev (fun d => (List.range T).foldl (fun d tok =>
      d.onCore c (fun x => x.addMain t tok ((List.range 1024).map (fun k =>
        dotF32 ((List.range f.count).map (fun i => bf (o.a + 2048 * i + 2 * k))) (du.getD tok []))))) d)
    p.onDev (fun d => d.consumeTokens c e (if bad then List.range T else []))

/-! ### The queue and the operations (R191, R615) -/

/-- FULL (R191): the word enters the queue or is dropped. -/
def opFullWord (c : Nat) (d : Device) : Device :=
  match d.next c (isOp opFull) with
  | none => d
  | some (i, w, tick, d) =>
    if queueFull 4 (d.core c).fullQ then d.dropWord c i tick w
    else d.onCore c (fun x => { x with fullQ := x.fullQ ++ [⟨i, w, false⟩] })

/-- The device with the fuller's head word begun. -/
def Device.fullRan (d : Device) (c : Nat) : Device := d.onCore c (fun x => { x with fullQ := headRan x.fullQ })

/-- A FULL word on a tile that has no side region: nothing is added, every token is poisoned (R615). -/
def Device.noSide (d : Device) (c e : Nat) (t : Tile) : Device :=
  (d.onTile c e (·.spoilMarks)).refuseTile c t.tileId e t.region

/-- One fuller operation: the head of the queue when it has this SUB; a word that finds no tile writes into none
(R615) (readings: log entry 35). -/
def opFuller (c sub : Nat) (act : Part → Nat → Tile → FullWord → Part) (p : Part) : Part :=
  match headWaiting (p.dev.core c).fullQ with
  | none => p
  | some q =>
    let f := fullWord q.word
    if f.sub = sub then
      let p := match (p.dev.core c).tileShaped f.tile f.shape with
        | some t => act p f.tile t f
        | none => p.onDev (fun d => d.refuseTile c 0 f.tile 0)
      p.onDev (fun d => d.fullRan c)
    else p

/-- The operand reads of a tile's input blocks. -/
def Part.touchInputs (p : Part) (c e : Nat) (t : Tile) : Part :=
  (p.dev.wordsOf c e t).foldl (fun p w => p.touch (storeAddr c w.2.inAddr) (blockBytes w.2)) p

/-- The reads of the outlier sections of a tile's words: each section's head, and the section that it describes. -/
def Part.touchOutliers : Nat → List (Nat × PassWord) → Part → Part
  | _, [], p => p
  | a, _ :: l, p =>
    let p := p.touch a 64
    let n := (outlierSection p.mem a).bytes
    Part.touchOutliers (a + n) l (p.touch a n)

/-- The reads of the billet sections of a kind that a rung computes from. -/
def Part.touchBillet (p : Part) (kind bytes c e : Nat) (t : Tile) : Part :=
  ((p.dev.tileSections p.mem kind c (p.dev.wordsOf c e t)).getD []).foldl (fun p w => p.touch w.2 bytes) p

/-- FULL_OUTLIER. -/
def opFullOutlier (c : Nat) (p : Part) : Part :=
  opFuller c 0 (fun p e t f =>
    if t.hasSide then
      let p := Part.touchOutliers (storeAddr c f.srcA) (p.dev.wordsOf c e t) (p.touchInputs c e t)
      p.onDev (fun d => d.outliers p.mem c e t f.srcA)
    else p.onDev (fun d => d.noSide c e t)) p

/-- FULL_ADAPT_A. -/
def opFullAdaptA (c : Nat) (p : Part) : Part :=
  opFuller c 1 (fun p e t f =>
    let n := 2 * f.count * 1024 * (p.dev.wordsOf c e t).length
    let p := p.touch (p.dev.adapterPlace c f.aslot) 2
    ((p.touchInputs c e t).touch (storeAddr c f.srcA) n).adaptA c e t f) p

/-- FULL_ADAPT_B. -/
def opFullAdaptB (c : Nat) (p : Part) : Part :=
  opFuller c 2 (fun p e t f =>
    let p := p.touch (p.dev.adapterPlace c f.aslot) 2
    if t.hasSide then
      let p := (p.dev.boundTokens c t (p.dev.adapterEntry p.mem c f.aslot)).foldl (fun (p : Part) tok => p.touch (uRow c f.srcB f.count tok) (2 * f.count))
        (p.touch (storeAddr c f.srcA) (1024 * f.count))
      p.onDev (fun d => d.adaptB p.mem c e t f)
    else p.onDev (fun d => d.noSide c e t)) p

/-- FULL_RUNG3. A layer without the shadow offers no rung 3, and its tile stays as it is. -/
def opFullRung3 (c : Nat) (p : Part) : Part :=
  opFuller c 3 (fun p e t _ =>
    let p := (p.touchInputs c e t).touchBillet 5 526336 c e t
    p.onDev (fun d => (d.rung3 p.mem c e t).getD d)) p

/-- FULL_RUNG4. -/
def opFullRung4 (c : Nat) (p : Part) : Part :=
  opFuller c 4 (fun p e t _ =>
    let p := (p.touchInputs c e t).touchBillet 6 1048576 c e t
    p.onDev (fun d => (d.rung4 p.mem c e t).getD d)) p

/-- FULL_GRAD_PREP: its result stands at DST, so that it needs no tile and can prepare the pass that opens one (R170) (readings:
log entry 67). -/
def opFullGradPrep (c : Nat) (p : Part) : Part :=
  match headWaiting (p.dev.core c).fullQ with
  | none => p
  | some q =>
    let f := fullWord q.word
    if f.sub = 5 then
      (((p.touch (storeAddr c f.srcA) (gradBytes c f.srcA f.shape)).touch (storeAddr c f.srcB) 2048).gradPrepare c f).onDev
        (fun d => d.fullRan c)
    else p

/-- FULL_GRAD_ROWS, into a transposed tile. -/
def opFullGradRows (c : Nat) (p : Part) : Part :=
  opFuller c 6 (fun p e t f =>
    if t.transposed then
      let p := (p.touch (storeAddr c f.srcA) 64).touch (storeAddr c f.srcB) (gradBytes c f.srcB f.shape)
      let p := p.touch (storeAddr c f.srcA) (outlierSection p.mem (storeAddr c f.srcA)).bytes
      p.onDev (fun d => d.gradRows p.mem c e t f)
    else p) p

/-- FULL_GRAD_ADAPT, into a transposed tile. -/
def opFullGradAdapt (c : Nat) (p : Part) : Part :=
  opFuller c 7 (fun p e t f => if t.transposed then
      (((p.touch (p.dev.adapterPlace c f.aslot) 2).touch (storeAddr c f.srcA) (3072 * f.count)).touch (storeAddr c f.srcB)
        ((gradOperands c f f.shape).stop - storeAddr c f.srcB)).gradAdapt c e t f
    else p) p

/-- FULL_DONE (R191): the operation in service has completed. -/
def opFullDone (c : Nat) (d : Device) : Device :=
  match (d.core c).fullQ with
  | q :: l => if q.ran then d.onCore c (fun x => { x with fullQ := l }) else d
  | [] => d

def execFull (c : Core) (s : State) : Host.Outcome State Fault Refusal := s.onDev (opFullWord c.val)
def execFullOutlier (c : Core) (s : State) : Host.Outcome State Fault Refusal := s.onPart (opFullOutlier c.val)
def execFullAdaptA (c : Core) (s : State) : Host.Outcome State Fault Refusal := s.onPart (opFullAdaptA c.val)
def execFullAdaptB (c : Core) (s : State) : Host.Outcome State Fault Refusal := s.onPart (opFullAdaptB c.val)
def execFullRung3 (c : Core) (s : State) : Host.Outcome State Fault Refusal := s.onPart (opFullRung3 c.val)
def execFullRung4 (c : Core) (s : State) : Host.Outcome State Fault Refusal := s.onPart (opFullRung4 c.val)
def execFullGradPrep (c : Core) (s : State) : Host.Outcome State Fault Refusal := s.onPart (opFullGradPrep c.val)
def execFullGradRows (c : Core) (s : State) : Host.Outcome State Fault Refusal := s.onPart (opFullGradRows c.val)
def execFullGradAdapt (c : Core) (s : State) : Host.Outcome State Fault Refusal := s.onPart (opFullGradAdapt c.val)
def execFullDone (c : Core) (s : State) : Host.Outcome State Fault Refusal := s.onDev (opFullDone c.val)

end Sys2Proof.Machine
end

