-- ==== Sys2Proof/Machine/Reheat.lean ====
section
/-! DEFINITION. The reheat window: forms, costs, outlier splits, averaged reads and the outcome (R127 to R134, R148,
R156, R202 to R204). -/

namespace Sys2Proof.Machine

/-- A reheat form: a ladder rung, averaged reads, or an outlier split with its reads (R127). -/
inductive Form where
  | rung (k : Nat)
  | avg (n : Nat)
  | split (n : Nat)
  deriving DecidableEq, Repr

/-- The rung at which a tile was compiled (R130). -/
def Tile.rung (t : Tile) : Nat := if t.mode = 2 then 2 else 1

/-- The layers of a tile's words offer the rung of a kind of section (R357) (readings: log entry 35). -/
def Device.layersOffer (d : Device) (m : Memory) (kind c : Nat) (ws : List (Nat × PassWord)) : Bool :=
  let l := shardSections m d.billetBase
  (d.tileSections m kind c ws).isSome && ws.all (fun w => layerOffers l kind (layerOf l (64 * c + w.2.anvil)))

/-- The rungs available to a tile (R130, R357). -/
def Device.rungOpen (d : Device) (m : Memory) (c e : Nat) (t : Tile) (k : Nat) : Bool :=
  match k with
  | 2 => decide (2 ≤ t.inFmt)
  | 3 => d.layersOffer m 5 c (d.wordsOf c e t)
  | 4 => d.layersOffer m 6 c (d.wordsOf c e t)
  | _ => true

/-- The form of a due tile's reheat, none when it has no rung or no hold region (R127, R130) (readings: log entry 34). -/
def Device.formOf (d : Device) (m : Memory) (c e : Nat) (t : Tile) : Option Form :=
  let rt := t.thr
  match respOf rt t.chkN with
  | 0 => ([2, 3, 4].find? (fun k =>
      decide (t.rung < k) && decide (k ≤ bits rt 29 28 + 1) && d.rungOpen m c e t k)).map .rung
  | 1 => some (.split 1)
  | 2 => if t.hasHold then some (.avg 2) else none
  | 3 => if t.hasHold then some (.avg 4) else none
  | 4 => if t.hasHold then some (.split 2) else none
  | _ => none

/-- The cost of a form per join in pass units, at a level (R129). -/
def costPerJoin (level : Nat) : Form → Nat
  | .rung 3 => ceilDiv (33 * 180) (coreClock level)
  | .rung 4 => ceilDiv (66 * 180) (coreClock level)
  | .rung _ => 2
  | .avg n => n - 1
  | .split n => 2 * n

/-- The cost of a tile's reheat (R204) (readings: log entry 34). -/
def reheatCost (level joins shape : Nat) (split : Bool) (f : Form) : Nat :=
  let x := 2 ^ shape * joins * costPerJoin level f
  if split then ceilDiv (7 * x) 4 else x

/-! ### Reads on the anvils -/

/-- What the reads of a reheat have found: heavy slabs, clamped codes, failed groups, whether the conditions of R112 held, and
the losses. -/
structure ReadMark where
  heavy : Nat := 0
  clamps : Nat := 0
  chks : Nat := 0
  met : Bool := true
  lost : List Nat := []
  deriving DecidableEq, Repr

/-- One half of a pass struck and compared: the result and the exact one. -/
def Device.readHalf (d : Device) (k : ReadMark) (u tileId mode half : Nat) (split : Bool) (codes : List Int) :
    (List Int × List Int) × ReadMark × Device :=
  let (r, d) := d.strikeHalf u tileId mode half split codes
  let (chks, d) := d.compare u tileId (halfMode mode half) r.sums
  ((r.sums.take 512, r.exact.take 512), { k with heavy := k.heavy + r.heavy, clamps := k.clamps + r.clamps, chks := k.chks + chks }, d)

/-- What the read of a word gives: its integers with the ledger term, how far they lie from the exact ones, and the squares of its
products. -/
structure WordRead where
  ints : List Int := []
  devs : List Int := []
  squares : List Nat := []
  deriving DecidableEq, Repr

/-- One word of a tile struck again for a token, with its ledger term (R132, R146, R148): the integers of 16·H + L for
an A8W4 pass. The pass counts under R115. An anvil that is retired, unmapped or without trims gives none. -/
def Device.readWord (d : Device) (k : ReadMark) (c : Nat) (p : PassWord) (mode : Nat) (codes : List Int) :
    WordRead × ReadMark × Device :=
  let d := d.countMiss c p 1
  match d.mapped c p.anvil with
  | none => ({}, { k with lost := k.lost ++ [stPoisoned] }, d)
  | some u =>
    if d.retired u then ({}, { k with lost := k.lost ++ [stPoisoned] }, d)
    else if !(d.trimValid u) then
      ({}, { k with lost := k.lost ++ [stTrimInvalid] },
        (d.count (pageAnv u + 0x11C)).eventSt (pageAnv u) 4 stTrimInvalid [p.tileId])
    else
      let k := { k with met := k.met && d.anvilBounded u }
      let (a, k, d) := d.readHalf k u p.tileId mode 0 p.split codes
      let (b, k, d) := if mode = 2 then d.readHalf k u p.tileId mode 1 p.split codes else (([], []), k, d)
      let whole : List Int → List Int → List Int := fun h l => if mode = 2 then addLists (h.map (· * 16)) l else h
      let ints := whole a.1 b.1
      ({ ints := (d.ledgerTerm u codes).foldl (fun l e => addAt l e.1 e.2) ints, devs := subLists ints (whole a.2 b.2)
         squares := squaresOf (d.anvil u) mode codes }, k, d)

/-- The reads of two words, or of the passes of two words, as one. -/
def WordRead.add (a b : WordRead) : WordRead :=
  { ints := addLists a.ints b.ints, devs := addLists a.devs b.devs, squares := addNats a.squares b.squares }

/-- The words of a join struck for a token and summed in slot order (R107). -/
def Device.readJoin (d : Device) (k : ReadMark) (c mode : Nat) (ws : List PassWord) (codes : PassWord → List Int) :
    WordRead × ReadMark × Device :=
  ws.foldl (fun r p =>
    let (v, k, d) := r.2.2.readWord r.2.1 c p mode (codes p)
    (r.1.add v, k, d)) ({ ints := List.replicate 512 0 }, k, d)

/-! ### Codings of a token (R103, R128) -/

/-- How a token is coded for a reheat: one coding for every pass, or the outlier split with the set O of each join
group as slot and row, its largest magnitude, and the largest magnitude outside. -/
structure Coding where
  qmax : Nat
  /-- The largest magnitude that codes pass A. -/
  amax : U32
  stored : Bool
  groups : List (Nat × U32 × List (Nat × Nat))
  deriving DecidableEq, Repr

/-- The inputs of a join group that are not masked and not zero: magnitude, slot and row (R128). -/
def Device.groupInputs (d : Device) (m : Memory) (c : Nat) (t : Tile) (ws : List PassWord) (tok : Nat) :
    List (Nat × Nat × Nat) :=
  ws.flatMap (fun p =>
    ((maskOut (d.passMask c p) 0 (t.wideValues m c p tok)).zipIdx.filter (fun e => e.1.toNat % 2 ^ 31 != 0)).map
      (fun e => (e.1.toNat % 2 ^ 31, p.slot, e.2)))

/-- The 64 inputs of largest magnitude, ties toward the lower position (R128). -/
def topInputs (l : List (Nat × Nat × Nat)) : List (Nat × Nat × Nat) :=
  (sortByKey (fun e => (2 ^ 31 - e.1) * 4096 + 1024 * e.2.1 + e.2.2) l).take 64

/-- The outlier split of a token, none where none is formed (R128). -/
def Device.splitCoding (d : Device) (m : Memory) (c : Nat) (t : Tile) (ws : List PassWord) (tok : Nat) : Option Coding :=
  if t.amax.getD tok 0 = nanF32 then none
  else
    let groups := (dedup (ws.map (·.join))).map (fun k =>
      let all := d.groupInputs m c t (ws.filter (fun p => p.join == k)) tok
      (k, topInputs all, all))
    let outside := groups.flatMap (fun g => g.2.2.filter (fun e => !(g.2.1.contains e)))
    if groups.all (fun g => g.2.1 == []) || outside == [] then none
    else
      some { qmax := qmaxOf t.mode, amax := amaxOf (outside.map (fun e => BitVec.ofNat 32 e.1)), stored := false
             groups := (groups.filter (fun g => g.2.1 != [])).map (fun g =>
               (g.1, amaxOf (g.2.1.map (fun e => BitVec.ofNat 32 e.1)), g.2.1.map (fun e => (e.2.1, e.2.2)))) }

/-- The ordinary coding of a token (R103). -/
def Tile.plainCoding (t : Tile) (qmax tok : Nat) : Coding :=
  { qmax := qmax, amax := t.amax.getD tok 0, stored := decide (t.inFmt < 2), groups := [] }

/-- The codes of pass A for a word: inputs of O take code 0 (R128). -/
def Device.codesA (d : Device) (m : Memory) (c : Nat) (t : Tile) (k : Coding) (tok : Nat) (p : PassWord) : List Int :=
  let mask := d.passMask c p
  if k.stored then maskOut mask 0 (storedRow m c p tok)
  else
    let o := (k.groups.find? (fun g => g.1 == p.join)).elim [] (·.2.2)
    (maskOut mask 0 ((t.wideValues m c p tok).map (quantCode k.qmax k.amax))).zipIdx.map (fun e =>
      if o.contains (p.slot, e.2) then 0 else e.1)

/-- The codes of pass B for a word: only inputs of O (R128). -/
def Device.codesB (d : Device) (m : Memory) (c : Nat) (t : Tile) (k : Coding) (tok : Nat) (p : PassWord) : List Int :=
  match k.groups.find? (fun g => g.1 == p.join) with
  | none => List.replicate 1024 0
  | some g =>
    (maskOut (d.passMask c p) 0 ((t.wideValues m c p tok).map (quantCode k.qmax g.2.1))).zipIdx.map (fun e =>
      if g.2.2.contains (p.slot, e.2) then e.1 else 0)

/-- The factor r of a join group (R128). -/
def Coding.ratio (k : Coding) (join : Nat) : Option U32 :=
  (k.groups.find? (fun g => g.1 == join)).map (fun g => fDiv (scaleOf k.qmax g.2.1) (scaleOf k.qmax k.amax))

/-- The ratio of a join group in the unit of errors (R113). -/
def Coding.scale (k : Coding) (join : Nat) : Nat := (k.ratio join).elim errUnit errScale

/-- The largest ratio among the join groups (R113), none without a split. -/
def Coding.top (k : Coding) : Option Nat :=
  if k.groups = [] then none else some ((k.groups.map (fun g => k.scale g.1)).foldl Nat.max 0)

/-- What the reads of a token have given so far: the read in progress, the errors of all reads in the unit of errors, and the squares
of the products. -/
structure TokenRead where
  row : List U32
  errs : List Int
  squares : List Nat := []
  deriving DecidableEq, Repr

/-- A join's read added: P_A, or P_A + r · P_B of an outlier split (R128, R148); the integers that bring the errors back into
their bound join P_A (R112, R113). -/
def TokenRead.promote (r : TokenRead) (a : WordRead) (b : Option (U32 × WordRead)) (pull : List Int → List Nat → List Int) : TokenRead :=
  let errs := addLists r.errs (a.devs.map (· * errUnit))
  let errs := match b with
    | some (q, v) => addLists errs (v.devs.map (· * errScale q))
    | none => errs
  let squares := addNats r.squares (match b with
    | some (_, v) => addNats a.squares v.squares
    | none => a.squares)
  let shift := pull errs squares
  let ints := addLists a.ints shift
  { row := match b with
      | some (q, v) => ((r.row.zip ints).zip v.ints).map (fun e => fAdd e.1.1 (fAdd (f32OfInt e.1.2) (fMul q (f32OfInt e.2))))
      | none => (r.row.zip ints).map (fun e => fAdd e.1 (f32OfInt e.2))
    errs := addLists errs (shift.map (· * errUnit)), squares := squares }

/-- One read of a token: every join promoted in order (R128, R148), its last one inside the bound when it is the last read. -/
def Device.readToken (d : Device) (m : Memory) (mark : ReadMark) (c mode : Nat) (t : Tile) (ws : List PassWord) (k : Coding)
    (tok : Nat) (errs : List Int) (pull : ReadMark → List Int → List Nat → List Int) : TokenRead × ReadMark × Device :=
  let joins := dedup (ws.map (·.join))
  joins.foldl (fun r j =>
    let group := ws.filter (fun p => p.join == j)
    let atEnd : ReadMark → List Int → List Nat → List Int := if joins.getLast? = some j then pull else fun _ _ _ => []
    let (a, mm, d) := r.2.2.readJoin r.2.1 c mode group (d.codesA m c t k tok)
    match k.ratio j with
    | none => (r.1.promote a none (atEnd mm), mm, d)
    | some q =>
      let (b, mm, d) := d.readJoin mm c mode group (d.codesB m c t k tok)
      (r.1.promote a (some (q, b)) (atEnd mm), mm, d))
    ({ row := List.replicate 512 0, errs := errs }, mark, d)

/-- The mean of reads: the FP32 sum in read order times 1 / n (R129, R156). -/
def meanOf (n : Nat) (rows : List (List U32)) : List U32 :=
  match rows with
  | [] => []
  | r :: rest =>
    (rest.foldl (fun a b => (a.zip b).map (fun e => fAdd e.1 e.2)) r).map (fun x =>
      if n = 1 then x else fMul x (fDiv oneF32 (f32OfInt n)))

/-- n reads of a token, from errors that earlier reads have left. -/
def Device.readTimes (d : Device) (m : Memory) (mark : ReadMark) (c mode : Nat) (t : Tile) (ws : List PassWord) (k : Coding)
    (tok : Nat) (errs : List Int) (pull : ReadMark → List Int → List Nat → List Int) :
    Nat → List (List U32) × List Int × ReadMark × Device
  | 0 => ([], errs, mark, d)
  | n + 1 =>
    let r := d.readTimes m mark c mode t ws k tok errs (fun _ _ _ => []) n
    let s := r.2.2.2.readToken m r.2.2.1 c mode t ws k tok r.2.1 pull
    (r.1 ++ [s.1.row], s.1.errs, s.2)

/-- A token of the main region. -/
def CoreState.mainRow (x : CoreState) (t : Tile) (tok : Nat) : List U32 :=
  (List.range (tileCols t.transposed)).map (fun j => smapGet x.acc 0 (t.mainWord tok j))

/-- The coding of a form on the anvils, and the reads to take. Where OUTLIER_AVG2 forms no split, the ordinary pass is read twice as
well (R128) (readings: log entry 66). -/
def Device.planRead (d : Device) (m : Memory) (c : Nat) (t : Tile) (ws : List PassWord) (tok : Nat) : Form → Coding × Nat
  | .rung _ => (t.plainCoding 127 tok, 1)
  | .avg n => (t.plainCoding (qmaxOf t.mode) tok, n - 1)
  | .split n => ((d.splitCoding m c t ws tok).getD (t.plainCoding (qmaxOf t.mode) tok), n)

/-- A token's zero counts in a reheat (R106): an input of the outlier set has code 0 in pass A and counts as zeroed (readings: log
entry 66). -/
def Device.reheatZeros (d : Device) (m : Memory) (c : Nat) (t : Tile) (ws : List PassWord) (tok : Nat) (codes : PassWord → List Int) :
    Nat × Nat :=
  if t.inFmt < 2 then (0, 0)
  else ws.foldl (fun acc p =>
    let r := zeroCounts (t.amax.getD tok 0) (maskOut (d.passMask c p) 0 (wideRow m c p tok)) (codes p)
    (acc.1 + r.1, acc.2 + r.2)) (0, 0)

/-- A token reheated on the anvils: its new main row, its activation scale, its zero counts, and what the reads found. -/
def Device.reheatToken (d : Device) (m : Memory) (mark : ReadMark) (c mode : Nat) (t : Tile) (ws : List PassWord) (form : Form)
    (tok : Nat) : (List U32 × U32 × Nat × Nat) × ReadMark × Device :=
  let (k, reads) := d.planRead m c t ws tok form
  let avg := match form with
    | .avg _ => true
    | _ => false
  let n := if avg then reads + 1 else reads
  let pull : ReadMark → List Int → List Nat → List Int := fun mm errs squares =>
    let met := mm.met && (t.bounded || !avg)
    let heavy := decide (0 < mm.heavy) || (avg && t.heavy)
    pullBacks (errLimit met heavy mode t.kN n k.top) t.kN squares errs
  let errs : List Int := if avg then (smapGet t.devs [] tok).map (fun x => x * errUnit) else []
  let (rows, _, mark, d) := d.readTimes m mark c mode t ws k tok errs pull reads
  let row := if avg then meanOf n ((d.core c).mainRow t tok :: rows) else meanOf n rows
  let sx := if avg || k.stored then t.sx.getD tok 0 else scaleOf k.qmax k.amax
  let z := if avg then (0, 0) else d.reheatZeros m c t ws tok (d.codesA m c t k tok)
  ((row, sx, z.1, z.2), mark, d)

/-! ### The outcome (R133, R134, R140) -/

/-- A tile after its reheat (R133). -/
def Tile.mended (t : Tile) (zn nz : Nat) (k : ReadMark) : Tile :=
  let t := { t with
    zeroN := satAdd16 t.zeroN zn, nzN := satAdd16 t.nzN nz, heavyN := satAdd16 t.heavyN k.heavy
    clampN := satAdd16 t.clampN k.clamps, chkN := satAdd16 t.chkN k.chks, due := false
    heavy := decide (0 < k.heavy), chk := decide (0 < k.chks) }
  let t := ((t.unmark stChecksum).unmark stHeavy).mark stMended
  let t := if 0 < k.heavy then t.mark stHeavy else t
  let t := if 0 < k.chks then t.mark stChecksum else t
  k.lost.foldl (fun t s => t.spoil s) t

/-- A tile reheated on the anvils. -/
def Device.reheatAnvils (d : Device) (m : Memory) (c e : Nat) (t : Tile) (form : Form) : Device :=
  let ws := (d.wordsOf c e t).map (·.2)
  let mode := match form with
    | .rung _ => 2
    | _ => t.mode
  let r := (List.range (2 ^ t.shape)).foldl (fun (r : List (List U32 × U32 × Nat × Nat) × ReadMark × Device) tok =>
    let s := r.2.2.reheatToken m r.2.1 c mode t ws form tok
    (r.1 ++ [s.1], s.2)) ([], {}, d)
  let sx := r.1.map (·.2.1)
  let d := r.2.2.replaceMain c e t (r.1.map (·.1)) sx t.scol
  let d := d.onTile c e (fun t => t.mended (sumNat (r.1.map (·.2.2.1))) (sumNat (r.1.map (·.2.2.2))) r.2.1)
  d.consumeTokens c e (dedup (ws.flatMap (fun p => poisonedTokens m c p)))

/-- The zero counts of rung 3's own quantiser over a tile (R106, R133, R159). -/
def Device.rung3Zeros (d : Device) (m : Memory) (c e : Nat) (t : Tile) : Nat × Nat :=
  let ws := (d.wordsOf c e t).map (·.2)
  (List.range (2 ^ t.shape)).foldl (fun acc tok =>
    let r := d.reheatZeros m c t ws tok (fun p => d.codes8 m c t p tok)
    (acc.1 + r.1, acc.2 + r.2)) (0, 0)

/-- A tile reheated in a form (readings: log entry 34). -/
def Device.reheatTile (d : Device) (m : Memory) (c e : Nat) (t : Tile) (form : Form) : Device :=
  let digital : Nat × Nat → Option Device → Device := fun z r => (r.getD d).onTile c e (fun t => t.mended z.1 z.2 {})
  match form with
  | .rung 3 => digital (d.rung3Zeros m c e t) (d.rung3 m c e t)
  | .rung 4 => digital (0, 0) (d.rung4 m c e t)
  | _ => d.reheatAnvils m c e t form

/-- The eligible tiles in the order of R203. -/
def CoreState.eligible (x : CoreState) : List (Nat × Tile) :=
  sortByKey (fun e => e.2.lastTick * 4096 + e.2.tileId) (x.tiles.filter (fun e => e.2.due))

/-- WIN_LAST (R219). -/
def winLast (w : Window) : Nat := w.used % 2 ^ 16 + Nat.min w.mended 255 * 2 ^ 16 + Nat.min w.unmended 255 * 2 ^ 24

/-- The window of a core with a change, shown in WIN_LAST. -/
def Device.onWindow (d : Device) (c : Nat) (f : Window → Window) : Device :=
  match (d.core c).window with
  | none => d
  | some w => (d.onCore c (fun x => { x with window := some (f w) })).set (pageSeq c + 0x128) (winLast (f w))

/-- A window with a reheat of a cost, and with a tile delivered UNMENDED (readings: log entry 34). -/
def Window.spend (w : Window) (cost : Nat) : Window :=
  { w with left := w.left - cost, used := w.used + cost, mended := w.mended + 1 }
def Window.miss (w : Window) : Window := { w with unmended := w.unmended + 1 }

/-- REHEAT (R203): the next eligible tile is reheated when its cost fits, and delivered UNMENDED otherwise (readings: log entry 34). -/
def opReheat (c : Nat) (p : Part) : Part :=
  let x := p.dev.core c
  match x.window, x.eligible with
  | some w, (e, t) :: _ =>
    let joins := (joinsOf (p.dev.wordsOf c e t)).length
    match p.dev.formOf p.mem c e t with
    | some form =>
      let cost := reheatCost (p.dev.level c) joins t.shape t.split form
      if cost ≤ w.left then
        let p := p.touchInputs c e t
        let p := match form with
          | .rung 3 => p.touchBillet 5 526336 c e t
          | .rung 4 => p.touchBillet 6 1048576 c e t
          | _ => p
        p.onDev (fun d =>
          ((d.reheatTile p.mem c e t form).count (pageNum (c / 128) + 0x118)).onWindow c (fun w => w.spend cost))
      else p.onDev (fun d => (d.unmend c e w.idx opWindow).onWindow c Window.miss)
    | none => p.onDev (fun d => (d.unmend c e w.idx opWindow).onWindow c Window.miss)
  | _, _ => p

def execReheat (c : Core) (s : State) : Host.Outcome State Fault Refusal := s.onPart (opReheat c.val)

end Sys2Proof.Machine
end

