-- ==== Sys2Proof/Machine/Epilogue.lean ====
section
/-! DEFINITION. The fused epilogue and the fixed reduction tree (R155, R163 to R169, R194, R615). -/

namespace Sys2Proof.Machine

/-! ### The epilogue (R163 to R166) -/

/-- Whether every promotion into a tile entry issued before a word has completed (R155). -/
def CoreState.promotedBefore (x : CoreState) (e idx : Nat) : Bool :=
  x.joins.all (fun j => j.entry != e || decide (idx ≤ j.idx))

/-- The tile entries of an EPI word, the up tile first. -/
def epiTiles (q : EpiWord) : List Nat := if q.gated then [q.tile, q.tile2] else [q.tile]

/-- A queued EPI word may start (R155). -/
def CoreState.epiReady (x : CoreState) (q : Queued) : Bool := (epiTiles (epiWord q.word)).all (fun e => x.promotedBefore e q.idx)

/-- EPI (R163, R191): the word enters the queue or is dropped. -/
def opEpiWord (c : Nat) (d : Device) : Device :=
  match d.next c (isOp opEpi) with
  | none => d
  | some (i, w, tick, d) =>
    let x := d.core c
    let depth := if (x.epiQ.head?.map x.epiReady).getD false then 3 else 2
    if depth ≤ x.epiQ.length then d.dropWord c i tick w
    else d.onCore c (fun x => { x with epiQ := x.epiQ ++ [⟨i, w, false⟩] })

/-- The VEC format code of OFMT (R188). -/
def ofmtCode (ofmt : Nat) : Nat := [0, 1, 2, 4].getD ofmt 5

/-- The output scale of an EPI word (R165, R219). -/
def Device.soutAddr (d : Device) (c : Nat) (q : EpiWord) : Nat :=
  storeAddr c (bits (d.get (pageSeq c + 0x130)) 16 0) + 4 * q.sout

/-- The scale and bias steps on one output (R163): a transposed tile skips the scale step. -/
def Device.epiValue (d : Device) (m : Memory) (c : Nat) (t : Tile) (q : EpiWord) (bias : List U32) (tok j : Nat) : U32 :=
  let k := keep d.compat
  let x := d.core c
  let v := smapGet x.acc 0 (t.mainWord tok j)
  let v :=
    if q.skipScale || t.transposed then v
    else
      let v := k (fMul v (t.sx.getD tok 0))
      let v := k (fMul v (t.scol.at_ m j))
      if t.hasSide then k (fAdd v (smapGet x.acc 0 (t.sideWord tok j))) else v
  if q.skipBias then v else k (fAdd v (bias.getD j 0))

/-- The activation of an EPI word (R163). -/
def epiAct (compat : Bool) (act : Nat) (v : U32) : U32 :=
  if act = 1 then relu v else if act = 2 then gelu compat v else if act = 3 then silu compat v else v

/-- The conversion of one output (R123, R165). -/
def epiConvert (ofmt : Nat) (inv v : U32) : Conversion := vecCode (ofmtCode ofmt) (if ofmt ≤ 2 then fMul v inv else v)

/-- The outputs of an epilogue over its tiles, token by token: with GATED, SiLU of the gate tile times the up tile
(R164). -/
def Device.epiOutputs (d : Device) (m : Memory) (c : Nat) (q : EpiWord) (up : Tile) (gate : Option Tile) : List Conversion :=
  let bias := readF32 m (storeAddr c q.bias) (tileCols up.transposed)
  let inv := fRecip (BitVec.ofNat 32 (m.nat (d.soutAddr c q) 4))
  (List.range (2 ^ q.shape)).flatMap (fun tok => (List.range (tileCols up.transposed)).map (fun j =>
    let u := d.epiValue m c up q bias tok j
    let v := match gate with
      | some g => keep d.compat (fMul (silu d.compat (d.epiValue m c g q bias tok j)) u)
      | none => epiAct d.compat q.act u
    epiConvert q.ofmt inv v))

/-- The counts of an epilogue's conversions (R123, R140). -/
def Device.countOutputs (d : Device) (c tileId : Nat) (o : List Conversion) : Device :=
  let page := pageNum (c / 128)
  let nan := (o.filter (·.wasNan)).length
  let d := (d.count (page + 0x12C) (o.filter (·.wasInf)).length).count (page + 0x130) (o.filter (·.saturated)).length
  if nan = 0 then d else (d.count (page + 0x128) nan).numEvent (c / 128) 3 stOk tileId 0

/-- The output's bytes: the codes, and behind an integer block the scale of every token (R165, R187). -/
def epiBytes (m : Memory) (sout : Nat) (ofmt T : Nat) (codes : List Nat) : List Byte :=
  let body := vecPack (ofmtCode ofmt) codes
  if ofmt ≤ 1 then padTo (granuleUp body.length) 0 body ++ padTo (granuleUp (4 * T)) 0 ((List.range T).flatMap (fun _ => m.read sout 4))
  else body

/-- The granules that hold the outputs of tokens (R166). -/
def tokenGranules (dst bytes : Nat) (toks : List Nat) : List Nat := dedup (toks.flatMap (fun t => granules (dst + t * bytes) bytes))

/-- The table of column scales that the scale step of a tile reads (R163). -/
def Tile.scaleTable (t : Tile) (q : EpiWord) : Option Nat :=
  if q.skipScale || t.transposed then none else match t.scol with
    | .table a => some a
    | _ => none

/-- The operands of an EPI word that are poisoned mark every token (R403). -/
def Device.epiOperandBad (d : Device) (m : Memory) (c : Nat) (q : EpiWord) (tiles : List Tile) : Bool :=
  tiles.any (fun t => (t.scaleTable q).any (fun a => m.poisoned a 2048)) ||
  (!q.skipBias && coreOperandBad m c (storeAddr c q.bias) 2048) ||
  (decide (q.ofmt ≤ 2) && coreOperandBad m c (d.soutAddr c q) 4)

/-- The status of an output (R15, R164): the code that stands first among its tiles' conditions, POISONED among them when an operand
is. -/
def Device.epiStatus (d : Device) (c : Nat) (q : EpiWord) (bad : Bool) : Nat :=
  statusOf (((epiTiles q).filterMap (fun e => (d.core c).tile e)).flatMap (·.conds) ++ (if bad then [stPoisoned] else []))

/-- An epilogue over its tiles found: settled, computed, and kept until it completes (readings: log entry 36). -/
def Device.epiRun (d : Device) (m : Memory) (c idx : Nat) (q : EpiWord) (up : Tile) (gate : Option Tile) : Device :=
  let d := (epiTiles q).foldl (fun d e => (d.settle c e idx opEpi).boundVoid c e) d
  let outs := d.epiOutputs m c q up gate
  let T := 2 ^ q.shape
  let bad := d.epiOperandBad m c q (up :: gate.toList)
  let marked := if bad then List.range T else setInserts up.poison ((gate.map (·.poison)).getD [])
  let dst := storeAddr c q.dst
  let bytes := vecBytes (ofmtCode q.ofmt) (tileCols up.transposed)
  let data := epiBytes m (d.soutAddr c q) q.ofmt T (outs.map (·.code))
  (d.countOutputs c up.tileId outs).onCore c (fun x =>
    { x with epiOut := x.epiOut ++ [⟨epiTiles q, d.epiStatus c q bad, dst, data, tokenGranules dst bytes marked⟩] })

/-- An epilogue that finds no tile (R615): every output is written poisoned, and the tile found is freed. -/
def Device.epiLost (d : Device) (c : Nat) (q : EpiWord) : Device :=
  let x := d.core c
  let found := (epiTiles q).filter (fun e => (x.tileShaped e q.shape).isSome)
  let missing := ((epiTiles q).find? (fun e => (x.tileShaped e q.shape).isNone)).getD q.tile
  let n := vecBytes (ofmtCode q.ofmt) (512 * 2 ^ q.shape)
  let dst := storeAddr c q.dst
  (d.refuseTile c 0 missing 0).onCore c (fun x =>
    { x with epiOut := x.epiOut ++ [⟨found, stPoisoned, dst, List.replicate n 0, granules dst n⟩] })

/-- EPILOGUE_START (R155): the queue's head starts once every earlier promotion into its tiles has completed. -/
def opEpilogueStart (c : Nat) (p : Part) : Part :=
  let x := p.dev.core c
  match x.epiQ with
  | [] => p
  | q :: rest =>
    if x.epiReady q then
      let w := epiWord q.word
      let p := p.onDev (fun d => d.onCore c (fun x => { x with epiQ := rest }))
      let p := (p.touch (storeAddr c w.bias) (if w.skipBias then 0 else 2048)).touch (p.dev.soutAddr c w) (if w.ofmt ≤ 2 then 4 else 0)
      let p := ((epiTiles w).filterMap (fun e => (p.dev.core c).tile e)).foldl (fun (p : Part) t =>
        match t.scaleTable w with
        | some a => p.touch a 2048
        | none => p) p
      p.onDev (fun d =>
        match (d.core c).tileShaped w.tile w.shape, (d.core c).tileShaped w.tile2 w.shape with
        | some up, gate =>
          if w.gated then (match gate with
            | some g => d.epiRun p.mem c q.idx w up (some g)
            | none => d.epiLost c w)
          else d.epiRun p.mem c q.idx w up none
        | none, _ => d.epiLost c w)
    else p

/-- EPILOGUE_DONE (R154, R166): the output is written with its poison marks, and its tiles are freed. -/
def opEpilogueDone (c : Nat) (p : Part) : Part :=
  match (p.dev.core c).epiOut with
  | [] => p
  | o :: rest =>
    (p.coreWrite c o.dst o.data o.poison).onDev (fun d =>
      (d.onCore c (fun x =>
        (o.tiles.foldl CoreState.freeTile { x with epiOut := rest }).putOutput (o.dst / 64) (ceilDiv o.data.length 64)
          o.status)).count (pageAcc c + 0x118))

/-! ### The tree (R167 to R169, R194) -/

/-- The node of a TREE word's peer: 0x1FF and the own node are this module. -/
def Device.peerNode (d : Device) (q : TreeWord) : Nat := if q.pnode = d.node then 0x1FF else q.pnode

/-- The part that a TREE word with ROLE 1 names (R194). -/
def Device.partFor (d : Device) (q : TreeWord) (p : TreePart) : Bool :=
  p.node == d.peerNode q && p.core == 128 * q.pdie + q.pcore && p.entry == q.ptile

/-- A queued TREE word may run (R155). -/
def CoreState.treeReady (x : CoreState) (q : TreeOp) : Bool := x.promotedBefore (treeWord q.word).tile q.idx

/-- Whether the tree adder's queue takes no further word (R191). -/
def CoreState.treeFull (x : CoreState) : Bool :=
  decide ((if (x.treeQ.head?.map x.treeReady).getD false then 3 else 2) ≤ x.treeQ.length)

/-- TREE_SEND (R167, R191). -/
def opTreeSend (c : Nat) (d : Device) : Device :=
  match d.next c (fun w => isOp opTree w && !(treeWord w).add) with
  | none => d
  | some (i, w, tick, d) =>
    if (d.core c).treeFull then d.dropWord c i tick w
    else d.onCore c (fun x => { x with treeQ := x.treeQ ++ [⟨i, w, none⟩] })

/-- TREE_ADD (R194): the peer's part counts only if the whole part has arrived at the word's issue. -/
def opTreeAdd (c : Nat) (d : Device) : Device :=
  match d.next c (fun w => isOp opTree w && (treeWord w).add) with
  | none => d
  | some (i, w, tick, d) =>
    if (d.core c).treeFull then d.dropWord c i tick w
    else
      let q := treeWord w
      let part := (d.core c).parts.find? (d.partFor q)
      let d := d.onCore c (fun x => { x with treeQ := x.treeQ ++ [⟨i, w, part⟩], parts := dropFirst (d.partFor q) x.parts })
      if part.isSome then d else (d.count (pageSeq c + 0x124)).seqEvent c 2 stPoisoned opTree i

/-- A region of a tile as a list of words. -/
def CoreState.region (x : CoreState) (first n : Nat) : List U32 := (List.range n).map (fun i => smapGet x.acc 0 (first + i))

/-- The part that a tile sends (R168). -/
def CoreState.partOf (x : CoreState) (c e : Nat) (t : Tile) : TreePart :=
  let n := 2 ^ t.shape * tileCols t.transposed
  { node := 0x1FF, core := c, entry := e, shape := t.shape, absent := false, main := x.region t.region n
    side := if t.hasSide then x.region (t.sideWord 0 0) n else []
    clampN := t.clampN, zeroN := t.zeroN, nzN := t.nzN, heavyN := t.heavyN, chkN := t.chkN, kN := t.kN
    conds := t.conds, poison := t.poison }

/-- The part that a word which finds no tile sends: poison on every token (R615) (readings: log entry 36). -/
def absentPart (c e shape : Nat) : TreePart :=
  { node := 0x1FF, core := c, entry := e, shape := shape, absent := true, main := [], side := [], clampN := 0, zeroN := 0
    nzN := 0, heavyN := 0, chkN := 0, kN := 0, conds := [stPoisoned], poison := List.range (2 ^ shape) }

/-- A part on its way to its peer: to a core of this module, or sent to another. -/
def Device.sendPart (d : Device) (q : TreeWord) (p : TreePart) : Device :=
  let peer := 128 * q.pdie + q.pcore
  if d.peerNode q = 0x1FF then d.onCore peer (fun x => { x with parts := x.parts ++ [p] })
  else d.send (.treePart q.pnode peer { p with node := d.node })

/-- A tree step with ROLE 0: the tile's part is sent, and the tile is freed (R154). -/
def Device.treeSend (d : Device) (c : Nat) (o : TreeOp) : Device :=
  let q := treeWord o.word
  match (d.core c).tileShaped q.tile q.shape with
  | none => (d.refuseTile c 0 q.tile 0).sendPart q (absentPart c q.tile q.shape)
  | some _ =>
    let d := d.settle c q.tile o.idx opTree
    match (d.core c).tile q.tile with
    | none => d
    | some t => (d.onCore c (fun x => x.freeTile q.tile)).sendPart q ((d.core c).partOf c q.tile t)

/-- A tile combined with a part (R168) (readings: log entry 36). -/
def Tile.combine (t : Tile) (p : TreePart) : Tile :=
  let t := { t with
    clampN := satAdd16 t.clampN p.clampN, zeroN := satAdd16 t.zeroN p.zeroN, nzN := satAdd16 t.nzN p.nzN
    heavyN := satAdd16 t.heavyN p.heavyN, chkN := satAdd16 t.chkN p.chkN, kN := satAdd t.kN p.kN }
  (p.conds.foldl (fun t s => t.mark s) t).consume (p.poison.filter (fun k => decide (k < 2 ^ t.shape)))

/-- The core with a part's regions added to a tile's, separately (R168). -/
def CoreState.addPart (x : CoreState) (t : Tile) (p : TreePart) : CoreState :=
  { x with acc := addWords (addWords x.acc t.region p.main) (t.sideWord 0 0) (if t.hasSide then p.side else []) }

/-- A tree step with ROLE 1 (R168, R194, R615) (readings: log entry 36). -/
def Device.treeAdd (d : Device) (c : Nat) (o : TreeOp) : Device :=
  let q := treeWord o.word
  match (d.core c).tileShaped q.tile q.shape with
  | none => d.refuseTile c 0 q.tile 0
  | some _ =>
    let d := d.settle c q.tile o.idx opTree
    match (d.core c).tile q.tile, o.part with
    | some t, some p =>
      let d := d.onCore c (fun x => (x.addPart t p).setTile q.tile (t.combine p))
      if p.poison = [] then d else d.accEvent c 2 stPoisoned t.tileId q.tile t.region
    | some t, none => d.onCore c (fun x => x.setTile q.tile t.spoilMarks)
    | none, _ => d

/-- TREE_STEP_DONE (R168): the step at the head completes, once every earlier promotion into its tile has. -/
def opTreeStepDone (c : Nat) (d : Device) : Device :=
  let x := d.core c
  match x.treeQ with
  | [] => d
  | o :: rest =>
    if x.treeReady o then
      let d := d.setCore c { x with treeQ := rest }
      (if (treeWord o.word).add then d.treeAdd c o else d.treeSend c o).count (pageAcc c + 0x114)
    else d

def execEpi (c : Core) (s : State) : Host.Outcome State Fault Refusal := s.onDev (opEpiWord c.val)
def execEpilogueStart (c : Core) (s : State) : Host.Outcome State Fault Refusal := s.onPart (opEpilogueStart c.val)
def execEpilogueDone (c : Core) (s : State) : Host.Outcome State Fault Refusal := s.onPart (opEpilogueDone c.val)
def execTreeSend (c : Core) (s : State) : Host.Outcome State Fault Refusal := s.onDev (opTreeSend c.val)
def execTreeAdd (c : Core) (s : State) : Host.Outcome State Fault Refusal := s.onDev (opTreeAdd c.val)
def execTreeStepDone (c : Core) (s : State) : Host.Outcome State Fault Refusal := s.onDev (opTreeStepDone c.val)

end Sys2Proof.Machine
end

