-- ==== Sys2Proof/Machine/ServeCommit.lean ====
section
/-! DEFINITION. What a heat boundary does for the requests: lists, prefix tree, tokens, latency, and the slot tables of the
next heat (R199, R210, R296, R306, R320 to R323, R331 to R333, R344 to R346). -/

namespace Sys2Proof.Machine

/-! ### How a slot of the ended heat came out -/

/-- The outcome of a slot: dropped, its walk statuses, and what the sampler left in granule 3. -/
structure SlotOut where
  dropped : Bool
  broken : Bool
  walks : List Nat
  logits : List Nat
  bad : Bool
  accN : Nat
  sstat : Nat
  sempty : Nat
  next : Nat
  drafts : List Nat
  gstate : Nat
  deriving DecidableEq, Repr

/-- The slot samples: a generation or verify slot, or the last chunk (R325). -/
def SlotUse.samples (u : SlotUse) : Bool := !(u.pinned) && (u.kind != 3 || u.last)

/-- The outcome of a slot of the ended heat, in the bank that heat used. -/
def Part.slotOut (p : Part) (die : Nat) (u : SlotUse) : SlotOut :=
  let key := 4096 * die + u.entry
  let a := p.dev.recAddr (u.seq % 8192) + 0xC0
  { dropped := bit (p.slotNow die u.entry).flags 0, broken := p.dev.serving.broken.contains key
    walks := smapGet p.dev.serving.walked [] key, logits := smapGet p.dev.serving.logits [] key, bad := p.mem.poisoned a 64, accN := p.mem.nat (a + 4) 1
    sstat := p.mem.nat (a + 6) 1, sempty := p.mem.nat (a + 7) 1, next := p.mem.nat a 4
    drafts := elements 4 8 (p.mem.read (a + 8) 32), gstate := p.mem.nat (a + 0x28) 4 }

/-- The length that a sequence has after a slot (R346): an overflow token is in no page, and a dropped slot adds none. -/
def SlotUse.lengthAfter (u : SlotUse) (o : SlotOut) (length : Nat) : Nat :=
  if o.dropped || u.pinned then length
  else if u.kind = 3 then (if u.pos = length then length + u.ntok else length)
  else if u.overflow || o.sstat != 0 then length
  else u.pos + 1 + o.accN

/-- The length of a sequence after the heat: every slot of it in turn, and on a holding module the position that the next
note names (R277, R330). -/
def Part.lengthNext (p : Part) (die k : Nat) (x : Sequence) : Nat :=
  let y := p.dev.dieServing die
  let done := (y.cur.filter (fun u => u.seq == k)).foldl (fun n u => u.lengthAfter (p.slotOut die u) n) x.length
  match y.next.find? (fun u => u.seq == k && u.pinned) with
  | some u => u.pos
  | none => done

/-! ### Class 1: lists and grants (R199, R294, R295, R346) -/

/-- The positions that a sequence's lists must hold: its own, and those of its slots of the next heat. -/
def DieServing.positionsNeeded (y : DieServing) (k length : Nat) : Nat :=
  (y.next.filter (fun u => u.seq == k)).foldl (fun n u =>
    Nat.max n (if u.kind = 3 ∨ u.pinned then u.pos + u.ntok else length + u.ntok + flag u.overflowIn)) length

/-- The sequences of a die, in increasing key. -/
def Device.sequencesOf (d : Device) (die : Nat) : List (Nat × Sequence) := d.serving.seqs.filter (fun e => e.2.die == die)

/-- The positions that the verify slots of the ended heat reached. -/
def Part.reachedPositions (p : Part) (die k : Nat) : Nat :=
  ((p.dev.dieServing die).cur.filter (fun u => u.seq == k && u.kind == 2 && !(bit (p.slotNow die u.entry).flags 0))).foldl
    (fun n u => Nat.max n (u.pos + u.ntok)) 0

/-- An entry of a list gets another page, when one is free (R346). -/
def Part.renewEntry (k s i : Nat) (p : Part) : Part :=
  match p.dev.sequence k with
  | none => p
  | some x => match p.dev.drawPage (x.allocDie i) (p.layerSlot s).footprint x.seqId with
    | none => p
    | some (page, d) => { p with dev := d.onSequence k (fun x =>
        { x.onList s (fun l => { l with ents := listSet l.ents i (listEntry page false) }) with
          grants := x.grants ++ [⟨page, s, x.blockOf i⟩] }) }

/-- The pages that hold only rejected positions and stand where the next heat writes leave their lists: other pages take
their places (R295, R346) (readings: log entry 60). -/
def Part.renewRejected (p : Part) (k length reached : Nat) : Part :=
  match p.dev.sequence k with
  | none => p
  | some x => (List.range x.lists.length).foldl (fun p s =>
      let held := (x.lists[s]?.map (·.pub.length)).getD 0
      let end_ := Nat.min (x.entriesFor reached) (Nat.min held (x.planned s).length)
      (List.range (end_ - x.entriesFor length)).foldl (fun p i => p.renewEntry k s (x.entriesFor length + i)) p) p

/-- The lists of a die's sequences take effect. -/
def Part.commitLists (p : Part) (die : Nat) : Part :=
  (p.dev.sequencesOf die).foldl (fun p (e : Nat × Sequence) =>
    let n := p.lengthNext die e.1 e.2
    let reached := p.reachedPositions die e.1
    let p := p.onDev (·.cutTo e.1 ((p.dev.dieServing die).positionsNeeded e.1 n))
    (p.renewRejected e.1 n reached).publish e.1 n) p

/-! ### Class 2: the prefix tree (R306) -/

/-- The blocks of a prompt that a chunk of the ended heat completed on a holding module (R306, R330). -/
def Part.shardBlocks (p : Part) (die k from_ to_ : Nat) : List Nat :=
  let chunks := ((p.dev.dieServing die).cur.filter (fun u => u.seq == k && u.kind == 3))
  (List.range (to_ / 256)).filter (fun b => decide (from_ / 256 ≤ b) &&
    chunks.any (fun u => decide (u.pos ≤ 256 * b) && decide (256 * b + 256 ≤ u.pos + u.ntok)))

/-- The whole blocks of the prompt that a heat completed, inserted; lengths before the heat are given. A holding module reads
the digest and the tokens of its blocks from the home module. -/
def Part.commitTree (p : Part) (old : List (Nat × Nat)) : Part :=
  old.foldl (fun p (e : Nat × Nat) =>
    match p.dev.sequence e.1 with
    | none => p
    | some x =>
      let mine := fun b => b % x.nshard == x.shard
      match p.dev.request e.1 with
      | some q =>
        let done := (List.range (x.length / 256)).filter (fun b => decide (e.2 / 256 ≤ b) && mine b)
        done.foldl (fun p b => match x.digests[b]? with
          | some digest =>
            let p := p.touch (rcPrompt q.copy + 1024 * b) 1024
            p.pfxInsert e.1 b digest (p.mem.read (rcPrompt q.copy + 1024 * b) 1024)
          | none => p) p
      | none =>
        ((p.shardBlocks x.die e.1 e.2 x.length).filter mine).foldl (fun p b =>
          let r := p.dev.remoteBlock
          (p.onDev (·.drawn)).pfxInsert e.1 b r.1 r.2) p) p

/-! ### Class 3: tokens (R320, R331 to R333) -/

/-- How an emission ends. -/
structure Emission where
  part : Part
  copy : Option (Nat × List Byte)
  emitted : Nat
  count : Nat := 0
  reason : Nat := 0
  deriving DecidableEq, Repr

/-- The copy of the granule that holds an address of OUT: the processor's own once it has written there, else what memory
holds (R332) (readings: log entry 61). -/
def Emission.granule (e : Emission) (a : Nat) : List Byte :=
  match e.copy with
  | some c => if c.1 = a / 64 then c.2 else e.part.mem.read (a / 64 * 64) 64
  | none => e.part.mem.read (a / 64 * 64) 64

/-- Tokens emitted in order, until a stop token or MAX_NEW (R332). -/
def Emission.tokens (c : RecCopy) : List Nat → Emission → Emission
  | [], e => e
  | t :: l, e =>
    let a := rcOut c + 4 * (e.emitted % Nat.max 1 (rcOutCap c))
    let e := if e.copy.any (fun c => c.1 == a / 64) then e else { e with part := e.part.touch (a / 64 * 64) 64 }
    let g := setField (e.granule a) (a % 64) 4 t
    let e := { e with part := e.part.writePieces (a / 64 * 64) g [], copy := some (a / 64, g), emitted := e.emitted + 1, count := e.count + 1 }
    if (rcStop c).any (fun s => s == t && s != 0xFFFFFFFF) then { e with reason := 2 }
    else if rcMaxNew c ≤ e.emitted then { e with reason := 1 }
    else Emission.tokens c l e

/-- A request's stamps after tokens emitted at a tick (R320). -/
def Request.stamp (q : Request) (t : Nat) : Request :=
  if q.tFirst = 0 then { q with tFirst := t, tLast := t }
  else { q with tLast := t, lastGap := t - q.tLast, maxGap := Nat.min 0xFFFFFFFF (Nat.max q.maxGap (t - q.tLast)) }

/-- The next draft count (R344) (readings: log entry 60). -/
def Request.nextDrafts (q : Request) (k accN : Nat) : Nat :=
  let n := if k ≤ accN then q.draftNext + 1 else if 2 * accN < k then q.draftNext - 1 else q.draftNext
  Nat.max 1 (Nat.min (rcDraftMax q.copy) n)

/-- Granule 3 after a commit: DRAFT and DRAFT_K take NEW_DRAFT and NEW_K (R332). -/
def Part.takeDrafts (p : Part) (r : Nat) : Part :=
  let a := p.dev.recAddr r
  p.patch (a + 0xC0) (setField ((p.mem.read (a + 0xC0) 8) ++ p.mem.read (a + 0x104) 32 ++ p.mem.read (a + 0xE8) 4 ++ List.replicate 20 0) 5 1
    (Nat.min 8 (p.mem.nat (a + 0x100) 1)))

/-- A request that ends POISONED (R333, R283). -/
def Part.endPoisonedRequest (p : Part) (die r : Nat) (q : Request) (counted : Bool) : Part :=
  (p.onDev (fun d =>
    (if counted then d.count (pageSrv die + 0x144) else d).recordEvent (pageSrv die) 3 stPoisoned r (rcReqId q.copy))).endRequest r 6 stPoisoned

/-- The sampled slot of a request at the commit of its heat. -/
def Part.emitSlot (p : Part) (die start r : Nat) (q : Request) (u : SlotUse) (o : SlotOut) (status : Nat) : Part :=
  let k := if u.kind = 2 then u.ntok - 1 else 0
  let tokens := o.drafts.take (Nat.min o.accN k) ++ (if o.sempty = 0 then [o.next] else [])
  let e := Emission.tokens q.copy tokens { part := p, copy := q.outCopy, emitted := q.emitted }
  let reason := if q.cancelled then 4 else if e.reason ≠ 0 then e.reason else if o.sempty = 1 then 5 else if o.sempty = 2 then 3 else 0
  let q' := { (if e.count = 0 then q else q.stamp start) with
    emitted := e.emitted, outCopy := e.copy, status := status, gstate := o.gstate, gapMissed := q.gapMissed
    draftProp := (q.draftProp + k) % 2 ^ 32, draftAcc := (q.draftAcc + Nat.min o.accN k) % 2 ^ 32
    draftNext := if u.kind = 2 then q.nextDrafts k o.accN else q.draftNext
    state := if q.state = 3 then 4 else q.state }
  let p := e.part.takeDrafts r
  let p := (p.onDev (fun d => ((d.count (pageSrv die + 0x150) k).count (pageSrv die + 0x154) (Nat.min o.accN k)).setRequest r q')).writeRequest r q'
  if reason = 4 then (p.onDev (·.count (pageSrv die + 0x160))).endRequest r 4 status
  else if reason ≠ 0 then p.endRequest r reason status
  else if e.count = 0 then p else p.onDev (·.signalDone r q'.copy)

/-- A slot's request at the commit (R283, R332, R333) (readings: log entry 60). -/
def Part.commitSlot (p : Part) (die start : Nat) (e : SlotUse × SlotOut) : Part :=
  let (u, o) := e
  match p.dev.request u.seq with
  | none => p
  | some q =>
    let r := u.seq
    if o.broken then p.endPoisonedRequest die r q false
    else if o.dropped || !(u.samples) then p.updateRequest r (fun q => { q with status := statusOf o.walks })
    else if o.bad || o.sstat == stPoisoned then p.endPoisonedRequest die r q (o.sstat == stPoisoned)
    else if o.sstat != stOk then p.endRequest r 6 (statusOf (o.sstat :: (o.logits ++ o.walks)))
    else
      let status := statusOf ((if u.overflow then [stStarved] else []) ++ o.logits ++ o.walks)
      let p := if u.overflow then p.onDev (·.onSequence r (fun x => { x with overflow := true }))
        else if u.overflowIn then p.onDev (·.onSequence r (fun x => { x with overflow := false })) else p
      p.emitSlot die start r q u o status

/-- Cancelled requests that ran no slot end too (R331). -/
def Part.commitCancels (p : Part) (die : Nat) : Part :=
  (p.dev.requestsOf die).foldl (fun p (e : Nat × Request) =>
    if e.2.cancelled then (p.onDev (·.count (pageSrv die + 0x160))).endRequest e.1 4 e.2.status else p) p

/-! ### Latency targets (R321) -/

/-- The misses that a request reports at a heat start tick. -/
def Request.misses (q : Request) (t : Nat) : Bool × Bool :=
  let first := if q.tFirst = 0 then t else q.tFirst
  (rcTtft q.copy != 0 && !(q.ttftMiss) && decide (q.tArrive + 1000 * rcTtft q.copy < first),
   rcTbt q.copy != 0 && q.tFirst != 0 && !(q.gapMissed) && (decide (q.tLast + 1000 * rcTbt q.copy < t) || decide (1000 * rcTbt q.copy < q.lastGap)))

/-- R321 for one request. A gap whose miss is reported reports none until the next one. -/
def Part.checkLatency (p : Part) (die t r : Nat) (q : Request) : Part :=
  let (first, gap) := q.misses t
  let ended := q.tLast == t
  let q' := { q with ttftMiss := q.ttftMiss || first, tbtMiss := q.tbtMiss || gap, gapMissed := (q.gapMissed || gap) && !ended, lastGap := 0 }
  let p := p.onDev (·.setRequest r q')
  let p := if first then p.onDev (fun d => (d.count (pageSrv die + 0x13C)).recordEvent (pageSrv die) 0 stOk r (rcReqId q.copy)) else p
  let p := if gap then p.onDev (fun d => (d.count (pageSrv die + 0x140)).recordEvent (pageSrv die) 1 stOk r (rcReqId q.copy)) else p
  if first || gap then p.writeRequest r q' else p

def Part.latencies (p : Part) (die t : Nat) : Part :=
  (p.dev.requestsOf die).foldl (fun p (e : Nat × Request) => p.checkLatency die t e.1 e.2) p

/-! ### The slot tables of the heat that starts (R210, R323, R324) -/

/-- A slot as it stands after the commit: its request still runs, a chunk begins where its sequence ends, and a verify slot
holds the drafts that there are. -/
def Part.settleSlot (p : Part) (seen : List SlotUse) (u : SlotUse) : Option SlotUse :=
  if u.pinned then some u
  else match p.dev.request u.seq, p.dev.sequence u.seq with
    | some q, some x =>
      if q.cancelled then none
      else if u.kind = 3 then
        let end_ := (seen.filter (fun v => v.seq == u.seq)).foldl (fun n v => n + v.ntok) x.length
        if u.pos = end_ then some u else none
      else
        let drafts := p.mem.nat (p.dev.recAddr u.seq + 0xC5) 1
        some { u with pos := x.length + flag u.overflowIn, ntok := if u.kind = 2 then Nat.min u.ntok (1 + drafts) else 1 }
    | _, _ => none

/-- Every slot settled, in order. -/
def Part.settleSlots (p : Part) : List SlotUse → List SlotUse → List SlotUse
  | _, [] => []
  | seen, u :: l => match p.settleSlot seen u with
    | some v => v :: p.settleSlots (seen ++ [v]) l
    | none => p.settleSlots seen l

/-- The chunk slots beyond those of the group's class trimmed, in fill order (R210). -/
def trimChunks (limit : Nat) (l : List SlotUse) : List SlotUse :=
  let keep := (l.filter (fun u => u.kind == 3)).take limit
  l.filter (fun u => u.kind != 3 || keep.contains u)

/-- The slot table of a die completed in the heat's class, and its bank taken (R210, R323). -/
def Part.takeBank (p : Part) (die cls : Nat) (h : HeatEntry) : Part :=
  let y := p.dev.dieServing die
  let bank := p.dev.nextBank die
  let settled := p.settleSlots [] y.next
  let kept := if y.cls < cls then trimChunks (h.chunkSlots.getD cls 0) settled else settled
  let trimmed := settled.length - kept.length
  let p := (y.next.filter (fun u => !(kept.any (fun v => v.entry == u.entry)))).foldl (fun p u => p.emptyEntry die bank u.entry) p
  let p := kept.foldl (fun p u => p.fillEntry die bank y.adpNext u) p
  p.onDev (fun d =>
    let d := if trimmed = 0 then d else (d.count (pageHeat + 0x128) trimmed).heatEvent 5 stOk 0
    (d.set (pageSrv die + 0x164) bank).onDie die (fun y => { y with
      cur := kept, next := [], adpNow := y.adpNext, adpNext := [], staged := [], filled := false }))

/-! ### The boundary -/

/-- Every die in increasing order. -/
def Part.eachDie (p : Part) (f : Part → Nat → Part) : Part := (List.range 4).foldl f p

/-- The deferred effects of the ended heat for the requests, in the classes of R199. -/
def Part.commitServing (p : Part) (start : Nat) : Part :=
  let p := p.eachDie (fun p die => (p.dev.dieServing die).cur.foldl (fun p u => p.touchAll
    [(p.dev.slotAddr die (p.dev.slotBank die) u.entry, 32), (p.dev.recAddr (u.seq % 8192) + 0xC0, 128)]) p)
  let outs := (List.range 4).map (fun die => (p.dev.dieServing die).cur.map (fun u => (u, p.slotOut die u)))
  let old := p.dev.serving.seqs.map (fun e => (e.1, e.2.length))
  let p := p.eachDie (fun p die => p.commitLists die)
  let p := p.commitTree old
  let p := p.eachDie (fun p die => ((outs.getD die []).foldl (fun p e => p.commitSlot die start e) p).commitCancels die)
  p.commitAdapters

/-- BELLOWS_EPOCH, and the pages that the commit frees: a replay's start commits nothing (R206, R296). -/
def Device.nextEpoch (d : Device) (replay : Bool) : Device :=
  let d := d.set64 (pageKv + 0x120) (d.epoch + 1)
  if replay then d else d.freeRetired

/-- Everything of the walks and samples of a heat that the next one does not keep. -/
def Device.clearWalks (d : Device) : Device := d.onServing (fun s => { s with walked := [], logits := [], broken := [] })

/-- DROPPED cleared in the bank that a replayed heat reads again (R323): it runs the same slots. -/
def Part.undrop (p : Part) (die : Nat) : Part :=
  (p.dev.dieServing die).cur.foldl (fun p u =>
    let s := p.slotNow die u.entry
    if bit s.flags 0 then p.patch (s.addr + 5) [BitVec.ofNat 8 (s.flags - 1)] else p) p

/-- At a held heat requests wait at its entry barrier (R215); its start changes the slot bank unless it carries REPLAY
(R323) (readings: log entry 60). -/
def Device.restBanks (d : Device) (replay : Bool) : Device :=
  (List.range 4).foldl (fun d die =>
    let bank := if replay then d.slotBank die else d.nextBank die
    (d.set (pageSrv die + 0x164) bank).onDie die (fun y => if replay then { y with cur := [] }
      else { y with cur := [], next := [], adpNow := y.adpNext, adpNext := [], staged := [], filled := false })) d

/-- The requests at a heat start tick (R199, R206, R321, R323). -/
def Part.serveBoundary (p : Part) (start cls : Nat) (replay : Bool) (h : HeatEntry) : Part :=
  let p := if replay then p.eachDie (fun p die => p.undrop die) else p.commitServing start
  let p := p.onDev (fun d => d.clearWalks.nextEpoch replay)
  let p := if h.kind = 2 then p.onDev (·.restBanks replay) else if replay then p else p.eachDie (fun p die => p.takeBank die cls h)
  p.eachDie (fun p die => p.latencies die start)

end Sys2Proof.Machine
end

