-- ==== Sys2Proof/Machine/HeatStart.lean ====
section
/-! DEFINITION. The start of a heat: commits, deferred effects, the slot bank and the streams (R190, R199, R200, R206, R215,
R373, R374, R503, R505). -/

namespace Sys2Proof.Machine

/-- What the heat that starts runs. -/
structure HeatRun where
  /-- The heat program, and that of the held heat's turn which it takes (R373). -/
  prog : Nat
  displaced : Option Nat
  /-- The release names the heat program that has just run (R206). -/
  replay : Bool
  /-- HOLD_IDX named it. -/
  armed : Bool
  level : Nat
  start : Nat
  cls : Nat
  entry : HeatEntry
  deriving DecidableEq, Repr

/-- The held program that HOLD_IDX arms, with its entry (R373) (readings: log entry 39). -/
def Device.armedHold (d : Device) (q : Plan) : Option (Nat × HeatEntry) :=
  let w := d.get (pageBlt + 0x124)
  if bit w 31 then (q.heats[bits w 15 0]?).bind (fun h => if h.kind = 2 then some (bits w 15 0, h) else none) else none

/-- The heat that a release starts (R206, R373): none when the plan has no such heat program (readings: log entry 39). -/
def Device.heatRun (d : Device) (q : Plan) (r : Release) : Option HeatRun :=
  let named := (d.nextProgram q).1
  let cls := r.classes.getD (d.node / 16) 0
  match d.armedHold q with
  | some (i, h) => some ⟨i, some named, r.replay, true, r.level, r.start, cls, h⟩
  | none => (q.heats[named]?).map (fun h => ⟨named, none, r.replay, false, r.level, r.start, cls, h⟩)

/-- The heat runs the heat program that has just run, with the same inputs (R206) (readings: log entry 39). -/
def HeatRun.again (x : HeatRun) : Bool := x.replay && !x.armed

/-- Staged settings of programs and of a replaced shard take effect (R372, R374). -/
def Part.startPrograms (p : Part) (start : Nat) : Part :=
  if p.dev.billet.replaced then p.installShard start else p.onDev (·.applyPrograms start)

/-! ### Streams (R190) -/

/-- The stream that a core runs: on a replay at the same streams the resident one, else the one fetched for the heat (readings: log entry 37). -/
def Part.loadStream (q : Plan) (x : HeatRun) (old : Nat) (p : Part) (c : Nat) : Part :=
  if x.again && q.runLevel old == q.runLevel x.level then p
  else
    let fits := match (p.dev.core c).spare with
      | some s => s.program == x.prog && q.runLevel s.level == q.runLevel x.level
      | none => false
    let p := if fits then p else p.fetchInto q x.prog x.level c
    p.onDev (·.onCore c (fun y => match y.spare with
      | some s => { y with stream := s.words, poisoned := s.poisoned, dead := s.dead, spare := none }
      | none => y))

/-- The heat length that the streams name: the largest LEN + 1. A heat no stream of which holds a word has none: the
length is then a free value. -/
def Device.streamedLength (d : Device) : Nat :=
  let l := d.usable.filter (fun c => !((d.core c).stream.isEmpty))
  if l = [] then (Config.heatLength d.free).toNat + 1
  else l.foldl (fun m c => Nat.max m (streamLen (d.core c).stream + 1)) 0

/-- A core's sequencer at the heat's start (R219): halted when its directory entry was poisoned (R618). A core to which the plan
gives no words in the heat has no BOUND word to issue (readings: log entry 38). -/
def Device.startSeq (x : HeatRun) (d : Device) (c : Nat) : Device :=
  let y := d.core c
  let run := if y.dead then 4 else if x.entry.kind = 2 then 3 else 2
  let d := d.set (pageSeq c + 0x100) (run + x.cls % 16 * 0x10 + x.level % 8 * 0x100)
  let d := ((d.set (pageSeq c + 0x104) x.prog).set64 (pageSeq c + 0x108) x.start).set (pageSeq c + 0x110) 0
  d.onCore c (fun y => { y with guards := [], window := none, bound := y.stream.isEmpty && !y.dead, runs := [], attnPages := [] })

/-! ### The module -/

/-- The new level in force, with its concurrency limit (R503, R505) (readings: log entry 40). -/
def Device.enterLevel (d : Device) (level : Nat) : Device :=
  let d := d.set (pagePwr + 0x100) (level % 8 + concurrency level % 8 * 0x10 + level % 8 * 0x100)
  { d with power := { d.power with clockDone := true, railDone := true } }

/-- A die that sleeps in S1 has woken for the start tick (R508). -/
def Device.wakeForStart (d : Device) : Device :=
  (List.range 4).foldl (fun d i => if d.sleepState i = 1 then d.setSleep i 0 else d) d

/-- The deferred signals applied at the commit in increasing die index, then in stream order, those of other modules last
(R199, R243); a replay's start discards them (readings: log entry 38). -/
def Device.commitSignals (d : Device) (replay : Bool) : Device :=
  if replay then { d with deferred := [] } else
  let l := sortByKey (fun (e : Deferred) => (e.die * 1024 + e.core) * 8192 + e.idx) d.deferred
  l.foldl (fun d e => d.applyMsg e.msg) { d with deferred := [] }

/-- LAST_PAUSE at the end of a held heat (R380) (readings: log entry 39). -/
def Device.endPause (d : Device) (start : Nat) : Device :=
  if d.heatState = 3 then d.set (pageBlt + 0x148) (Nat.min ((start - d.heat.start) / 1000) 0xFFFFFFFF) else d

/-- The stress of a heat: the kinds that PROOF_CFG enables, in a maintenance heat that the domain runs at P0 (R579). -/
def Device.stressFor (d : Device) (x : HeatRun) : Nat :=
  if x.entry.kind = 1 ∧ x.level = 0 then bits (d.get (pageHis + 0x10C)) 2 0 else 0

/-- The maintenance heat whose proofs are compared, and the stress that it runs under; soaking stops at the start of any other
heat (R578 to R581). -/
def Device.startProof (d : Device) (x : HeatRun) : Device :=
  let stress := d.stressFor x
  let d := { d with power := { d.power with stress := stress }, hk := { d.hk with soak := if bit stress 2 then d.hk.soak else [] } }
  if x.entry.kind = 1 then { d with work := { d.work with proof := some (x.prog, stress != 0, true) } } else d

/-- The heat control logic at the heat's start (R207, R221) (readings: log entry 38). -/
def Device.startControl (d : Device) (x : HeatRun) : Device :=
  let len := d.streamedLength
  let d := if d.usable.all (fun c => (d.core c).stream.isEmpty) then d.drawn else d
  let d := (d.set64 (pageHeat + 0x10C) (d.heatNum + 1)).setHeatState (if x.entry.kind = 2 then 3 else 2)
  let d := if x.again then d.count (pageHeat + 0x120) else d
  let d := if x.armed then d.setBits (pageBlt + 0x124) 31 31 0 else d
  (d.onBillet (fun b => { b with displaced := x.displaced })).onHeat (fun h => { h with
    prog := x.prog, kind := x.entry.kind, len := len, start := x.start, cls := x.cls
    stressed := h.stressNext, stressNext := false, dies := [], proposals := [], holdDone := false, arrived := false, modules := [], groups := [], release := none
    replays := if x.again then h.replays + 1 else 0 })

/-- The heat starts with its streams loaded (readings: log entry 38). -/
def Part.beginHeat (p : Part) (x : HeatRun) : Part :=
  let p := p.serveBoundary x.start x.cls x.replay x.entry
  let p := p.onDev (fun d =>
    let d := ((d.commitSignals x.replay).endPause x.start).wakeForStart.enterLevel x.level
    (d.usable.foldl (fun d c => d.startSeq x c) (d.startControl x)).startProof x)
  if x.armed then p.beginReplacement else p

/-- HEAT_START. A domain fault by a poisoned directory entry ends it (R618) (readings: log entry 38). -/
def opHeatStart (p : Part) : Part :=
  match p.dev.heat.plan, p.dev.heat.release with
  | some q, some r =>
    if !(p.dev.heat.started) then p
    else
      let p := p.onDev (·.reach r.start)
      let p := p.applyDue r.start false
      let p := match p.dev.heatRun q r with
        | some x => if x.entry.kind = 1 then p.applyDue r.start true else p
        | none => p
      let p := p.startPrograms r.start
      match p.dev.heatRun q r with
      | none => p.onDev (·.reportFault true false)
      | some x =>
        let load := fun (p' : Part) => p.dev.usable.foldl (Part.loadStream q x p.dev.perfLevel) p'
        if (load p).dev.heat.started then (load p).beginHeat x else load (p.beginHeat x)
  | _, _ => p

def execHeatStart (s : State) : Host.Outcome State Fault Refusal := s.onPart opHeatStart

end Sys2Proof.Machine
end

