-- ==== Sys2Proof/Machine/Dispatch.lean ====
section
/-! DEFINITION. The meaning of every command: one arm for each constructor of Instr. -/

namespace Sys2Proof.Machine

/-- The effect of a command on everything but the queue. -/
def exec (i : Instr) (s : State) : Host.Outcome State Fault Refusal :=
  match i with
  | .nop c => Sys2Proof.Machine.execNop c s
  | .heat c => Sys2Proof.Machine.execHeat c s
  | .pass c => Sys2Proof.Machine.execPass c s
  | .passStart c a => Sys2Proof.Machine.execPassStart c a s
  | .strike c a => Sys2Proof.Machine.execStrike c a s
  | .passResult c a => Sys2Proof.Machine.execPassResult c a s
  | .joinPromote c => Sys2Proof.Machine.execJoinPromote c s
  | .drain c => Sys2Proof.Machine.execDrain c s
  | .drainComplete c => Sys2Proof.Machine.execDrainComplete c s
  | .abort c => Sys2Proof.Machine.execAbort c s
  | .abortComplete c a => Sys2Proof.Machine.execAbortComplete c a s
  | .full c => Sys2Proof.Machine.execFull c s
  | .fullOutlier c => Sys2Proof.Machine.execFullOutlier c s
  | .fullAdaptA c => Sys2Proof.Machine.execFullAdaptA c s
  | .fullAdaptB c => Sys2Proof.Machine.execFullAdaptB c s
  | .fullRung3 c => Sys2Proof.Machine.execFullRung3 c s
  | .fullRung4 c => Sys2Proof.Machine.execFullRung4 c s
  | .fullGradPrep c => Sys2Proof.Machine.execFullGradPrep c s
  | .fullGradRows c => Sys2Proof.Machine.execFullGradRows c s
  | .fullGradAdapt c => Sys2Proof.Machine.execFullGradAdapt c s
  | .fullDone c => Sys2Proof.Machine.execFullDone c s
  | .vec c => Sys2Proof.Machine.execVec c s
  | .vecAdd c => Sys2Proof.Machine.execVecAdd c s
  | .vecSub c => Sys2Proof.Machine.execVecSub c s
  | .vecMul c => Sys2Proof.Machine.execVecMul c s
  | .vecFma c => Sys2Proof.Machine.execVecFma c s
  | .vecMin c => Sys2Proof.Machine.execVecMin c s
  | .vecMax c => Sys2Proof.Machine.execVecMax c s
  | .vecAbs c => Sys2Proof.Machine.execVecAbs c s
  | .vecNeg c => Sys2Proof.Machine.execVecNeg c s
  | .vecCompare c => Sys2Proof.Machine.execVecCompare c s
  | .vecSelect c => Sys2Proof.Machine.execVecSelect c s
  | .vecInt32Add c => Sys2Proof.Machine.execVecInt32Add c s
  | .vecAnd c => Sys2Proof.Machine.execVecAnd c s
  | .vecOr c => Sys2Proof.Machine.execVecOr c s
  | .vecShift c => Sys2Proof.Machine.execVecShift c s
  | .vecRecip c => Sys2Proof.Machine.execVecRecip c s
  | .vecDiv c => Sys2Proof.Machine.execVecDiv c s
  | .vecSqrt c => Sys2Proof.Machine.execVecSqrt c s
  | .vecRsqrt c => Sys2Proof.Machine.execVecRsqrt c s
  | .vecExp c => Sys2Proof.Machine.execVecExp c s
  | .vecLog c => Sys2Proof.Machine.execVecLog c s
  | .vecTanh c => Sys2Proof.Machine.execVecTanh c s
  | .vecSin c => Sys2Proof.Machine.execVecSin c s
  | .vecCos c => Sys2Proof.Machine.execVecCos c s
  | .vecConvert c => Sys2Proof.Machine.execVecConvert c s
  | .vecSum c => Sys2Proof.Machine.execVecSum c s
  | .vecReduceMax c => Sys2Proof.Machine.execVecReduceMax c s
  | .vecReduceMin c => Sys2Proof.Machine.execVecReduceMin c s
  | .vecArgmax c => Sys2Proof.Machine.execVecArgmax c s
  | .vecDone c => Sys2Proof.Machine.execVecDone c s
  | .xfer c => Sys2Proof.Machine.execXfer c s
  | .transferDone place => Sys2Proof.Machine.execTransferDone place s
  | .treeSend c => Sys2Proof.Machine.execTreeSend c s
  | .treeAdd c => Sys2Proof.Machine.execTreeAdd c s
  | .treeStepDone c => Sys2Proof.Machine.execTreeStepDone c s
  | .epi c => Sys2Proof.Machine.execEpi c s
  | .epilogueStart c => Sys2Proof.Machine.execEpilogueStart c s
  | .epilogueDone c => Sys2Proof.Machine.execEpilogueDone c s
  | .attn c => Sys2Proof.Machine.execAttn c s
  | .walk k errors => Sys2Proof.Machine.execWalk k errors s
  | .walkRetry k => Sys2Proof.Machine.execWalkRetry k s
  | .sample c => Sys2Proof.Machine.execSample c s
  | .signalCounterAdd c => Sys2Proof.Machine.execSignalCounterAdd c s
  | .signalFlagSet c => Sys2Proof.Machine.execSignalFlagSet c s
  | .signalBarrierArrive c => Sys2Proof.Machine.execSignalBarrierArrive c s
  | .waitCounter c => Sys2Proof.Machine.execWaitCounter c s
  | .waitFlag c => Sys2Proof.Machine.execWaitFlag c s
  | .waitBarrier c => Sys2Proof.Machine.execWaitBarrier c s
  | .waitOutcome c => Sys2Proof.Machine.execWaitOutcome c s
  | .guardDeadline c => Sys2Proof.Machine.execGuardDeadline c s
  | .window c => Sys2Proof.Machine.execWindow c s
  | .reheat c => Sys2Proof.Machine.execReheat c s
  | .bound c => Sys2Proof.Machine.execBound c s
  | .streamFetch c => Sys2Proof.Machine.execStreamFetch c s
  | .planLoad agent => Sys2Proof.Machine.execPlanLoad agent s
  | .planLoadDone => Sys2Proof.Machine.execPlanLoadDone s
  | .planStart agent => Sys2Proof.Machine.execPlanStart agent s
  | .holdDone agent => Sys2Proof.Machine.execHoldDone agent s
  | .dieArrive d => Sys2Proof.Machine.execDieArrive d s
  | .boundaryTimeout => Sys2Proof.Machine.execBoundaryTimeout s
  | .heatStart => Sys2Proof.Machine.execHeatStart s
  | .admission d space => Sys2Proof.Machine.execAdmission d space s
  | .cowCopyDone d space => Sys2Proof.Machine.execCowCopyDone d space s
  | .adapterStageDone d k => Sys2Proof.Machine.execAdapterStageDone d k s
  | .shardAdmitNote d entry kind ntok pos pages home record => Sys2Proof.Machine.execShardAdmitNote d entry kind ntok pos pages home record s
  | .shardAdmitAck d entry holder starved => Sys2Proof.Machine.execShardAdmitAck d entry holder starved s
  | .submitNotify d o => Sys2Proof.Machine.execSubmitNotify d o s
  | .generateRecord r space => Sys2Proof.Machine.execGenerateRecord r space s
  | .adapterLoadRecord r => Sys2Proof.Machine.execAdapterLoadRecord r s
  | .adapterLoadDone r => Sys2Proof.Machine.execAdapterLoadDone r s
  | .adapterRetireRecord r => Sys2Proof.Machine.execAdapterRetireRecord r s
  | .grammarInstallRecord r => Sys2Proof.Machine.execGrammarInstallRecord r s
  | .grammarRemoveRecord r => Sys2Proof.Machine.execGrammarRemoveRecord r s
  | .syncCounterAdd o v agent => Sys2Proof.Machine.execSyncCounterAdd o v agent s
  | .syncFlagSet o agent => Sys2Proof.Machine.execSyncFlagSet o agent s
  | .syncBarrierArrive o agent => Sys2Proof.Machine.execSyncBarrierArrive o agent s
  | .syncWaitEnter o cond v consume agent deadline => Sys2Proof.Machine.execSyncWaitEnter o cond v consume agent deadline s
  | .waitDeadline place => Sys2Proof.Machine.execWaitDeadline place s
  | .parentRelease o => Sys2Proof.Machine.execParentRelease o s
  | .syncInitCounter agent => Sys2Proof.Machine.execSyncInitCounter agent s
  | .syncInitFlag agent => Sys2Proof.Machine.execSyncInitFlag agent s
  | .syncInitBarrier agent => Sys2Proof.Machine.execSyncInitBarrier agent s
  | .syncFree agent => Sys2Proof.Machine.execSyncFree agent s
  | .syncAdd agent => Sys2Proof.Machine.execSyncAdd agent s
  | .syncSet agent => Sys2Proof.Machine.execSyncSet agent s
  | .syncClear agent => Sys2Proof.Machine.execSyncClear agent s
  | .syncArrive agent => Sys2Proof.Machine.execSyncArrive agent s
  | .syncClrSticky agent => Sys2Proof.Machine.execSyncClrSticky agent s
  | .syncCmdReserved code agent => Sys2Proof.Machine.execSyncCmdReserved code agent s
  | .dbgSelWrite v agent => Sys2Proof.Machine.execDbgSelWrite v agent s
  | .timingSend => Sys2Proof.Machine.execTimingSend s
  | .timingSilence => Sys2Proof.Machine.execTimingSilence s
  | .tbNowLoRead d => Sys2Proof.Machine.execTbNowLoRead d s
  | .dataFrame p f h payload => Sys2Proof.Machine.execDataFrame p f h payload s
  | .signalCell p f obj sop defer value agent => Sys2Proof.Machine.execSignalCell p f obj sop defer value agent s
  | .barArriveCell p f obj agent => Sys2Proof.Machine.execBarArriveCell p f obj agent s
  | .barReleaseCell p f obj => Sys2Proof.Machine.execBarReleaseCell p f obj s
  | .barFaultCell p f obj => Sys2Proof.Machine.execBarFaultCell p f obj s
  | .heatArriveCell p f heatNum replay fault marks level cls missing => Sys2Proof.Machine.execHeatArriveCell p f heatNum replay fault marks level cls missing s
  | .heatReleaseCell p f heatNum start level replay fault classes => Sys2Proof.Machine.execHeatReleaseCell p f heatNum start level replay fault classes s
  | .clockRelock => Sys2Proof.Machine.execClockRelock s
  | .railRamp => Sys2Proof.Machine.execRailRamp s
  | .timingRequest p f t1 => Sys2Proof.Machine.execTimingRequest p f t1 s
  | .timingResponse p f t1 t2 t3 t4 offMaster offGroup => Sys2Proof.Machine.execTimingResponse p f t1 t2 t3 t4 offMaster offGroup s
  | .trainCell p f role seq sent turnaround => Sys2Proof.Machine.execTrainCell p f role seq sent turnaround s
  | .helloCell p f nodeId groupId port serial nodeValid groupValid report wiringOk => Sys2Proof.Machine.execHelloCell p f nodeId groupId port serial nodeValid groupValid report wiringOk s
  | .ringDiscCell p f origin smallest groups => Sys2Proof.Machine.execRingDiscCell p f origin smallest groups s
  | .faultCell p f node evt => Sys2Proof.Machine.execFaultCell p f node evt s
  | .groupReset p f => Sys2Proof.Machine.execGroupReset p f s
  | .doneFrame p f opid status session => Sys2Proof.Machine.execDoneFrame p f opid status session s
  | .portTraining p lock preempt rate => Sys2Proof.Machine.execPortTraining p lock preempt rate s
  | .trainingDone p figures => Sys2Proof.Machine.execTrainingDone p figures s
  | .retrain p agent => Sys2Proof.Machine.execRetrain p agent s
  | .linkDown p => Sys2Proof.Machine.execLinkDown p s
  | .enumStart => Sys2Proof.Machine.execEnumStart s
  | .enumToken value => Sys2Proof.Machine.execEnumToken value s
  | .enumReportTimeout => Sys2Proof.Machine.execEnumReportTimeout s
  | .ringDiscTimeout => Sys2Proof.Machine.execRingDiscTimeout s
  | .bhtInit role source cookie second hostKey hostNonce => Sys2Proof.Machine.execBhtInit role source cookie second hostKey hostNonce s
  | .bhtFinish k proof => Sys2Proof.Machine.execBhtFinish k proof s
  | .bhtClose k => Sys2Proof.Machine.execBhtClose k s
  | .bhtWrite k m => Sys2Proof.Machine.execBhtWrite k m s
  | .bhtRead k m errors => Sys2Proof.Machine.execBhtRead k m errors s
  | .bhtAck k m => Sys2Proof.Machine.execBhtAck k m s
  | .bhtSyncRead k m => Sys2Proof.Machine.execBhtSyncRead k m s
  | .bhtWatch k m => Sys2Proof.Machine.execBhtWatch k m s
  | .bhtNotify session o => Sys2Proof.Machine.execBhtNotify session o s
  | .bhtStoreData k m => Sys2Proof.Machine.execBhtStoreData k m s
  | .bhtKeepalive k m => Sys2Proof.Machine.execBhtKeepalive k m s
  | .storeRead node object offset len => Sys2Proof.Machine.execStoreRead node object offset len s
  | .bhtRetxTimeout session msn => Sys2Proof.Machine.execBhtRetxTimeout session msn s
  | .bhtAckTimer session => Sys2Proof.Machine.execBhtAckTimer session s
  | .handshakeTimeout session => Sys2Proof.Machine.execHandshakeTimeout session s
  | .sessionIdleTimeout session => Sys2Proof.Machine.execSessionIdleTimeout session s
  | .cookieKeyChange => Sys2Proof.Machine.execCookieKeyChange s
  | .neighborSolicitation p source target sourceMac => Sys2Proof.Machine.execNeighborSolicitation p source target sourceMac s
  | .neighborAdvertisement p target mac => Sys2Proof.Machine.execNeighborAdvertisement p target mac s
  | .gatewaySolicit p => Sys2Proof.Machine.execGatewaySolicit p s
  | .lldpSend p => Sys2Proof.Machine.execLldpSend p s
  | .closeAll agent => Sys2Proof.Machine.execCloseAll agent s
  | .billetFetch agent => Sys2Proof.Machine.execBilletFetch agent s
  | .fetchTimeout request => Sys2Proof.Machine.execFetchTimeout request s
  | .shardVerifyDone => Sys2Proof.Machine.execShardVerifyDone s
  | .abandon agent => Sys2Proof.Machine.execAbandon agent s
  | .programBatchStart d anvils => Sys2Proof.Machine.execProgramBatchStart d anvils s
  | .programRowStep d stuck => Sys2Proof.Machine.execProgramRowStep d stuck s
  | .programSettleEnd d => Sys2Proof.Machine.execProgramSettleEnd d s
  | .programBatchDone d => Sys2Proof.Machine.execProgramBatchDone d s
  | .vmClear d agent => Sys2Proof.Machine.execVmClear d agent s
  | .vmClearGranule d => Sys2Proof.Machine.execVmClearGranule d s
  | .dramScrubRead d stack error => Sys2Proof.Machine.execDramScrubRead d stack error s
  | .coreStoreScrubRead d error => Sys2Proof.Machine.execCoreStoreScrubRead d error s
  | .sramScrubRead error => Sys2Proof.Machine.execSramScrubRead error s
  | .scrubWriteback d => Sys2Proof.Machine.execScrubWriteback d s
  | .repairCopyDone d => Sys2Proof.Machine.execRepairCopyDone d s
  | .converterStepDone d reading => Sys2Proof.Machine.execConverterStepDone d reading s
  | .injectTrigger d bit => Sys2Proof.Machine.execInjectTrigger d bit s
  | .droopTrip d => Sys2Proof.Machine.execDroopTrip d s
  | .mcInject d agent => Sys2Proof.Machine.execMcInject d agent s
  | .selfCal d agent => Sys2Proof.Machine.execSelfCal d agent s
  | .selfCalDone d residual gain offset => Sys2Proof.Machine.execSelfCalDone d residual gain offset s
  | .chMinmaxRead d ch => Sys2Proof.Machine.execChMinmaxRead d ch s
  | .housekeepingRound power => Sys2Proof.Machine.execHousekeepingRound power s
  | .throttleRelease => Sys2Proof.Machine.execThrottleRelease s
  | .quenchClr agent => Sys2Proof.Machine.execQuenchClr agent s
  | .temperBoundary d => Sys2Proof.Machine.execTemperBoundary d s
  | .temperPassDone d => Sys2Proof.Machine.execTemperPassDone d s
  | .refMeasure errors => Sys2Proof.Machine.execRefMeasure errors s
  | .idleS1Expire d => Sys2Proof.Machine.execIdleS1Expire d s
  | .idleS2Expire d => Sys2Proof.Machine.execIdleS2Expire d s
  | .idleS3Expire d => Sys2Proof.Machine.execIdleS3Expire d s
  | .s1SelfWake d => Sys2Proof.Machine.execS1SelfWake d s
  | .dieWake d => Sys2Proof.Machine.execDieWake d s
  | .wake agent => Sys2Proof.Machine.execWake agent s
  | .wakeComplete d => Sys2Proof.Machine.execWakeComplete d s
  | .pwrOkRise => Sys2Proof.Machine.execPwrOkRise s
  | .powerDetectorTrip => Sys2Proof.Machine.execPowerDetectorTrip s
  | .resetIn => Sys2Proof.Machine.execResetIn s
  | .watchdogExpire processor d => Sys2Proof.Machine.execWatchdogExpire processor d s
  | .sysReset agent => Sys2Proof.Machine.execSysReset agent s
  | .resetStretchEnd => Sys2Proof.Machine.execResetStretchEnd s
  | .bootStepDone => Sys2Proof.Machine.execBootStepDone s
  | .coreRst agent => Sys2Proof.Machine.execCoreRst agent s
  | .coreResetAct => Sys2Proof.Machine.execCoreResetAct s
  | .coreResetDone => Sys2Proof.Machine.execCoreResetDone s
  | .routerFault c => Sys2Proof.Machine.execRouterFault c s
  | .fabricFault unit => Sys2Proof.Machine.execFabricFault unit s
  | .submit agent => Sys2Proof.Machine.execSubmit agent s
  | .hkCommitSubmit pages apply temper => Sys2Proof.Machine.execHkCommitSubmit pages apply temper s
  | .commitCheckDone => Sys2Proof.Machine.execCommitCheckDone s
  | .commitApply tag => Sys2Proof.Machine.execCommitApply tag s
  | .withdraw agent => Sys2Proof.Machine.execWithdraw agent s
  | .stagedImageWrite off v agent => Sys2Proof.Machine.execStagedImageWrite off v agent s
  | .stageDiscard page agent => Sys2Proof.Machine.execStageDiscard page agent s
  | .blkReset page key agent => Sys2Proof.Machine.execBlkReset page key agent s
  | .blockReset page => Sys2Proof.Machine.execBlockReset page s
  | .lockSet page agent => Sys2Proof.Machine.execLockSet page agent s
  | .capClear page agent => Sys2Proof.Machine.execCapClear page agent s
  | .evtClear page bits agent => Sys2Proof.Machine.execEvtClear page bits agent s
  | .accLogClear agent => Sys2Proof.Machine.execAccLogClear agent s
  | .cntClr page agent => Sys2Proof.Machine.execCntClr page agent s
  | .registerWrite off v width agent => Sys2Proof.Machine.execRegisterWrite off v width agent s
  | .rollbackAdv agent => Sys2Proof.Machine.execRollbackAdv agent s
  | .fuseBlown => Sys2Proof.Machine.execFuseBlown s
  | .extend agent => Sys2Proof.Machine.execExtend agent s
  | .quote agent => Sys2Proof.Machine.execQuote agent s
  | .quoteDone => Sys2Proof.Machine.execQuoteDone s
  | .dbgChal agent => Sys2Proof.Machine.execDbgChal agent s
  | .dbgUnlock agent => Sys2Proof.Machine.execDbgUnlock agent s
  | .challengeExpire => Sys2Proof.Machine.execChallengeExpire s
  | .keyLoad agent => Sys2Proof.Machine.execKeyLoad agent s
  | .keyLoadDone => Sys2Proof.Machine.execKeyLoadDone s
  | .keyErase agent => Sys2Proof.Machine.execKeyErase agent s
  | .proofCompare entry => Sys2Proof.Machine.execProofCompare entry s
  | .dump agent => Sys2Proof.Machine.execDump agent s
  | .dumpDone => Sys2Proof.Machine.execDumpDone s
  | .entdaa addr => Sys2Proof.Machine.execEntdaa addr s
  | .i3cOffsetWrite off => Sys2Proof.Machine.execI3cOffsetWrite off s
  | .i3cRegisterRead => Sys2Proof.Machine.execI3cRegisterRead s
  | .i3cRegisterWrite off v => Sys2Proof.Machine.execI3cRegisterWrite off v s
  | .pwrOkFall => Sys2Proof.Machine.execPwrOkFall s
  | .resetInRelease => Sys2Proof.Machine.execResetInRelease s
  | .inputRestored => Sys2Proof.Machine.execInputRestored s
  | .trstN => Sys2Proof.Machine.execTrstN s
  | .tapAccess tms tdi => Sys2Proof.Machine.execTapAccess tms tdi s

end Sys2Proof.Machine
end

