-- ==== Sys2Proof/Machine/Wire.lean ====
section
/-! DEFINITION. Frames and packets as their bytes: every multi-byte field in network byte order, data in increasing address order
(R9, R422 to R425, R445, R446). -/

namespace Sys2Proof.Machine

/-! ### Tchivin mesh frames (R422 to R425) -/

/-- Flag bits as a byte, bit 0 first. -/
def flagByte (l : List Bool) : Nat := l.foldr (fun b a => flag b + 2 * a) 0

/-- The 16 bytes of group classes: 4 bits a group, group 0 in the high nibble of the first byte (R424). -/
def classBytes (l : List Nat) : List Byte :=
  (List.range 16).map (fun i => BitVec.ofNat 8 (16 * (l.getD (2 * i) 0 % 16) + l.getD (2 * i + 1) 0 % 16))

/-- The classes that those bytes hold. -/
def bytesClasses (l : List Byte) : List Nat := l.flatMap (fun b => [b.toNat / 16, b.toNat % 16])

/-- The data header (R425). -/
def dataHeader (h : DataHdr) : List Byte :=
  beBytes 5 h.addr.toNat ++ beBytes 1 (flagByte [h.sched, h.last, h.sig, h.defer, h.bht]) ++ beBytes 1 h.len ++
    beBytes 1 h.tenant.toNat ++ beBytes 8 h.poison.toNat ++ beBytes 4 h.agent.toNat ++ beBytes 2 h.obj.toNat ++
    beBytes 1 h.sop.toNat ++ [0] ++ beBytes 4 h.value.toNat ++ beBytes 4 h.opid.toNat

/-- What follows the Tchivin header, by type (R424). -/
def Cell.payload : Cell → List Byte
  | .data h l => dataHeader h ++ padTo (64 * h.len) 0 l
  | .signal o sop v agent defer => beBytes 2 o ++ beBytes 1 sop ++ beBytes 1 (flag defer) ++ beBytes 4 v ++ beBytes 4 agent
  | .barArrive o agent => beBytes 2 o ++ beBytes 4 agent
  | .barRelease o => beBytes 2 o
  | .barFault o => beBytes 2 o
  | .heatArrive n replay failed unlock level cls missing stress =>
    beBytes 4 n ++ beBytes 1 (flagByte [replay, failed, unlock, stress]) ++ beBytes 1 level ++ beBytes 1 cls ++ beBytes 2 missing
  | .heatRelease n start level replay failed classes =>
    beBytes 4 n ++ beBytes 8 start ++ beBytes 1 level ++ beBytes 1 (flagByte [replay, failed]) ++ classBytes classes
  | .timing role t1 t2 t3 master group =>
    beBytes 1 role ++ beBytes 8 t1 ++ beBytes 8 t2 ++ beBytes 8 t3 ++ (if role = 1 then beBytes 1 master ++ beBytes 1 group else [])
  | .train role seq sent turn => beBytes 1 role ++ beBytes 4 seq ++ beBytes 8 sent ++ beBytes 4 turn
  | .hello node group port serial nodeValid groupValid report ok =>
    beBytes 1 node ++ beBytes 1 group ++ beBytes 1 port ++ beBytes 8 serial ++ beBytes 1 (flagByte [nodeValid, groupValid, report, ok])
  | .ringDisc origin smallest groups => beBytes 8 origin ++ beBytes 8 smallest ++ beBytes 1 groups
  | .fault node evt => beBytes 2 node ++ beBytes 2 evt
  | .done opid status session => beBytes 4 opid ++ beBytes 1 status ++ beBytes 2 session

/-- The Tchivin header (R423): VER 1 with EXPRESS, TYPE, DST and SRC in bits 15:7, HOPS, SEQ, HEAT. -/
def tchivinHeader (src dst hops seq heat : Nat) (c : Cell) : List Byte :=
  beBytes 1 (0x10 + flag c.express) ++ beBytes 1 c.type ++ beBytes 2 (128 * dst) ++ beBytes 2 (128 * src) ++ beBytes 1 hops ++
    [0] ++ beBytes 4 seq ++ beBytes 4 heat

/-- The mesh MAC address of a node's port, and that of a module without an address (R423). -/
def meshMac (node port : Nat) : Nat := 0x020000000000 + 128 * node + port
def helloMac (serial : Nat) : Nat := 0x020000010000 + serial % 2 ^ 16

/-- A mesh frame from its destination address up to its check sequence; a cell fills its 30 bytes of payload (R422 to R424). -/
def meshFrame (destMac srcMac src dst hops seq heat : Nat) (c : Cell) : List Byte :=
  beBytes 6 destMac ++ beBytes 6 srcMac ++ beBytes 2 0x88B5 ++ tchivinHeader src dst hops seq heat c ++
    (if c.express then padTo 30 0 c.payload else c.payload)

/-- A frame that has left a port, as its bytes: to the neighbour's own address, or broadcast before node addresses exist. The
port number in the neighbour's address is that of the port it faces: 0 faces 1, 2 faces 3, 4 faces 5, 6 faces 7 (R44). -/
def Device.frameBytes (d : Device) (port src dst hops seq heat : Nat) (broadcast : Bool) (c : Cell) : List Byte :=
  if broadcast then meshFrame 0xFFFFFFFFFFFF (helloMac d.serial) src dst hops seq heat c
  else meshFrame (meshMac (bits (d.get (pagePort port + 0x104)) 24 16) (Nat.xor port 1)) (meshMac d.node port) src dst hops seq heat c

/-- A big-endian field of n bytes at an offset. -/
def beField (l : List Byte) (off n : Nat) : Nat := beNat ((l.drop off).take n)

/-- The data header and granules of a payload (R425). -/
def readData (l : List Byte) : Cell :=
  let fl := beField l 5 1
  let len := beField l 6 1
  .data
    { addr := BitVec.ofNat 40 (beField l 0 5), sched := bit fl 0, last := bit fl 1, sig := bit fl 2, defer := bit fl 3, bht := bit fl 4
      len := len, tenant := BitVec.ofNat 8 (beField l 7 1), poison := BitVec.ofNat 64 (beField l 8 8)
      agent := BitVec.ofNat 26 (beField l 0x10 4), obj := BitVec.ofNat 14 (beField l 0x14 2), sop := BitVec.ofNat 8 (beField l 0x16 1)
      value := BitVec.ofNat 32 (beField l 0x18 4), opid := BitVec.ofNat 32 (beField l 0x1C 4) }
    ((l.drop 32).take (64 * len))

/-- The frame that a TYPE and a payload spell (R424); reserved types spell none. -/
def readCell (type : Nat) (l : List Byte) : Option Cell :=
  let f := beField l
  match type with
  | 0x01 => some (readData l)
  | 0x02 => some (.signal (f 0 2 % 2 ^ 14) (f 2 1) (f 4 4) (f 8 4 % 2 ^ 26) (bit (f 3 1) 0))
  | 0x03 => some (.barArrive (f 0 2 % 2 ^ 14) (f 2 4 % 2 ^ 26))
  | 0x04 => some (.barRelease (f 0 2 % 2 ^ 14))
  | 0x05 => some (.barFault (f 0 2 % 2 ^ 14))
  | 0x06 => some (.heatArrive (f 0 4) (bit (f 4 1) 0) (bit (f 4 1) 1) (bit (f 4 1) 2) (f 5 1) (f 6 1) (f 7 2 % 512) (bit (f 4 1) 3))
  | 0x07 => some (.heatRelease (f 0 4) (f 4 8) (f 12 1) (bit (f 13 1) 0) (bit (f 13 1) 1) (bytesClasses ((l.drop 14).take 16)))
  | 0x08 => some (.timing (f 0 1) (f 1 8) (f 9 8) (f 17 8) (f 25 1) (f 26 1))
  | 0x09 => some (.train (f 0 1) (f 1 4) (f 5 8) (f 13 4))
  | 0x0A => some (.hello (f 0 1) (f 1 1) (f 2 1) (f 3 8) (bit (f 11 1) 0) (bit (f 11 1) 1) (bit (f 11 1) 2) (bit (f 11 1) 3))
  | 0x0B => some (.ringDisc (f 0 8) (f 8 8) (f 16 1))
  | 0x0C => some (.fault (f 0 2 % 512) (f 2 2))
  | 0x0D => some (.done (f 0 4) (f 4 1) (f 5 2))
  | _ => none

/-- A mesh frame as a port of a node reads it, without its check sequence: its header and what it carries; none where the
EtherType, the version or the type is another (R422 to R424). -/
def readFrame (node port : Nat) (l : List Byte) (fcsOk macsecOk : Bool) : Option (MeshHdr × Cell) :=
  let h := l.drop 14
  if beField l 12 2 ≠ 0x88B5 ∨ beField h 0 1 / 16 ≠ 1 then none
  else (readCell (beField h 1 1) (h.drop 16)).map (fun c =>
    ({ toOwn := beField l 0 6 == meshMac node port, broadcast := beField l 0 6 == 0xFFFFFFFFFFFF, express := bit (beField h 0 1) 0
       dst := BitVec.ofNat 9 (beField h 2 2 / 128), src := BitVec.ofNat 9 (beField h 4 2 / 128), hops := BitVec.ofNat 8 (beField h 6 1)
       seq := BitVec.ofNat 32 (beField h 8 4), heat := BitVec.ofNat 32 (beField h 12 4), fcsOk := fcsOk, macsecOk := macsecOk }, c))

/-! ### BHT packets (R445, R446) -/

/-- The BHT header of a packet type (R445). -/
def bhtHeader (type tenant frag session pn : Nat) : List Byte :=
  beBytes 1 (0x10 + type) ++ beBytes 1 tenant ++ beBytes 1 frag ++ [0] ++ beBytes 4 session ++ beBytes 8 pn

/-- The message header and data of a DATA body before encryption (R446). -/
def bhtBody (op : Nat) (m : BhtMsg) : List Byte :=
  beBytes 1 op ++ beBytes 1 (flagByte [m.first, m.last, m.sig, m.ece]) ++ beBytes 1 m.status.toNat ++ beBytes 1 m.node.toNat ++
    beBytes 4 m.msn ++ beBytes 4 m.opid.toNat ++ beBytes 4 m.ackMsn ++ beBytes 8 m.sack.toNat ++ beBytes 8 m.addr.toNat ++
    beBytes 4 m.len ++ beBytes 2 m.obj.toNat ++ beBytes 1 m.sop ++ [0] ++ beBytes 4 m.value.toNat ++ beBytes 4 0 ++ m.data

/-- The clear bytes of a DATA packet that the bridge sends, its header and its body; encryption and tag aside (R445). -/
def Device.packetBytes (d : Device) (s pn op : Nat) (m : BhtMsg) : List Byte :=
  bhtHeader 4 (((d.session s).map (·.role)).getD 0) 0 s pn ++ bhtBody op m

/-- The Ethernet and IPv6 headers of every packet that a host port sends: to the gateway, traffic class DSCP with ECT(0), the
session number as flow label, UDP, hop limit 64, from the port's global address to the host's (R444). -/
def Device.hostHeaders (d : Device) (port s len : Nat) : List Byte :=
  let dscp := bits (d.get (pageBht + 0x124)) 7 2
  beBytes 6 (d.bht.gateway.getD 0) ++ beBytes 6 (Config.portMac port).toNat ++ beBytes 2 0x86DD ++
    beBytes 4 (6 * 2 ^ 28 + (4 * dscp + 2) * 2 ^ 20 + s) ++ beBytes 2 len ++ [17, 64] ++ beBytes 16 (d.ip6 0x100) ++
    beBytes 16 (((d.session s).map (·.source)).getD 0)

/-- The OP and message that a body spells (R446). -/
def readBody (l : List Byte) : Nat × BhtMsg :=
  let f := beField l
  (f 0 1,
    { first := bit (f 1 1) 0, last := bit (f 1 1) 1, sig := bit (f 1 1) 2, ece := bit (f 1 1) 3, status := BitVec.ofNat 8 (f 2 1)
      node := BitVec.ofNat 8 (f 3 1), msn := f 4 4, opid := BitVec.ofNat 32 (f 8 4), ackMsn := f 0xC 4
      sack := BitVec.ofNat 64 (f 0x10 8), addr := BitVec.ofNat 64 (f 0x18 8), len := f 0x20 4, obj := BitVec.ofNat 14 (f 0x24 2)
      sop := f 0x26 1, value := BitVec.ofNat 32 (f 0x28 4), data := l.drop 0x30 })

/-- The version, TYPE, TENANT, FRAG, SESSION and PN of a packet (R445). -/
def readHeader (l : List Byte) : Nat × Nat × Nat × Nat × Nat × Nat :=
  (beField l 0 1 / 16, beField l 0 1 % 16, beField l 1 1, beField l 2 1, beField l 4 4, beField l 8 8)

end Sys2Proof.Machine
end

