-- ==== Sys2Proof/WellFormed.lean ====
section
/-! DEFINITION. Which commands are well formed: the operands that a command carries as numbers or lists lie in the ranges
that the spec gives the things they name. Every command has a meaning, well formed or not; an ill-formed one names
nothing that the environment of the module can send. -/

namespace Sys2Proof

/-- The addresses of codeword errors lie in protected memory: DRAM, a core store or the Phievo SRAM (R30, R383, R384). -/
def memoryErrors (l : EccFaults) : Bool := l.all (fun e => decide (e.1.toNat < 0xFF00000000))

/-- Free memory for new lists: granules of the die's DRAM (R26, R295). -/
def freeLists (die : Nat) (l : List Addr) : Bool :=
  l.all (fun a => decide (a.toNat % 64 = 0 ∧ a.toNat / 0x1800000000 = die))

/-- A DATA frame carries 1 to 64 granules, and LEN names them (R425). -/
def frameOk (h : DataHdr) (payload : List Byte) : Bool :=
  decide (1 ≤ h.len ∧ h.len ≤ 64 ∧ payload.length = 64 * h.len)

/-- A session of the bridge, 1 to 4,096 (R447). -/
def sessionOk (s : Nat) : Bool := decide (1 ≤ s ∧ s ≤ 4096)

/-- The clear header of a BHT packet: PN has 64 bits and begins at 1 (R445). -/
def packetOk (k : BhtPacket) : Bool := sessionOk k.session && decide (1 ≤ k.pn ∧ k.pn < 2 ^ 64)

/-- A BHT message: the fields of the message header have their widths, and a segment carries at most 4,096 bytes
(R446). -/
def messageOk (m : BhtMsg) : Bool :=
  decide (m.msn < 2 ^ 32 ∧ m.ackMsn < 2 ^ 32 ∧ m.len < 2 ^ 32 ∧ m.sop < 4 ∧ m.data.length ≤ 4096)

/-- A batch: at most 1,024 anvils of the die, none of them twice (R362). -/
def batchOk (die : Nat) (l : List Nat) : Bool :=
  decide (l.length ≤ 1024) && l.all (fun u => decide (u / 8704 = die)) && decide l.Nodup

/-- A stuck cell stands at a physical column of an anvil of the die, at one of 8 levels (R46, R48). -/
def stuckOk (die : Nat) (s : StuckCell) : Bool := decide (s.anvil / 8704 = die ∧ s.column < 544 ∧ s.level < 8)

/-- A command is well formed. -/
def Instr.wellFormed : Instr → Bool
  | .nop _ => true
  | .heat _ => true
  | .pass _ => true
  | .passStart _ _ => true
  | .strike _ _ => true
  | .passResult _ _ => true
  | .joinPromote _ => true
  | .drain _ => true
  | .drainComplete _ => true
  | .abort _ => true
  | .abortComplete _ _ => true
  | .full _ => true
  | .fullOutlier _ => true
  | .fullAdaptA _ => true
  | .fullAdaptB _ => true
  | .fullRung3 _ => true
  | .fullRung4 _ => true
  | .fullGradPrep _ => true
  | .fullGradRows _ => true
  | .fullGradAdapt _ => true
  | .fullDone _ => true
  | .vec _ => true
  | .vecAdd _ => true
  | .vecSub _ => true
  | .vecMul _ => true
  | .vecFma _ => true
  | .vecMin _ => true
  | .vecMax _ => true
  | .vecAbs _ => true
  | .vecNeg _ => true
  | .vecCompare _ => true
  | .vecSelect _ => true
  | .vecInt32Add _ => true
  | .vecAnd _ => true
  | .vecOr _ => true
  | .vecShift _ => true
  | .vecRecip _ => true
  | .vecDiv _ => true
  | .vecSqrt _ => true
  | .vecRsqrt _ => true
  | .vecExp _ => true
  | .vecLog _ => true
  | .vecTanh _ => true
  | .vecSin _ => true
  | .vecCos _ => true
  | .vecConvert _ => true
  | .vecSum _ => true
  | .vecReduceMax _ => true
  | .vecReduceMin _ => true
  | .vecArgmax _ => true
  | .vecDone _ => true
  | .xfer _ => true
  | .transferDone place => decide (place < 2 ^ 32)
  | .treeSend _ => true
  | .treeAdd _ => true
  | .treeStepDone _ => true
  | .epi _ => true
  | .epilogueStart _ => true
  | .epilogueDone _ => true
  | .attn _ => true
  | .walk _ errors => memoryErrors errors
  | .walkRetry _ => true
  | .sample _ => true
  | .signalCounterAdd _ => true
  | .signalFlagSet _ => true
  | .signalBarrierArrive _ => true
  | .waitCounter _ => true
  | .waitFlag _ => true
  | .waitBarrier _ => true
  | .waitOutcome _ => true
  | .guardDeadline _ => true
  | .window _ => true
  | .reheat _ => true
  | .bound _ => true
  | .streamFetch _ => true
  | .planLoad _ => true
  | .planLoadDone => true
  | .planStart _ => true
  | .holdDone _ => true
  | .dieArrive _ => true
  | .boundaryTimeout => true
  | .heatStart => true
  | .admission d space => freeLists d.val space
  | .cowCopyDone d space => freeLists d.val space
  | .adapterStageDone _ _ => true
  | .shardAdmitNote _ _ _ _ _ pages _ _ => decide (pages ≤ 65536)
  | .shardAdmitAck _ _ _ _ => true
  | .submitNotify _ _ => true
  | .generateRecord _ space => space.all (fun a => decide (a.toNat % 64 = 0 ∧ a.toNat < 0x6000000000))
  | .adapterLoadRecord _ => true
  | .adapterLoadDone _ => true
  | .adapterRetireRecord _ => true
  | .grammarInstallRecord _ => true
  | .grammarRemoveRecord _ => true
  | .syncCounterAdd _ _ _ => true
  | .syncFlagSet _ _ => true
  | .syncBarrierArrive _ _ => true
  | .syncWaitEnter _ _ _ _ _ _ => true
  | .waitDeadline _ => true
  | .parentRelease _ => true
  | .syncInitCounter _ => true
  | .syncInitFlag _ => true
  | .syncInitBarrier _ => true
  | .syncFree _ => true
  | .syncAdd _ => true
  | .syncSet _ => true
  | .syncClear _ => true
  | .syncArrive _ => true
  | .syncClrSticky _ => true
  | .syncCmdReserved _ _ => true
  | .dbgSelWrite _ _ => true
  | .timingSend => true
  | .timingSilence => true
  | .tbNowLoRead _ => true
  | .dataFrame _ _ h payload => frameOk h payload
  | .signalCell _ _ _ _ _ _ _ => true
  | .barArriveCell _ _ _ _ => true
  | .barReleaseCell _ _ _ => true
  | .barFaultCell _ _ _ => true
  | .heatArriveCell _ _ _ _ _ _ _ _ _ => true
  | .heatReleaseCell _ _ _ _ _ _ _ _ => true
  | .clockRelock => true
  | .railRamp => true
  | .timingRequest _ _ _ => true
  | .timingResponse _ _ _ _ _ _ _ _ => true
  | .trainCell _ _ _ _ _ _ => true
  | .helloCell _ _ _ _ _ _ _ _ _ _ => true
  | .ringDiscCell _ _ _ _ _ => true
  | .faultCell _ _ _ _ => true
  | .groupReset _ _ => true
  | .doneFrame _ _ _ _ _ => true
  | .portTraining _ _ _ _ => true
  | .trainingDone _ figures => decide (figures.length = 1024)
  | .retrain _ _ => true
  | .linkDown _ => true
  | .enumStart => true
  | .enumToken _ => true
  | .enumReportTimeout => true
  | .ringDiscTimeout => true
  | .bhtInit _ _ _ second hostKey _ => decide (second < 2 ^ 64 ∧ hostKey.length = 1568)
  | .bhtFinish k _ => packetOk k
  | .bhtClose k => packetOk k
  | .bhtWrite k m => packetOk k && messageOk m
  | .bhtRead k m errors => packetOk k && messageOk m && memoryErrors errors
  | .bhtAck k m => packetOk k && messageOk m
  | .bhtSyncRead k m => packetOk k && messageOk m
  | .bhtWatch k m => packetOk k && messageOk m
  | .bhtNotify session _ => sessionOk session
  | .bhtStoreData k m => packetOk k && messageOk m
  | .bhtKeepalive k m => packetOk k && messageOk m
  | .storeRead _ _ _ len => decide (len ≤ 0x100000)
  | .bhtRetxTimeout session msn => sessionOk session && decide (msn < 2 ^ 32)
  | .bhtAckTimer session => sessionOk session
  | .handshakeTimeout session => sessionOk session
  | .sessionIdleTimeout session => sessionOk session
  | .cookieKeyChange => true
  | .neighborSolicitation _ _ _ _ => true
  | .neighborAdvertisement _ _ _ => true
  | .gatewaySolicit _ => true
  | .lldpSend _ => true
  | .closeAll _ => true
  | .billetFetch _ => true
  | .fetchTimeout request => decide (request < 2 ^ 32)
  | .shardVerifyDone => true
  | .abandon _ => true
  | .programBatchStart d anvils => batchOk d.val anvils
  | .programRowStep d stuck => stuck.all (stuckOk d.val)
  | .programSettleEnd _ => true
  | .programBatchDone _ => true
  | .vmClear _ _ => true
  | .vmClearGranule _ => true
  | .dramScrubRead _ _ _ => true
  | .coreStoreScrubRead _ _ => true
  | .sramScrubRead _ => true
  | .scrubWriteback _ => true
  | .repairCopyDone _ => true
  | .converterStepDone _ reading => decide (0 ≤ reading ∧ reading < 0x80000)
  | .injectTrigger _ _ => true
  | .droopTrip _ => true
  | .mcInject _ _ => true
  | .selfCal _ _ => true
  | .selfCalDone _ _ _ _ => true
  | .chMinmaxRead _ _ => true
  | .housekeepingRound _ => true
  | .throttleRelease => true
  | .quenchClr _ => true
  | .temperBoundary _ => true
  | .temperPassDone _ => true
  | .refMeasure errors => decide (errors.length ≤ 5)
  | .idleS1Expire _ => true
  | .idleS2Expire _ => true
  | .idleS3Expire _ => true
  | .s1SelfWake _ => true
  | .dieWake _ => true
  | .wake _ => true
  | .wakeComplete _ => true
  | .pwrOkRise => true
  | .powerDetectorTrip => true
  | .resetIn => true
  | .watchdogExpire _ _ => true
  | .sysReset _ => true
  | .resetStretchEnd => true
  | .bootStepDone => true
  | .coreRst _ => true
  | .coreResetAct => true
  | .coreResetDone => true
  | .routerFault _ => true
  | .fabricFault _ => true
  | .submit _ => true
  | .hkCommitSubmit pages _ _ => decide (0 < pages.length ∧ pages.length ≤ 256)
  | .commitCheckDone => true
  | .commitApply _ => true
  | .withdraw _ => true
  | .stagedImageWrite _ _ _ => true
  | .stageDiscard _ _ => true
  | .blkReset _ _ _ => true
  | .blockReset _ => true
  | .lockSet _ _ => true
  | .capClear _ _ => true
  | .evtClear _ _ _ => true
  | .accLogClear _ => true
  | .cntClr _ _ => true
  | .registerWrite _ _ width _ => decide (width = 1 ∨ width = 2 ∨ width = 4 ∨ width = 8 ∨ width = 64)
  | .rollbackAdv _ => true
  | .fuseBlown => true
  | .extend _ => true
  | .quote _ => true
  | .quoteDone => true
  | .dbgChal _ => true
  | .dbgUnlock _ => true
  | .challengeExpire => true
  | .keyLoad _ => true
  | .keyLoadDone => true
  | .keyErase _ => true
  | .proofCompare entry => decide (entry < 2 ^ 32)
  | .dump _ => true
  | .dumpDone => true
  | .entdaa _ => true
  | .i3cOffsetWrite _ => true
  | .i3cRegisterRead => true
  | .i3cRegisterWrite _ _ => true
  | .pwrOkFall => true
  | .resetInRelease => true
  | .inputRestored => true
  | .trstN => true
  | .tapAccess _ _ => true

end Sys2Proof
end

