-- ==== Sys2Proof/Safety.lean ====
section
/-! DEFINITION. What counts as a safe run, and the words in which statements speak of a state: the word in front of a core's
stream, and a state with one part of it replaced. -/

namespace Sys2Proof.Machine

/-! ### Safety -/

/-- The invariant of the module's data: memory is in its canonical form. -/
abbrev State.wf (s : State) : Prop := s.part.mem.wf = true

/-- An outcome is safe when the module goes on, in a state that keeps the invariant. -/
def safeOutcome (o : Host.Outcome State Fault Refusal) : Prop := ∃ t : State, o = .next t ∧ t.wf

/-! ### A state with a part replaced -/

/-- The state with another device, the queue and the memory as they were. -/
def State.withDev (s : State) (d : Device) : State := { s with part := { s.part with dev := d } }

/-- The state with another module, the queue as it was. -/
def State.withPart (s : State) (p : Part) : State := { s with part := p }

/-! ### The word in front of a core's stream -/

/-- The word that stands at WORD_PTR of a core's resident stream may issue: it was fetched sound, it lies in the heat's class, its
fields are those that the tables name, no WAIT holds it, and the sequencer issues (R184, R189, R191, R193, R219). -/
structure Device.AtWord (d : Device) (c w : Nat) : Prop where
  word : (d.core c).stream[d.wordPtr c]? = some w
  sound : (d.core c).poisoned.contains (d.wordPtr c) = false
  inHeat : inClass w (d.cls c) = true
  named : wordNamed w = true
  opcode : wOp w ≠ opExt
  free : (d.core c).guardsOf (d.wordPtr c) = []
  issues : d.issues c w = true

/-- The tick of a word: the heat's start and the word's TICK (R184). -/
def Device.wordTick (d : Device) (c w : Nat) : Nat := d.heatStart c + wTick w

/-- The device in which the word in front has issued: its tick has come, ISSUE_CNT has grown, WORD_PTR is one further, and
the poisoned words behind it are dropped (R184, R191, R219, R617). -/
def Device.issued (d : Device) (c w : Nat) : Device :=
  (((d.reach (d.wordTick c w)).count (pageSeq c + 0x114)).bump c).dropPoisoned c 8192

/-- The word's place in the stream, as the engines' queues name it. -/
def Device.queuedWord (d : Device) (c w : Nat) : Queued := ⟨d.wordPtr c, w, false⟩

/-! ### Outputs of the vector engine -/

/-- The elements of an operand of a vector word, in a format. -/
def Part.vecOperand (p : Part) (c fmt count g : Nat) : List U32 :=
  vecDecode fmt (64 * count) (p.mem.read (storeAddr c g) (vecBytes fmt (64 * count)))

/-- The output of an elementwise FP32 operation with a function of SRC_A, SRC_B and the old DST (R174, R175): operands and results pass the
flush of compatibility mode. -/
def Part.elementwise (p : Part) (c : Nat) (v : VecWord) (f : U32 → U32 → U32 → U32) : List Byte :=
  let k := keep p.dev.compat
  vecPack v.fmtOut ((((p.vecOperand c v.fmtIn v.count v.srcA).zip (p.vecOperand c v.fmtIn v.count v.srcB)).zip
    (p.vecOperand c v.fmtOut v.count v.dst)).map (fun e => (vecCode v.fmtOut (k (f (k e.1.1) (k e.1.2) (k e.2)))).code))

/-- The output of compare and select (R175): a function of SRC_A, SRC_B and the code in DST, the operands as the flush of compatibility
mode leaves them, the results codes of the output format. -/
def Part.maskwise (p : Part) (c : Nat) (v : VecWord) (f : U32 → U32 → Nat → Nat) : List Byte :=
  let k := keep p.dev.compat
  vecPack v.fmtOut ((((p.vecOperand c v.fmtIn v.count v.srcA).zip (p.vecOperand c v.fmtIn v.count v.srcB)).zip
    (vecCodes v.fmtOut (64 * v.count) (p.mem.read (storeAddr c v.dst) (vecBytes v.fmtOut (64 * v.count))))).map
    (fun e => f (k e.1.1) (k e.1.2) e.2))

/-- The output of an operation on 32-bit words (R175). -/
def Part.wordwise (p : Part) (c : Nat) (v : VecWord) (f : U32 → U32 → U32) : List Byte :=
  vecPack 5 (((p.vecOperand c 5 v.count v.srcA).zip (p.vecOperand c 5 v.count v.srcB)).map (fun e => (f e.1 e.2).toNat))

/-- The module after a vector operation that is in service has written an output at DST with the given granules poisoned. -/
def Part.vecWritten (p : Part) (c : Nat) (v : VecWord) (out : List Byte) (bad : List Nat) : Part :=
  (p.coreWrite c (storeAddr c v.dst) out bad).onDev (fun d => d.onCore c (fun x => { x with vecQ := headRan x.vecQ }))

/-- The granules of an output that the marks of its sources poison, granule by granule (R403). -/
def Part.vecMarks (p : Part) (c : Nat) (v : VecWord) (out : List Byte) : List Nat :=
  spreadPoison p.mem c (storeAddr c v.dst) out.length (vecSources c v)

/-- The module after a reduction has written its result at DST, its last bytes open, the whole poisoned where a source is (R177, R403). -/
def Part.vecReduced (p : Part) (c : Nat) (v : VecWord) (body : List Byte) : Part :=
  let out := body ++ (List.range (8 - body.length)).map (Config.reducePad c v.dst)
  let bad := (vecSources c v).any (fun s => coreOperandBad p.mem c s.1 s.2)
  p.vecWritten c v out (if bad then granules (storeAddr c v.dst) out.length else [])

/-- The module after a conversion has written its output at DST, the whole poisoned where the scales it reads in SRC_B are (R165, R403). -/
def Part.vecConverted (p : Part) (c : Nat) (v : VecWord) (out : List Byte) : Part :=
  let n := convertScales c v
  let bad := n != 0 && coreOperandBad p.mem c (storeAddr c v.srcB) n
  p.vecWritten c v out (if bad then granules (storeAddr c v.dst) out.length else p.vecMarks c v out)

end Sys2Proof.Machine

namespace Sys2Proof

/-! ### Commands that reach no memory -/

/-- The commands whose effect lies in registers, queues, cells, links and timers alone: no byte of memory, no valid bit and no
poison mark changes. The others read memory through the codeword decoder, which may poison a granule (R385), or write it. -/
def Instr.leavesMemory (i : Instr) : Bool :=
  match i with
  | .nop .. | .heat .. | .passStart .. | .strike .. | .passResult .. | .joinPromote .. | .drain .. | .drainComplete ..
  | .abort .. | .abortComplete .. | .full .. | .fullDone .. | .vec .. | .vecDone .. | .treeSend .. | .treeAdd ..
  | .treeStepDone .. | .epi .. | .attn .. | .signalCounterAdd .. | .signalFlagSet .. | .signalBarrierArrive ..
  | .waitCounter .. | .waitFlag .. | .waitBarrier .. | .waitOutcome .. | .guardDeadline .. | .window .. | .bound ..
  | .planLoad .. | .planStart .. | .holdDone .. | .boundaryTimeout | .shardAdmitAck .. | .syncCounterAdd ..
  | .syncFlagSet .. | .syncBarrierArrive .. | .syncWaitEnter .. | .waitDeadline .. | .parentRelease ..
  | .syncInitCounter .. | .syncInitFlag .. | .syncInitBarrier .. | .syncFree .. | .syncAdd .. | .syncSet ..
  | .syncClear .. | .syncArrive .. | .syncClrSticky .. | .syncCmdReserved .. | .dbgSelWrite .. | .timingSend
  | .timingSilence | .tbNowLoRead .. | .signalCell .. | .barArriveCell .. | .barReleaseCell .. | .barFaultCell ..
  | .heatArriveCell .. | .heatReleaseCell .. | .clockRelock | .railRamp | .timingRequest .. | .timingResponse ..
  | .trainCell .. | .helloCell .. | .ringDiscCell .. | .doneFrame .. | .portTraining .. | .trainingDone ..
  | .retrain .. | .linkDown .. | .enumStart | .enumToken .. | .enumReportTimeout | .ringDiscTimeout | .bhtInit ..
  | .bhtFinish .. | .bhtClose .. | .bhtNotify .. | .storeRead .. | .bhtRetxTimeout .. | .bhtAckTimer ..
  | .handshakeTimeout .. | .sessionIdleTimeout .. | .cookieKeyChange | .neighborSolicitation ..
  | .neighborAdvertisement .. | .gatewaySolicit .. | .lldpSend .. | .closeAll .. | .fetchTimeout .. | .abandon ..
  | .programSettleEnd .. | .vmClear .. | .injectTrigger .. | .droopTrip .. | .mcInject .. | .selfCal ..
  | .selfCalDone .. | .chMinmaxRead .. | .housekeepingRound .. | .throttleRelease | .quenchClr .. | .temperBoundary ..
  | .temperPassDone .. | .refMeasure .. | .idleS1Expire .. | .idleS2Expire .. | .idleS3Expire .. | .s1SelfWake ..
  | .dieWake .. | .wake .. | .resetStretchEnd | .coreRst .. | .coreResetDone | .routerFault .. | .fabricFault ..
  | .submit .. | .hkCommitSubmit .. | .commitApply .. | .withdraw .. | .stagedImageWrite .. | .stageDiscard ..
  | .blkReset .. | .blockReset .. | .lockSet .. | .capClear .. | .evtClear .. | .accLogClear .. | .cntClr ..
  | .rollbackAdv .. | .fuseBlown | .dbgChal .. | .challengeExpire | .keyLoad .. | .keyLoadDone | .keyErase ..
  | .dump .. | .entdaa .. | .i3cOffsetWrite .. | .i3cRegisterRead | .resetInRelease | .inputRestored | .trstN
  | .tapAccess .. => true
  | .pass .. | .fullOutlier .. | .fullAdaptA .. | .fullAdaptB .. | .fullRung3 .. | .fullRung4 .. | .fullGradPrep ..
  | .fullGradRows .. | .fullGradAdapt .. | .vecAdd .. | .vecSub .. | .vecMul .. | .vecFma .. | .vecMin .. | .vecMax ..
  | .vecAbs .. | .vecNeg .. | .vecCompare .. | .vecSelect .. | .vecInt32Add .. | .vecAnd .. | .vecOr .. | .vecShift ..
  | .vecRecip .. | .vecDiv .. | .vecSqrt .. | .vecRsqrt .. | .vecExp .. | .vecLog .. | .vecTanh .. | .vecSin ..
  | .vecCos .. | .vecConvert .. | .vecSum .. | .vecReduceMax .. | .vecReduceMin .. | .vecArgmax .. | .xfer ..
  | .transferDone .. | .epilogueStart .. | .epilogueDone .. | .walk .. | .walkRetry .. | .sample .. | .reheat ..
  | .streamFetch .. | .planLoadDone | .dieArrive .. | .heatStart | .admission .. | .cowCopyDone ..
  | .adapterStageDone .. | .shardAdmitNote .. | .submitNotify .. | .generateRecord .. | .adapterLoadRecord ..
  | .adapterLoadDone .. | .adapterRetireRecord .. | .grammarInstallRecord .. | .grammarRemoveRecord .. | .dataFrame ..
  | .faultCell .. | .groupReset .. | .bhtWrite .. | .bhtRead .. | .bhtAck .. | .bhtSyncRead .. | .bhtWatch ..
  | .bhtStoreData .. | .bhtKeepalive .. | .billetFetch .. | .shardVerifyDone | .programBatchStart ..
  | .programRowStep .. | .programBatchDone .. | .vmClearGranule .. | .dramScrubRead .. | .coreStoreScrubRead ..
  | .sramScrubRead .. | .scrubWriteback .. | .repairCopyDone .. | .converterStepDone .. | .wakeComplete .. | .pwrOkRise
  | .powerDetectorTrip | .resetIn | .watchdogExpire .. | .sysReset .. | .bootStepDone | .coreResetAct
  | .commitCheckDone | .registerWrite .. | .extend .. | .quote .. | .quoteDone | .dbgUnlock .. | .proofCompare ..
  | .dumpDone | .i3cRegisterWrite .. | .pwrOkFall => false

/-! ### Frames and messages as bytes -/

/-- The fields of a cell or frame lie within the widths of their places in the bytes (R424, R425). -/
def Machine.Cell.fits : Machine.Cell → Prop
  | .data h l => h.len < 2 ^ 8 ∧ l.length = 64 * h.len
  | .signal o sop v agent _ => o < 2 ^ 14 ∧ sop < 2 ^ 8 ∧ v < 2 ^ 32 ∧ agent < 2 ^ 26
  | .barArrive o agent => o < 2 ^ 14 ∧ agent < 2 ^ 26
  | .barRelease o => o < 2 ^ 14
  | .barFault o => o < 2 ^ 14
  | .heatArrive n _ _ _ level cls missing _ => n < 2 ^ 32 ∧ level < 2 ^ 8 ∧ cls < 2 ^ 8 ∧ missing < 2 ^ 9
  | .heatRelease n start level _ _ classes =>
    n < 2 ^ 32 ∧ start < 2 ^ 64 ∧ level < 2 ^ 8 ∧ classes.length = 32 ∧ ∀ k ∈ classes, k < 16
  | .timing role t1 t2 t3 master group =>
    role < 2 ^ 8 ∧ t1 < 2 ^ 64 ∧ t2 < 2 ^ 64 ∧ t3 < 2 ^ 64 ∧ master < 2 ^ 8 ∧ group < 2 ^ 8 ∧ (role ≠ 1 → master = 0 ∧ group = 0)
  | .train role seq sent turn => role < 2 ^ 8 ∧ seq < 2 ^ 32 ∧ sent < 2 ^ 64 ∧ turn < 2 ^ 32
  | .hello node group port serial _ _ _ _ => node < 2 ^ 8 ∧ group < 2 ^ 8 ∧ port < 2 ^ 8 ∧ serial < 2 ^ 64
  | .ringDisc origin smallest groups => origin < 2 ^ 64 ∧ smallest < 2 ^ 64 ∧ groups < 2 ^ 8
  | .fault node evt => node < 2 ^ 9 ∧ evt < 2 ^ 16
  | .done opid status session => opid < 2 ^ 32 ∧ status < 2 ^ 8 ∧ session < 2 ^ 16

/-! ### Register writes -/

/-- The agent of a command that writes a register (R536). -/
def Instr.writer : Instr → Option Agent
  | .planLoad a | .planStart a | .holdDone a | .syncInitCounter a | .syncInitFlag a | .syncInitBarrier a | .syncFree a
  | .syncAdd a | .syncSet a | .syncClear a | .syncArrive a | .syncClrSticky a | .syncCmdReserved _ a | .dbgSelWrite _ a
  | .retrain _ a | .closeAll a | .billetFetch a | .abandon a | .vmClear _ a | .mcInject _ a | .selfCal _ a | .quenchClr a
  | .wake a | .sysReset a | .coreRst a | .submit a | .withdraw a | .stagedImageWrite _ _ a | .stageDiscard _ a
  | .blkReset _ _ a | .lockSet _ a | .capClear _ a | .evtClear _ _ a | .accLogClear a | .cntClr _ a
  | .registerWrite _ _ _ a | .rollbackAdv a | .extend a | .quote a | .dbgChal a | .dbgUnlock a | .keyLoad a | .keyErase a
  | .dump a => some a
  | _ => none

end Sys2Proof
end

