-- ==== Sys2Proof/Certificates/Slice0/Obligations.lean ====
section
/-! DEFINITION. The statements for the provers: what the module does, rule by rule and command by command. Every command has a
statement whose conclusion is that it answers a next state with its effect. -/

open Sys2Proof Sys2Proof.Machine

/-- A step runs the command in front of the queue. For every command and every state with that command in front of the queue of
waiting commands, a step is exactly the command's effect on the state with the rest of the queue. (00_scope.md) -/
def Obligations.StepTakesTheFrontCommand : Prop :=
  ∀ (c : Instr) (rest : List Instr) (s : State), s.pending = c :: rest → step s = exec c { s with pending := rest }

/-- On an empty queue one nanosecond passes (the model's choice, log entry 2). With no command waiting a step answers a next
state in which one nanosecond has passed: the steered rate is added to the part of a tick that stands over, every tick
counter has gained the whole ticks of the sum, modulo 2^64, the rest of the sum stands over, the flash history's time has
passed by one nanosecond, and the memory, the queue, the registers, the sync unit, the anvils, the cores and everything else
of the module are as before. At the nominal rate every counter has gained one tick. That the empty queue lets time pass is
the model's choice (log entry 2). (R251, R252) -/
def Obligations.EmptyQueueLetsATickPass : Prop :=
  ∀ s : State, s.pending = [] →
    let d := s.part.dev
    step s = .next (s.withDev { d with
      ticks := d.ticks.map (fun t => (t + (d.tickPart + d.tickRate) / 1000000000) % 2 ^ 64)
      tickPart := (d.tickPart + d.tickRate) % 1000000000
      hist := { d.hist with
        sec := d.hist.sec + (d.hist.nanos + 1) / 1000000000
        nanos := (d.hist.nanos + 1) % 1000000000 } }) ∧
    (d.get (pageTb 4 + 0x10C) = 0 → d.tickPart < 1000000000 → (d.tickPart + d.tickRate) / 1000000000 = 1)

/-- Every command answers a next state and leaves the queue of waiting commands alone. For every command with any operands and
every state, the command's effect is a next state, never a fault or a refusal, and the queue of waiting commands is the one
it was. (00_scope.md) -/
def Obligations.EveryCommandAnswers : Prop :=
  ∀ (c : Instr) (s : State), ∃ t : State, exec c s = .next t ∧ t.pending = s.pending

/-- Every step keeps memory in its canonical form. For every state whose memory is in its canonical form (bytes at strictly
rising addresses with no zero byte listed, valid and poisoned granules strictly rising), whatever command is in front, the
step answers a next state whose memory is in that form. (R385, R386, R391) -/
def Obligations.StepKeepsMemoryCanonical : Prop :=
  ∀ s t : State, s.wf → step s = .next t → t.wf

/-- After reset memory is empty and every register holds its reset value. After the power-on reset the memory lists no byte, no
valid granule, no poisoned granule and no codeword error, and the invariant of the memory holds. In the state after the
power-on reset RST_CAUSE reads 2 (bit 1, PWR_OK), and every other register-space offset reads the reset value of the
register tables. (R391, R514, R531, R538) -/
def Obligations.ResetState : Prop :=
  (State.reset.wf ∧ State.reset.part.mem.bytes = [] ∧ State.reset.part.mem.valid = [] ∧ State.reset.part.mem.poison = [] ∧
  State.reset.part.mem.ecc = [] ∧ State.reset.pending = []) ∧
  (State.reset.part.dev.get (pagePwr + 0x140) = 2 ∧
  ∀ off, off ≠ pagePwr + 0x140 → State.reset.part.dev.get off = resetValue off)

/-- Commands that touch no memory leave every byte and every mark as it was. For each command of the list Instr.leavesMemory
(plan words that only enter queues, strikes and promotions, sync operations, waits, mesh cells, timers, monitor, thermal and
commit commands and the rest of the list), and every state, the next state has the very same memory: every byte, valid bit,
poison mark and codeword. (R386, R389, R391) -/
def Obligations.DeviceCommandsLeaveMemory : Prop :=
  ∀ (c : Instr) (s t : State), c.leavesMemory = true → exec c s = .next t →
    t.part.mem = s.part.mem ∧ ∀ a, t.part.mem.byte a = s.part.mem.byte a

/-- A byte reads back what was last written to it, and no other byte changes. For a memory in its canonical form and any write:
a byte outside the written range reads what it read before; a byte inside reads the byte written, or zero where its granule
stands poisoned after the write; a granule is poisoned after the write exactly when it arrived poisoned and is touched, or
was poisoned and is not written whole; and the result is in the canonical form. (R386, R391, R403) -/
def Obligations.MemoryWriteReadsBack : Prop :=
  ∀ (m : Memory) (a : Nat) (data : List Byte) (arrives : List Nat) (x : Nat), m.wf = true →
    let n := m.write a data arrives
    n.wf = true ∧
    (¬(a ≤ x ∧ x < a + data.length) → n.byte x = m.byte x) ∧
    (a ≤ x ∧ x < a + data.length → n.byte x = if n.poison.contains (x / 64) then 0 else data.getD (x - a) 0) ∧
    (∀ g, g ∈ n.poison ↔
      (g ∈ arrives ∧ g ∈ granules a data.length) ∨
      (g ∈ m.poison ∧ ¬(g ∈ granules a data.length ∧ coversGranule a data.length g = true)))

/-- What issuing a word does, and nothing else. For a word in front that may issue, with no poisoned word in the core's stream
and WORD_PTR inside the stream of at most 4,096 words, the device in which it has issued has ISSUE_CNT one higher
(saturating), WORD_PTR one higher, the time of the word's tick if that is still to come (every counter gains the same number
of ticks, none where the tick has come, and no more than one beyond the tick), and every other register, every core, every
anvil, the sync unit and what was sent as before. (R184, R219, R617) -/
def Obligations.IssuingAWord : Prop :=
  ∀ (d : Device) (c w : Nat), d.AtWord c w → (d.core c).poisoned = [] → (d.core c).stream.length ≤ 4096 →
    (d.issued c w).get (pageSeq c + 0x114) = satAdd (d.get (pageSeq c + 0x114)) 1 ∧
    (d.issued c w).wordPtr c = d.wordPtr c + 1 ∧
    (d.tickPart < 1000000000 → (∀ p : Fin 5, d.tick p < 2 ^ 64) →
      ∃ n, (∀ p : Fin 5, (d.issued c w).tick p = (d.tick p + n) % 2 ^ 64) ∧ (d.wordTick c w ≤ d.tick 4 → n = 0) ∧
        (d.tick 4 < d.wordTick c w → d.wordTick c w ≤ d.tick 4 + n ∧ d.tick 4 + n ≤ d.wordTick c w + 1)) ∧
    (∀ off, off ≠ pageSeq c + 0x114 → off ≠ pageSeq c + 0x110 → (d.issued c w).get off = d.get off) ∧
    (∀ k, (d.issued c w).core k = d.core k) ∧ (∀ u, (d.issued c w).anvil u = d.anvil u) ∧
    (d.issued c w).sync = d.sync ∧ (d.issued c w).sent = d.sent ∧ (d.issued c w).serving = d.serving

/-- NOP, HEAT, BOUND and WINDOW words issue. For the word in front of a core's stream that may issue: NOP and HEAT issue and do
nothing more; BOUND issues and the core has arrived at the boundary; WINDOW issues, opens the reheat window with its units
of 64 ticks from the word's tick, none used yet, and clears WIN_LAST. Memory and queue stay. (R185, R188, R196, R202) -/
def Obligations.PlainWordsIssue : Prop :=
  ∀ (s : State) (c : Core) (w : Nat), s.part.dev.AtWord c.val w →
    let d := s.part.dev
    let e := d.issued c.val w
    (wOp w = opNop → exec (.nop c) s = .next (s.withDev e)) ∧
    (wOp w = opHeat → exec (.heat c) s = .next (s.withDev e)) ∧
    (wOp w = opBound → exec (.bound c) s = .next (s.withDev (e.onCore c.val (fun x => { x with bound := true })))) ∧
    (wOp w = opWindow → exec (.window c) s = .next (s.withDev ((e.onCore c.val (fun x =>
      { x with window := some ⟨d.wordTick c.val w + 64 * windowUnits w, windowUnits w, 0, 0, 0, d.wordPtr c.val⟩ })).set
        (pageSeq c.val + 0x128) 0)))

/-- A command for another kind of word than the one in front changes nothing. For the word in front of a core's stream that may
issue, each sequencer command that names another kind of word leaves the whole state as it is: words issue in stream order
only. (R184, R189) -/
def Obligations.OtherWordsWait : Prop :=
  ∀ (s : State) (c : Core) (w : Nat), s.part.dev.AtWord c.val w →
    (wOp w ≠ opNop → exec (.nop c) s = .next s) ∧ (wOp w ≠ opHeat → exec (.heat c) s = .next s) ∧
    (wOp w ≠ opPass → exec (.pass c) s = .next s) ∧ (wOp w ≠ opDrain → exec (.drain c) s = .next s) ∧
    (wOp w ≠ opAbort → exec (.abort c) s = .next s) ∧ (wOp w ≠ opFull → exec (.full c) s = .next s) ∧
    (wOp w ≠ opVec → exec (.vec c) s = .next s) ∧ (wOp w ≠ opXfer → exec (.xfer c) s = .next s) ∧
    (wOp w ≠ opTree → exec (.treeSend c) s = .next s ∧ exec (.treeAdd c) s = .next s) ∧
    (wOp w ≠ opEpi → exec (.epi c) s = .next s) ∧ (wOp w ≠ opAttn → exec (.attn c) s = .next s) ∧
    (wOp w ≠ opSample → exec (.sample c) s = .next s) ∧ (wOp w ≠ opWindow → exec (.window c) s = .next s) ∧
    (wOp w ≠ opBound → exec (.bound c) s = .next s) ∧
    (wOp w ≠ opSignal → exec (.signalCounterAdd c) s = .next s ∧ exec (.signalFlagSet c) s = .next s ∧
      exec (.signalBarrierArrive c) s = .next s) ∧
    (wOp w ≠ opWait → exec (.waitCounter c) s = .next s ∧ exec (.waitFlag c) s = .next s ∧ exec (.waitBarrier c) s = .next s)

/-- Words for an engine enter its queue, or are dropped when it is full. For the word in front that may issue: FULL and VEC
enter a queue of four beside the one in service; EPI and TREE enter the epilogue's and the tree adder's queue of two beside
the word at its head that may run, and ATTN, from core 0 of a cluster, the bellows' queue of two beside the one in service
(from another core it enters none); TREE with ROLE 1 takes the peer's part that has arrived along with it, or counts a part
that has not come. A word that finds its queue full is dropped. (R191, R194, R282) -/
def Obligations.QueuedWords : Prop :=
  ∀ (s : State) (c : Core) (w : Nat), s.part.dev.AtWord c.val w →
    let d := s.part.dev
    let e := d.issued c.val w
    let x := e.core c.val
    let dropped := s.withDev (e.dropWord c.val (d.wordPtr c.val) (d.wordTick c.val w) w)
    (wOp w = opFull → exec (.full c) s = .next (if 5 ≤ x.fullQ.length then dropped
      else s.withDev (e.onCore c.val (fun x => { x with fullQ := x.fullQ ++ [d.queuedWord c.val w] })))) ∧
    (wOp w = opVec → exec (.vec c) s = .next (if 5 ≤ x.vecQ.length then dropped
      else s.withDev (e.onCore c.val (fun x => { x with vecQ := x.vecQ ++ [d.queuedWord c.val w] })))) ∧
    (wOp w = opEpi → exec (.epi c) s = .next (if (if (x.epiQ.head?.map x.epiReady).getD false then 3 else 2) ≤ x.epiQ.length then dropped
      else s.withDev (e.onCore c.val (fun x => { x with epiQ := x.epiQ ++ [d.queuedWord c.val w] })))) ∧
    (wOp w = opAttn → c.val % 16 = 0 → exec (.attn c) s = .next (if 3 ≤ x.attnQ.length then dropped
      else s.withDev (e.onCore c.val (fun x => { x with attnQ := x.attnQ ++ [{ idx := d.wordPtr c.val, word := w }] })))) ∧
    (wOp w = opAttn → c.val % 16 ≠ 0 → exec (.attn c) s = .next (s.withDev e)) ∧
    (wOp w = opTree → (treeWord w).add = false → exec (.treeSend c) s = .next (if x.treeFull then dropped
      else s.withDev (e.onCore c.val (fun x => { x with treeQ := x.treeQ ++ [⟨d.wordPtr c.val, w, none⟩] })))) ∧
    (wOp w = opTree → (treeWord w).add = true → x.treeFull = true → exec (.treeAdd c) s = .next dropped) ∧
    (wOp w = opTree → (treeWord w).add = true → x.treeFull = false → ∀ p, x.parts.find? (e.partFor (treeWord w)) = some p →
      exec (.treeAdd c) s = .next (s.withDev (e.onCore c.val (fun x =>
        { x with treeQ := x.treeQ ++ [⟨d.wordPtr c.val, w, some p⟩], parts := dropFirst (e.partFor (treeWord w)) x.parts })))) ∧
    (wOp w = opTree → (treeWord w).add = true → x.treeFull = false → x.parts.find? (e.partFor (treeWord w)) = none →
      ∃ t, exec (.treeAdd c) s = .next t ∧ t.part.mem = s.part.mem ∧
        t.part.dev.get (pageSeq c.val + 0x124) = satAdd (e.get (pageSeq c.val + 0x124)) 1 ∧
        (t.part.dev.core c.val).treeQ = x.treeQ ++ [⟨d.wordPtr c.val, w, none⟩])

/-- SIGNAL words send a counter add, a flag set or a barrier arrival. For a SIGNAL word in front that may issue: an object of
the own module (NODE 0x1FF or the own node) gets the operation of the word's SOP put in flight to the sync unit with the
sequencer's identity, or, with DEFER, kept for the commit; an object of another module gets a SIGNAL cell. Each of the three
commands takes the words of its own SOP. (R188, R199, R241, R424) -/
def Obligations.SignalWords : Prop :=
  ∀ (s : State) (c : Core) (w : Nat), s.part.dev.AtWord c.val w → wOp w = opSignal →
    let d := s.part.dev
    let e := d.issued c.val w
    let q := signalWord w
    let sent (m : SyncMsg) : State :=
      s.withDev (if q.node = 0x1FF ∨ q.node = e.node then
        (if q.defer then { e with deferred := e.deferred ++ [⟨c.val / 128, c.val, d.wordPtr c.val, m⟩] }
        else { e with sync := { e.sync with inFlight := e.sync.inFlight ++ [m] } })
      else e.cellTo q.node (.signal q.obj q.sop q.value (e.seqAgent c.val) q.defer))
    (q.sop = 1 → exec (.signalCounterAdd c) s = .next (sent (.add q.obj q.value (e.seqAgent c.val)))) ∧
    (q.sop = 2 → exec (.signalFlagSet c) s = .next (sent (.set q.obj (e.seqAgent c.val)))) ∧
    (q.sop = 3 → exec (.signalBarrierArrive c) s = .next (sent (.arrive q.obj (e.seqAgent c.val))))

/-- WAIT words, their outcomes and their guards. For a WAIT word in front that may issue: the wait goes to the sync unit with
its object, condition, comparand, CONSUME, the sequencer's identity and the deadline tick plus TIMEOUT, and the GUARD words
behind it are held, undecided. Each of the three commands takes the words of its own COND. An outcome of a core's sequencer
leaves the flight and decides the guard of the same wait: with OK the guard is met and nothing is counted; with another
status it counts as an expiry with that status, and one of OK that comes after the tick of the first guarded word as an
expiry with TIMEOUT (stated for the first outcome in flight and the first guard). When the word in front is held by one
undecided guard and is the last of its stream, GUARD_DEADLINE counts the wait as expired with TIMEOUT, suppresses the word
and moves WORD_PTR past it. (R193, R238, R240) -/
def Obligations.WaitsAndGuards : Prop :=
  (∀ (s : State) (c : Core) (w : Nat), s.part.dev.AtWord c.val w → wOp w = opWait →
    let d := s.part.dev
    let e := d.issued c.val w
    let q := waitWord w
    let i := d.wordPtr c.val
    let deadline := d.wordTick c.val w + q.timeout
    let e1 := e.onCore c.val (fun x => { x with guards := x.guards ++ [⟨q.obj, q.cond, q.value, q.consume, deadline, i + 1, i + 1 + q.guard, none⟩] })
    let held := s.withDev { e1 with sync := { e1.sync with
      inFlight := e1.sync.inFlight ++ [.wait q.obj q.cond q.value q.consume (e.seqAgent c.val) deadline] } }
    (q.cond = 0 → exec (.waitCounter c) s = .next held) ∧ (q.cond = 1 → exec (.waitFlag c) s = .next held) ∧
    (q.cond = 2 → exec (.waitBarrier c) s = .next held)) ∧
  ((∀ (s : State) (c : Core) (o : WaitOutcome) (l : List WaitOutcome) (g : Guard) (gs : List Guard),
    let d := s.part.dev
    d.sync.outcomes = o :: l → o.agent = d.seqAgent c.val → (d.core c.val).guards = g :: gs →
    g.obj = o.obj → g.cond = o.cond → g.value = o.value → g.consume = o.consume → g.deadline = o.deadline → g.met = none →
    let d1 : Device := { d with sync := { d.sync with outcomes := l } }
    let status := if o.status = stOk ∧ d.guardLate c.val g = true then stTimeout else o.status
    let e := d1.setCore c.val { d.core c.val with guards := { g with met := some (status == stOk) } :: gs }
    exec (.waitOutcome c) s = .next (s.withDev (if status = stOk then e else e.waitExpired c.val status (g.lo - 1)))) ∧
  (∀ (s : State) (c : Core) (w : Nat) (g : Guard),
    let d := s.part.dev
    let i := d.wordPtr c.val
    (d.core c.val).stream[i]? = some w → i + 1 < 8192 → (d.core c.val).stream[i + 1]? = none → i ∉ (d.core c.val).poisoned →
    inClass w (d.cls c.val) = true → wordNamed w = true → d.issues c.val w = true →
    (d.core c.val).guards = [g] → g.met = none → g.lo ≤ i → i < g.hi →
    let e := d.reach (d.wordTick c.val w)
    exec (.guardDeadline c) s = .next (s.withDev
      ((((e.onCore c.val (fun x => { x with guards := [g.expire] })).waitExpired c.val stTimeout (g.lo - 1)).suppressWord c.val i
        (d.wordTick c.val w) w).bump c.val))))

/-- A PASS word reaches its anvil or is dropped, and a free anvil starts it. For a PASS word in front that may issue, with no
codeword error in memory, PASS issues and gives the word to the quantiser, the tile table and its anvil. An anvil that takes
an issue holds it with the codes of every token in its queue of one, under the next serial number, and nothing else of the
anvil changes. With an issue queued and no pass running: with valid trims the pass of token 0 starts with the anvil's G and
F latched and its sums at zero, and the queue is free; without valid trims the issue leaves the queue, ANV_DROP_CNT grows by
one, the anvil's page raises EVT bit 4 with TRIM_INVALID and the pass fails in its join. While a pass runs or no issue is
queued nothing happens. (R54, R58, R59, R90, R92, R187) -/
def Obligations.PassesReachAndStartAnvils : Prop :=
  ((∀ (s : State) (c : Core) (w : Nat), s.part.dev.AtWord c.val w → wOp w = opPass → s.part.mem.ecc = [] →
    let d := s.part.dev
    exec (.pass c) s = .next (s.withDev
      ((d.issued c.val w).issuePass s.part.mem c.val (d.wordPtr c.val) (d.wordTick c.val w) (passWord w)))) ∧
  (∀ (d : Device) (m : Memory) (c u idx tick : Nat) (found : Bool) (p : PassWord) (codes : List (List Int)),
    (d.takeIssue m c u idx tick found p codes).anvil u = { d.anvil u with
      queue := some ⟨(d.anvil u).serial, p.tile, p.join, p.slot, p.tileId, p.mode, p.split, codes⟩
      serial := (d.anvil u).serial + 1 })) ∧
  (∀ (s : State) (c : Core) (a : Anvil),
    let d := s.part.dev
    let u := 68 * c.val + a.val
    let x := d.anvil u
    (∀ i, x.run = none → x.queue = some i → d.trimValid u = true →
      exec (.passStart c a) s = .next (s.withDev (d.setAnvil u { x with
        queue := none
        run := some { issue := i, gain := bits (d.get (pageAnv u + 0x100)) 11 0, offs := bits (d.get (pageAnv u + 0x100)) 23 16
                      sums := List.replicate (resultLength i.mode) 0, exact := List.replicate (resultLength i.mode) 0 } }))) ∧
    (∀ i, x.run = none → x.queue = some i → d.trimValid u = false →
      exec (.passStart c a) s = .next (s.withDev
        ((((d.setAnvil u { x with queue := none }).count (pageAnv u + 0x11C)).eventSt (pageAnv u) 4 stTrimInvalid
          [i.tileId]).failIssue c.val i stTrimInvalid))) ∧
    (x.run.isSome ∨ x.queue = none → exec (.passStart c a) s = .next s))

/-- A strike adds one plane to the running pass, and the last plane of a half hands the pass to the adder tree. With a pass
running, STRIKE converts one bit-plane of its token: before the last plane of the half the pass stays in the anvil with the
plane's weighted values added, converted and exact, and the next plane to strike; after the last plane the sums, heavy slabs
and clamped codes are handed to the slab adder tree behind those already there. The mark of the conditions of R112 stays
only while they hold at the strike. A plane that drives no place is skipped and counted in ANV_SKIP_CNT. The anvil's cells
and its queue do not change, nor does memory. (R53, R54, R56, R61) -/
def Obligations.AnvilStrikesAPlane : Prop :=
  ∀ (s : State) (c : Core) (a : Anvil) (r : PassRun),
    let d := s.part.dev
    let u := 68 * c.val + a.val
    let x := d.anvil u
    x.run = some r →
    let o := planeOut x d.free r.gain r.offs r.issue.mode r.half r.plane r.issue.split (r.issue.codes.getD r.token [])
    let sums := addPlane r.issue.mode r.half r.plane r.sums o.2.sums
    let exact := addPlane r.issue.mode r.half r.plane r.exact o.2.exact
    ∃ t, exec (.strike c a) s = .next t ∧ t.part.mem = s.part.mem ∧
      (t.part.dev.anvil u).cells = x.cells ∧ (t.part.dev.anvil u).queue = x.queue ∧
      (r.plane + 1 < planesOf r.issue.mode →
        (t.part.dev.anvil u).tree = x.tree ∧
        (t.part.dev.anvil u).run = some { r with
          plane := r.plane + 1, sums := sums, exact := exact, ok := r.ok && t.part.dev.anvilBounded u
          heavy := r.heavy + o.2.heavy, clamps := r.clamps + o.2.clamps }) ∧
      (planesOf r.issue.mode ≤ r.plane + 1 →
        (t.part.dev.anvil u).tree = x.tree ++ [{
          issue := r.issue, token := r.token, half := r.half, sums := sums, exact := exact, ok := r.ok && t.part.dev.anvilBounded u
          squares := if lastHalf r.issue.mode r.half then squaresOf x r.issue.mode (r.issue.codes.getD r.token []) else []
          heavy := r.heavy + o.2.heavy, clamps := r.clamps + o.2.clamps }]) ∧
      (o.1 = [] → t.part.dev.get (pageAnv u + 0x124) = satAdd (d.get (pageAnv u + 0x124)) 1)

/-- A completed pass enters its join, and a complete join is promoted. With a pass result at the front of the slab adder tree,
PASS_RESULT takes it out, compares its checksum groups and gives it with the number of failed groups to the join adder. With
an empty tree nothing happens. The first complete join of a core leaves the join adder. When every slot in use delivered and
its tile is open, its sums are promoted into the accumulator words of the tile, token by token, K_N grows by its inputs
modulo 2^32, and, unless it carries LAST, no other part of the core changes but the tile's record of its errors; a join that
lost a pass changes no accumulator word: it poisons every token of its own tile where that is open, with the statuses of the
lost passes among the tile's conditions, and changes nothing else. Memory stays. (R56, R77, R107, R110, R145, R149) -/
def Obligations.ResultsJoinAndPromote : Prop :=
  (∀ (s : State) (c : Core) (a : Anvil),
    let d := s.part.dev
    let u := 68 * c.val + a.val
    (∀ e l, (d.anvil u).tree = e :: l →
      let r := (d.setAnvil u { d.anvil u with tree := l }).compare u e.issue.tileId e.issue.mode e.sums
      exec (.passResult c a) s = .next (s.withDev (r.2.joinTakes c.val e r.1))) ∧
    ((d.anvil u).tree = [] → exec (.passResult c a) s = .next s)) ∧
  (∀ (s : State) (c : Core) (j : Join),
    let d := s.part.dev
    let x := d.core c.val
    x.readyJoin = some j →
    ∃ t, exec (.joinPromote c) s = .next t ∧ t.part.mem = s.part.mem ∧ t.part.dev.hist = d.hist ∧
      (∀ tile, j.found = true → j.slots.all (fun q => q == .waiting || q == .delivered) = true → x.tile j.entry = some tile →
        j.last = false →
        ∃ devs squares, t.part.dev.core c.val = { x.dropJoin with
          tiles := smapSet x.tiles j.entry { tile with kN := (tile.kN + j.inputs) % 2 ^ 32, devs := devs, squares := squares }
          acc := (List.range (2 ^ j.shape)).foldl (fun acc tok => j.promoteToken tile tok [] acc) x.acc }) ∧
      ((∃ k, SlotState.failed k ∈ j.slots) →
        ((∀ tile, x.tile j.entry = some tile → tile.tileId ≠ j.tileId) → t.part.dev = d.setCore c.val x.dropJoin) ∧
        (∀ tile, x.tile j.entry = some tile → tile.tileId = j.tileId →
          ∃ conds, t.part.dev = d.setCore c.val { x.dropJoin with
            tiles := smapSet x.tiles j.entry { tile with conds := conds, poison := List.range (2 ^ tile.shape) } })))

/-- DRAIN captures its counters, and ABORT empties its targets. A DRAIN word in front names, for every mapped anvil of its mask,
the serial number of the next issue; DRAIN_COMPLETE takes the oldest drain whose anvils hold no earlier pass, reports
whether its passes were discarded, and sends its signal. An ABORT word empties every mapped anvil of its mask, discards its
passes with their joins lost, and waits for the abort-drains; one that names no mapped anvil completes at once.
ABORT_COMPLETE ends the oldest abort-drain of an anvil, counts the discarded passes, and takes the anvil from that ABORT
word and from every word pending there before it; what then waits for no anvil completes. With no abort-drain on the anvil
nothing happens. After an abort-drain has reached an anvil, the anvil holds no queued issue, no running pass and no result
in its tree, one more abort-drain runs there, its discarded passes are added up, and its cells, stuck cells and witness
accumulators are as before. (R80, R81, R82, R83, R188, R250) -/
def Obligations.DrainsAndAborts : Prop :=
  ((∀ (s : State) (c : Core) (w : Nat), s.part.dev.AtWord c.val w →
    let e := s.part.dev.issued c.val w
    let q := drainWord w
    let us := e.maskAnvils c.val q.mask
    (wOp w = opDrain → exec (.drain c) s = .next (s.withDev (e.onCore c.val (fun x =>
      { x with drains := x.drains ++ [{ obj := q.obj, sigen := q.sigen, abort := false, parts := us.map (fun u => (u, (e.anvil u).serial)) }] })))) ∧
    (wOp w = opAbort → us ≠ [] → exec (.abort c) s = .next (s.withDev
      ((us.foldl (fun d u => d.abortAnvil u) e).onCore c.val (fun x =>
        { x with drains := x.drains ++ [{ obj := q.obj, sigen := q.sigen, abort := true, parts := us.map (fun u => (u, 0)) }] })))) ∧
    (wOp w = opAbort → us = [] → exec (.abort c) s = .next (s.withDev
      (if q.sigen then e.sendSignals [.add q.obj 1 (e.seqAgent c.val)] else e)))) ∧
  (∀ (s : State) (c : Core) (q : Drain),
    let d := s.part.dev
    let ready : Drain → Bool := fun q => !q.abort && q.parts.all d.partDrained
    ((d.core c.val).drains.find? ready = none → exec (.drainComplete c) s = .next s) ∧
    ((d.core c.val).drains.find? ready = some q →
      let e := d.onCore c.val (fun x => { x with drains := dropFirst ready x.drains, drainReport := some q.discarded })
      exec (.drainComplete c) s = .next (s.withDev
        (if q.sigen then e.sendSignals [.add q.obj 1 (e.seqAgent c.val)] else e)))) ∧
  (∀ (s : State) (c : Core) (a : Anvil),
    let d := s.part.dev
    let u := 68 * c.val + a.val
    ((d.anvil u).aborts ≠ 0 →
      let e := (d.setAnvil u { d.anvil u with aborts := (d.anvil u).aborts - 1 }).countDiscarded u
      exec (.abortComplete c a) s = .next (s.withDev (e.completeDrains c.val (oldestDone u (e.core c.val).drains)))) ∧
    ((d.anvil u).aborts = 0 → exec (.abortComplete c a) s = .next s))) ∧
  (∀ (d : Device) (u : Nat),
    (d.abortAnvil u).anvil u = { d.anvil u with
      queue := none, run := none, tree := [], aborts := (d.anvil u).aborts + 1
      discarded := (d.anvil u).discarded + (d.anvil u).discards
      discardedId := ((d.anvil u).held.head?.map (·.tileId)).getD (d.anvil u).discardedId })

/-- The fuller writes its outputs, and drops a word whose tile it cannot open. With the operation at the head of the fuller's
queue not begun, its tile open in the word's shape and no codeword error in memory: each of the eight operations takes the
word of its own SUB, does its computation on the tile, and marks the word as begun; one that needs a side region poisons the
tokens of a tile without one, the gradient operations leave a tile that is not transposed alone, and the gradient
preparation needs no tile. FULL_DONE takes a word that has begun out of the queue. With the operation at the head of the
fuller's queue not begun and no open tile of the word's entry and shape, the command of its SUB (of each but the gradient
preparation, which writes into no tile) changes no byte of memory, no tile and no accumulator word: it counts in
ACC_REFUSE_CNT and marks the word as begun. (R158, R159, R160, R170, R172, R173, R191, R615) -/
def Obligations.FullerOperations : Prop :=
  ((∀ (s : State) (c : Core) (q : Queued) (t : Tile),
    let d := s.part.dev
    let m := s.part.mem
    let f := fullWord q.word
    headWaiting (d.core c.val).fullQ = some q → m.ecc = [] →
    (f.sub = 5 → exec (.fullGradPrep c) s = .next (s.withPart ((s.part.gradPrepare c.val f).onDev (·.fullRan c.val)))) ∧
    ((d.core c.val).tileShaped f.tile f.shape = some t →
      (f.sub = 0 → exec (.fullOutlier c) s = .next (s.withDev
        ((if t.hasSide then d.outliers m c.val f.tile t f.srcA else d.noSide c.val f.tile t).fullRan c.val))) ∧
      (f.sub = 1 → exec (.fullAdaptA c) s = .next (s.withPart ((s.part.adaptA c.val f.tile t f).onDev (·.fullRan c.val)))) ∧
      (f.sub = 2 → exec (.fullAdaptB c) s = .next (s.withDev
        ((if t.hasSide then d.adaptB m c.val f.tile t f else d.noSide c.val f.tile t).fullRan c.val))) ∧
      (f.sub = 3 → exec (.fullRung3 c) s = .next (s.withDev (((d.rung3 m c.val f.tile t).getD d).fullRan c.val))) ∧
      (f.sub = 4 → exec (.fullRung4 c) s = .next (s.withDev (((d.rung4 m c.val f.tile t).getD d).fullRan c.val))) ∧
      (f.sub = 6 → exec (.fullGradRows c) s = .next (s.withDev
        ((if t.transposed then d.gradRows m c.val f.tile t f else d).fullRan c.val))) ∧
      (f.sub = 7 → exec (.fullGradAdapt c) s = .next (s.withPart
        ((if t.transposed then s.part.gradAdapt c.val f.tile t f else s.part).onDev (·.fullRan c.val)))))) ∧
  (∀ (s : State) (c : Core) (q : Queued) (l : List Queued), (s.part.dev.core c.val).fullQ = q :: l → q.ran = true →
    exec (.fullDone c) s = .next (s.withDev (s.part.dev.onCore c.val (fun x => { x with fullQ := l }))))) ∧
  (∀ (s : State) (c : Core) (q : Queued),
    let d := s.part.dev
    let f := fullWord q.word
    headWaiting (d.core c.val).fullQ = some q → (d.core c.val).tileShaped f.tile f.shape = none →
    ∀ i ∈ [(0, Instr.fullOutlier c), (1, .fullAdaptA c), (2, .fullAdaptB c), (3, .fullRung3 c), (4, .fullRung4 c),
        (6, .fullGradRows c), (7, .fullGradAdapt c)], f.sub = i.1 →
      ∃ t, exec i.2 s = .next t ∧ t.part.mem = s.part.mem ∧
        (t.part.dev.core c.val) = { d.core c.val with fullQ := headRan (d.core c.val).fullQ } ∧
        t.part.dev.get (pageAcc c.val + 0x10C) = satAdd (d.get (pageAcc c.val + 0x10C)) 1)

/-- The vector engine writes the outputs of elementwise and word operations. With a vector word at the head of the queue not
begun and no codeword error in memory, each elementwise FP32 command takes the word of its own VOP, and writes at DST,
element by element, the named function of SRC_A, SRC_B and, for the fused multiply-add, the old DST, in the output format,
with the poison marks of its sources; compare gives the mask of its operands, and select takes SRC_A where the mask in DST
is set and SRC_B elsewhere. The word is then in service. With a vector word at the head of the queue not begun and no
codeword error in memory: INT32 add adds modulo 2^32, AND and OR work bit by bit, and shift gives the free value of its
operands; each writes 32-bit words at DST whatever the format codes, with the poison marks of its sources. (R174, R175,
R176, R191) -/
def Obligations.VectorOutputs : Prop :=
  (∀ (s : State) (c : Core) (q : Queued),
    let p := s.part
    let v := vecWord q.word
    let out := p.elementwise c.val v
    let mask := p.maskwise c.val v
    headWaiting (p.dev.core c.val).vecQ = some q → p.mem.ecc = [] →
    ∀ i ∈ [((Instr.vecAdd c), 0x00, out (fun a b _ => fAdd a b)), ((.vecSub c), 0x01, out (fun a b _ => fSub a b)),
        ((.vecMul c), 0x02, out (fun a b _ => fMul a b)), ((.vecFma c), 0x03, out (fun a b old => fFma a b old)),
        ((.vecMin c), 0x04, out (fun a b _ => vecOrder 4 a b)), ((.vecMax c), 0x05, out (fun a b _ => vecOrder 5 a b)),
        ((.vecAbs c), 0x06, out (fun a _ _ => vecAbs a)), ((.vecNeg c), 0x07, out (fun a _ _ => vecNeg a)),
        ((.vecCompare c), 0x08, mask (fun a b _ => Config.vectorCompare v.fmtOut a b)),
        ((.vecSelect c), 0x09, mask (fun a b old => (vecCode v.fmtOut (if Config.maskSet v.fmtOut old then a else b)).code)),
        ((.vecRecip c), 0x0E, out (fun a _ _ => fRecip a)), ((.vecDiv c), 0x0F, out (fun a b _ => fDiv a b)),
        ((.vecSqrt c), 0x10, out (fun a _ _ => fSqrt a)), ((.vecRsqrt c), 0x11, out (fun a _ _ => fRsqrt a)),
        ((.vecExp c), 0x12, out (fun a _ _ => fExp a)), ((.vecLog c), 0x13, out (fun a _ _ => fLog a)),
        ((.vecTanh c), 0x14, out (fun a _ _ => fTanh a)), ((.vecSin c), 0x15, out (fun a _ _ => fSin a)),
        ((.vecCos c), 0x16, out (fun a _ _ => fCos a))], v.vop = i.2.1 →
      exec i.1 s = .next (s.withPart (p.vecWritten c.val v i.2.2 (p.vecMarks c.val v i.2.2)))) ∧
  (∀ (s : State) (c : Core) (q : Queued),
    let p := s.part
    let v := vecWord q.word
    headWaiting (p.dev.core c.val).vecQ = some q → p.mem.ecc = [] →
    ∀ i ∈ [((Instr.vecInt32Add c), 0x0A, fun (a b : U32) => a + b), ((.vecAnd c), 0x0B, fun a b => a &&& b),
        ((.vecOr c), 0x0C, fun a b => a ||| b), ((.vecShift c), 0x0D, fun a b => Config.vectorShift a b)], v.vop = i.2.1 →
      let out := p.wordwise c.val v i.2.2
      exec i.1 s = .next (s.withPart (p.vecWritten c.val v out (p.vecMarks c.val v out))))

/-- Reductions combine lanes and then the tree, and a conversion writes codes with their scale. With a vector word at the head
of the queue not begun and no codeword error in memory: sum, maximum and minimum give the lane-then-tree reduction of SRC_A,
every sum flushed in compatibility mode, and argmax the lowest index of the maximum; each writes its word at DST with the
whole output poisoned where an operand is. Convert writes the packed codes and, for integer codes, the scale behind them,
the whole poisoned where the scale that it reads is. VEC_DONE takes a word that has begun out of the queue. (R103, R165,
R177, R191) -/
def Obligations.VectorReductionsAndConversion : Prop :=
  (∀ (s : State) (c : Core) (q : Queued),
    let p := s.part
    let v := vecWord q.word
    let a := (p.vecOperand c.val v.fmtIn v.count v.srcA).map (keep p.dev.compat)
    headWaiting (p.dev.core c.val).vecQ = some q → p.mem.ecc = [] →
    (∀ i ∈ [((Instr.vecSum c), 0x18, reduce (fun a b => keep p.dev.compat (fAdd a b)) a), ((.vecReduceMax c), 0x19, reduce (vecOrder 5) a),
        ((.vecReduceMin c), 0x1A, reduce (vecOrder 4) a)], v.vop = i.2.1 → ∀ r, i.2.2 = some r →
      exec i.1 s = .next (s.withPart (p.vecReduced c.val v
        (vecPack v.fmtOut [(vecCode v.fmtOut (keep p.dev.compat r)).code])))) ∧
    (v.vop = 0x1B → ∀ r, reduce betterMax a.zipIdx = some r →
      exec (.vecArgmax c) s = .next (s.withPart (p.vecReduced c.val v (leBytes 4 (BitVec.ofNat 32 r.2 : U32).toNat)))) ∧
    (v.vop = 0x17 → exec (.vecConvert c) s = .next (s.withPart (p.vecConverted c.val v (p.vecOutput c.val v).1)))) ∧
  (∀ (s : State) (c : Core) (q : Queued) (l : List Queued), (s.part.dev.core c.val).vecQ = q :: l → q.ran = true →
    exec (.vecDone c) s = .next (s.withDev (s.part.dev.onCore c.val (fun x => { x with vecQ := l }))))

/-- A scheduled transfer reads its source at its tick and lands at its destination. An XFER word with its EXT word behind it, in
front, that may issue and whose engine has room starts a transfer that reads its source at once; one without its EXT word or
whose engine has no room is dropped. The oldest transfer of an engine to this module that no closing router holds and no
reset meets lands with its pieces and the statuses of its outputs written at the destination and, where every piece was
present, its signal sent; one of another module goes out as DATA frames in address order; one that is not aligned is refused
under R387; one that a closing router holds waits. (R31, R188, R241, R387) -/
def Obligations.TransfersMoveTheirBytes : Prop :=
  (∀ (s : State) (c : Core) (w e : Nat), s.part.dev.AtWord c.val w → wOp w = opXfer →
    let d := s.part.dev.issued c.val w
    let i := s.part.dev.wordPtr c.val
    let tick := s.part.dev.wordTick c.val w
    (d.extWord c.val = none → exec (.xfer c) s = .next (s.withDev (d.dropWord c.val i tick w))) ∧
    (d.extWord c.val = some e →
      let x := xferWord w e
      let d1 := (d.count (pageSeq c.val + 0x114)).bump c.val
      (d1.engineFull (engineOf c.val x.eng) = true → exec (.xfer c) s = .next (s.withDev (d1.dropWord c.val i tick w))) ∧
      (d1.engineFull (engineOf c.val x.eng) = false →
        exec (.xfer c) s = .next (s.withPart (({ s.part with dev := d1 } : Part).startTransfer c.val i x))))) ∧
  (∀ (s : State) (place : Nat) (t : Transfer),
    let d := s.part.dev
    d.transfers[place]? = some t → d.oldestOf t = place →
    let d1 : Device := { d with transfers := listDrop d.transfers place }
    let p1 : Part := { s.part with dev := d1 }
    let answers (p : Part) : Prop := exec (.transferDone place) s = .next (s.withPart (p.onDev (·.settleRouters)))
    (d.waitsRouter t = true → exec (.transferDone place) s = .next s) ∧
    (d.waitsRouter t = false →
      (d.ownModule t.node = true → d.inReset t.dst t.data.length = false →
        ((isNarrow t.dst t.data.length = false ∨ d.reachable t.dst = false) →
          let p2 := (p1.writePieces t.dst t.data t.poison).onDev (·.landStatuses t.dst t.statuses)
          answers (if !t.absent && d1.allHere t.dst (t.data.length / 64)
            then p2.onDev (·.planSignal t.core t.idx 0x1FF t.obj t.sop 1 t.defer) else p2)) ∧
        (isNarrow t.dst t.data.length = true → d.reachable t.dst = true →
          answers (p1.onDev (·.refuseNarrow t.dst t.data.length (d1.seqAgent t.core))))) ∧
      (d.ownModule t.node = true → d.inReset t.dst t.data.length = true →
        answers (p1.onDev (·.loseWords t.core [(opXfer, t.idx)]))) ∧
      (d.ownModule t.node = false →
        answers (p1.onDev (fun d => (t.frames (d.seqAgent t.core)).foldl (fun d f => d.cellTo t.node f) d)))))

/-- A landed transfer writes exactly its destination bytes. For pieces of 64 bytes from an address that is a multiple of 64, all
of them present, with memory in canonical form: after the write every byte of the destination reads the byte sent, or zero
where its piece is poisoned, and every byte outside the destination reads as before. (R31, R241, R386) -/
def Obligations.TransferLandsByteForByte : Prop :=
  ∀ (p : Part) (dst : Nat) (data : List Byte) (poison : List Nat) (x : Nat), p.mem.wf = true →
    dst % 64 = 0 → data.length % 64 = 0 → p.dev.allHere dst (data.length / 64) = true →
    let n := (p.writePieces dst data poison).mem
    n.wf = true ∧
    (¬(dst ≤ x ∧ x < dst + data.length) → n.byte x = p.mem.byte x) ∧
    (dst ≤ x ∧ x < dst + data.length → n.byte x = if poison.contains ((x - dst) / 64) then 0 else data.getD (x - dst) 0)

/-- Reduction trees step, and epilogues retire tiles. When the step at the head of the tree adder's queue may run and its tile
is open in the word's shape: ROLE 0 settles the tile, sends its regions, counts, conditions and poison to the peer and frees
it; ROLE 1 settles the tile and adds the part to its regions, with counts, conditions and poison combined, or poisons every
token where no part had arrived. Each step counts in TREE_CNT. When every promotion into the tiles of the word at the head
of the epilogue's queue has completed, the tiles are open in its shape and no codeword holds an error, the word leaves the
queue and the epilogue runs scale, bias, activation and conversion, keeping the output and its status. EPILOGUE_DONE writes
the oldest output at DST with its poison marks, frees its tiles, keeps its status and counts. (R154, R155, R163, R164, R165,
R166, R167, R168, R194) -/
def Obligations.TreeAndEpilogues : Prop :=
  (∀ (s : State) (c : Core) (o : TreeOp) (l : List TreeOp),
    let d := s.part.dev
    let x := d.core c.val
    let q := treeWord o.word
    x.treeQ = o :: l → x.treeReady o = true →
    let d0 := d.setCore c.val { x with treeQ := l }
    exec (.treeStepDone c) s = .next (s.withDev ((if q.add then d0.treeAdd c.val o else d0.treeSend c.val o).count (pageAcc c.val + 0x114))) ∧
    (∀ t0 t, (d0.core c.val).tileShaped q.tile q.shape = some t0 → ((d0.settle c.val q.tile o.idx opTree).core c.val).tile q.tile = some t →
      let d1 := d0.settle c.val q.tile o.idx opTree
      (d0.treeSend c.val o = (d1.onCore c.val (fun x => x.freeTile q.tile)).sendPart q ((d1.core c.val).partOf c.val q.tile t)) ∧
      (∀ p, o.part = some p → p.poison = [] →
        d0.treeAdd c.val o = d1.onCore c.val (fun x => (x.addPart t p).setTile q.tile (t.combine p))) ∧
      (∀ p, o.part = some p → p.poison ≠ [] →
        d0.treeAdd c.val o = (d1.onCore c.val (fun x => (x.addPart t p).setTile q.tile (t.combine p))).accEvent c.val 2 stPoisoned
          t.tileId q.tile t.region) ∧
      (o.part = none → d0.treeAdd c.val o = d1.onCore c.val (fun x => x.setTile q.tile t.spoilMarks)))) ∧
  ((∀ (s : State) (c : Core) (q : Queued) (l : List Queued) (up gate : Tile),
    let d := s.part.dev
    let x := d.core c.val
    let w := epiWord q.word
    x.epiQ = q :: l → x.epiReady q = true → s.part.mem.ecc = [] → x.tileShaped w.tile w.shape = some up →
    let d1 := d.onCore c.val (fun x => { x with epiQ := l })
    (w.gated = false → exec (.epilogueStart c) s = .next (s.withDev (d1.epiRun s.part.mem c.val q.idx w up none))) ∧
    (w.gated = true → x.tileShaped w.tile2 w.shape = some gate →
      exec (.epilogueStart c) s = .next (s.withDev (d1.epiRun s.part.mem c.val q.idx w up (some gate))))) ∧
  (∀ (s : State) (c : Core) (o : EpiOut) (l : List EpiOut), (s.part.dev.core c.val).epiOut = o :: l →
    exec (.epilogueDone c) s = .next (s.withPart ((s.part.coreWrite c.val o.dst o.data o.poison).onDev (fun d =>
      (d.onCore c.val (fun x => (o.tiles.foldl CoreState.freeTile { x with epiOut := l }).putOutput (o.dst / 64)
        (ceilDiv o.data.length 64) o.status)).count (pageAcc c.val + 0x118))))))

/-- An add grows a counter, saturating with OVERRUN, from a signal or from the ADD command. For a counter that no wait holds: an
add of v in the unit leaves the value at the least of value + v and 0xFFFF_FFFF, with OVERRUN set when the sum is above
0xFFFF_FFFF and otherwise as it was, the signal counted and its source and tick kept; OVERRUN_CNT and EVT.OVERRUN follow the
saturation; every other object, the waiters and memory stay. The ADD command of a processor does the same with OP_OBJ and
OP_ARG0, and OP_STAT then shows DONE with OVERRUN after a saturation and OK otherwise. (R226, R227, R228, R264) -/
def Obligations.CounterAddSaturates : Prop :=
  ∀ (s : State) (o : Obj) (v : U32) (agent : Agent) (x : SyncObj) (old : Nat),
    let d := s.part.dev
    d.obj o.val = some x → x.val = .counter old → old < 2 ^ 32 → (∀ w ∈ d.sync.waiters, w.obj ≠ o.val) →
    let above := decide (0xFFFFFFFF < old + v.toNat)
    let after (t : State) : Prop :=
      t.part.mem = s.part.mem ∧ t.part.dev.sync.waiters = d.sync.waiters ∧
      t.part.dev.obj o.val = some { x with
        val := .counter (Nat.min (old + v.toNat) 0xFFFFFFFF), overrun := x.overrun || above
        lastSig := some (agent.toNat, d.tick 4) } ∧
      (∀ k, k ≠ o.val → t.part.dev.obj k = d.obj k) ∧
      t.part.dev.get (pageSync + 0x110) = satAdd (d.get (pageSync + 0x110)) 1 ∧
      t.part.dev.get (pageSync + 0x11C) = (if above then satAdd (d.get (pageSync + 0x11C)) 1 else d.get (pageSync + 0x11C)) ∧
      (above = true → bit (t.part.dev.get (pageSync + 0x10)) 1 = true)
    (∃ t, exec (.syncCounterAdd o v agent) s = .next t ∧ after t) ∧
    (isProcessor agent.toNat = true → d.opObj = o.val → d.opArg0 = v.toNat →
      ∃ t, exec (.syncAdd agent) s = .next t ∧ after t ∧
        t.part.dev.get (pageSync + 0x150) = 2 ^ 31 + (if above then stOverrun else stOk))

/-- Setting a flag makes it 1, and setting it again overruns. Setting a flag that holds 0 and that no wait holds makes it 1 and
leaves OVERRUN as it was. Setting a flag that holds 1 leaves it at 1, sets OVERRUN, counts in OVERRUN_CNT and raises
EVT.OVERRUN. Both hold for a signal and for the SET command of a processor, whose OP_STAT shows OK or OVERRUN. (R231) -/
def Obligations.FlagSetOnce : Prop :=
  ∀ (s : State) (o : Obj) (agent : Agent) (x : SyncObj) (on : Bool),
    let d := s.part.dev
    d.obj o.val = some x → x.val = .flag on → (∀ w ∈ d.sync.waiters, w.obj ≠ o.val) →
    let after (t : State) : Prop :=
      t.part.mem = s.part.mem ∧ t.part.dev.sync.waiters = d.sync.waiters ∧
      t.part.dev.obj o.val = some { x with val := .flag true, overrun := x.overrun || on, lastSig := some (agent.toNat, d.tick 4) } ∧
      (∀ k, k ≠ o.val → t.part.dev.obj k = d.obj k) ∧
      t.part.dev.get (pageSync + 0x11C) = (if on then satAdd (d.get (pageSync + 0x11C)) 1 else d.get (pageSync + 0x11C)) ∧
      (on = true → bit (t.part.dev.get (pageSync + 0x10)) 1 = true)
    (∃ t, exec (.syncFlagSet o agent) s = .next t ∧ after t) ∧
    (isProcessor agent.toNat = true → d.opObj = o.val →
      ∃ t, exec (.syncSet agent) s = .next t ∧ after t ∧
        t.part.dev.get (pageSync + 0x150) = 2 ^ 31 + (if on then stOverrun else stOk))

/-- An arrival is counted in CUR, in NEXT, or faults the barrier, and a complete round releases. For a barrier that is not
faulted, an arrival from identity a: when a is not in CUR and CUR holds fewer than PCOUNT identities, a joins CUR (stated
here for an arrival that does not complete the round); otherwise, when a is not in NEXT and NEXT holds fewer than PCOUNT, a
joins NEXT; otherwise the barrier's FAULT is set. Both the arrival in the unit and the ARRIVE command of a processor do so.
When an arrival makes CUR hold PCOUNT identities at a barrier without a parent, with fewer than PCOUNT in NEXT, the round is
released: PREV becomes the round, CUR becomes NEXT, NEXT becomes empty, PARITY inverts and ASCENDING is clear. A barrier
with a parent sets ASCENDING and keeps its sets; PARENT_RELEASE then releases it in the same way. (R233, R234, R235) -/
def Obligations.BarrierRounds : Prop :=
  (∀ (s : State) (o : Obj) (agent : Agent) (x : SyncObj) (pcount : Nat) (cur next prev : List Nat) (parity asc : Bool)
      (parent : Option (Nat × Nat)),
    let d := s.part.dev
    let a := agent.toNat
    d.obj o.val = some x → x.val = .barrier pcount cur next prev parity asc false parent →
    let answers (f : ObjVal → Prop) : Prop :=
      (∃ t y, exec (.syncBarrierArrive o agent) s = .next t ∧ t.part.mem = s.part.mem ∧ t.part.dev.obj o.val = some y ∧ f y.val) ∧
      (isProcessor a = true → d.opObj = o.val →
        ∃ t y, exec (.syncArrive agent) s = .next t ∧ t.part.mem = s.part.mem ∧ t.part.dev.obj o.val = some y ∧ f y.val)
    (a ∉ cur → cur.length + 1 < pcount → answers (· = .barrier pcount (cur ++ [a]) next prev parity asc false parent)) ∧
    (¬(a ∉ cur ∧ cur.length < pcount) → a ∉ next → next.length < pcount →
      answers (· = .barrier pcount cur (next ++ [a]) prev parity asc false parent)) ∧
    (¬(a ∉ cur ∧ cur.length < pcount) → ¬(a ∉ next ∧ next.length < pcount) →
      answers (· = .barrier pcount cur next prev parity asc true parent))) ∧
  ((∀ (s : State) (o : Obj) (agent : Agent) (x : SyncObj) (pcount : Nat) (cur next prev : List Nat) (parity : Bool)
      (parent : Option (Nat × Nat)),
    s.part.dev.obj o.val = some x → x.val = .barrier pcount cur next prev parity false false parent →
    agent.toNat ∉ cur → cur.length + 1 = pcount → next.length < pcount →
    ∃ t y, exec (.syncBarrierArrive o agent) s = .next t ∧ t.part.dev.obj o.val = some y ∧
      (parent = none → y.val = .barrier pcount next [] (cur ++ [agent.toNat]) (!parity) false false none) ∧
      (∀ q, parent = some q → y.val = .barrier pcount (cur ++ [agent.toNat]) next prev parity true false (some q))) ∧
  (∀ (s : State) (o : Obj) (x : SyncObj) (pcount : Nat) (cur next prev : List Nat) (parity : Bool) (parent : Option (Nat × Nat)),
    s.part.dev.obj o.val = some x → x.val = .barrier pcount cur next prev parity true false parent → next.length ≠ pcount →
    ∃ t y, exec (.parentRelease o) s = .next t ∧ t.part.dev.obj o.val = some y ∧
      y.val = .barrier pcount next [] cur (!parity) false false parent))

/-- A wait is satisfied at once, held, or expires. A wait that reaches the unit at or before its deadline: on a counter that
meets its comparand, or a flag that is set, it is satisfied at once, and a consuming one takes its comparand; where the
condition does not hold and the table has room it joins the waiter table and nothing else of the objects changes; with 4,096
waits held it expires with TIMEOUT. After its deadline it expires with TIMEOUT and changes no object. On a free object or
one of another type it expires with TIMEOUT and counts in TYPE_CNT. On a barrier it ends with BARRIER_FAULT when the
barrier's FAULT is set; otherwise it awaits one release, two when its agent is in NEXT, and none, so that it is satisfied at
once, when its agent is in PREV alone. At its deadline WAIT_DEADLINE takes a held wait out of the table with TIMEOUT. (R227,
R230, R231, R235, R236, R238, R239, R240) -/
def Obligations.WaitsAreJudged : Prop :=
  (∀ (s : State) (o : Obj) (cond : Fin 3) (v : U32) (consume : Bool) (agent : Agent) (deadline : Tick),
    let d := s.part.dev
    let a := agent.toNat
    let answers (status : Nat) (t : State) : Prop :=
      t.part.mem = s.part.mem ∧ t.part.dev.sync.outcomes = d.sync.outcomes ++ [⟨a, o.val, cond.val, v.toNat, consume, deadline.toNat, status⟩] ∧
      t.part.dev.sync.waiters = d.sync.waiters
    (∀ x value, d.obj o.val = some x → (x.val = .counter value ∧ cond.val = 0 ∧ v.toNat ≤ value ∨ x.val = .flag true ∧ cond.val = 1) →
      d.tick 4 ≤ deadline.toNat →
      ∃ t, exec (.syncWaitEnter o cond v consume agent deadline) s = .next t ∧ answers stOk t ∧
        t.part.dev.obj o.val = some (if consume then { x with val := consumed x.val v.toNat } else x)) ∧
    (∀ x value, d.obj o.val = some x → (x.val = .counter value ∧ cond.val = 0 ∧ value < v.toNat ∨ x.val = .flag false ∧ cond.val = 1) →
      d.tick 4 ≤ deadline.toNat → d.sync.waiters.length < 4096 →
      ∃ t, exec (.syncWaitEnter o cond v consume agent deadline) s = .next t ∧ t.part.dev.sync.objs = d.sync.objs ∧
        t.part.dev.sync.waiters =
          d.sync.waiters ++ [⟨o.val, cond.val, v.toNat, consume, a, deadline.toNat, 0⟩]) ∧
    (∀ x value, d.obj o.val = some x → (x.val = .counter value ∧ cond.val = 0 ∧ value < v.toNat ∨ x.val = .flag false ∧ cond.val = 1) →
      d.tick 4 ≤ deadline.toNat → 4096 ≤ d.sync.waiters.length →
      ∃ t, exec (.syncWaitEnter o cond v consume agent deadline) s = .next t ∧ answers stTimeout t ∧ t.part.dev.sync.objs = d.sync.objs) ∧
    (∀ x, d.obj o.val = some x → condOf x.val = cond.val → cond.val < 2 → deadline.toNat < d.tick 4 →
      ∃ t, exec (.syncWaitEnter o cond v consume agent deadline) s = .next t ∧ answers stTimeout t ∧ t.part.dev.sync.objs = d.sync.objs) ∧
    (∀ x pcount cur next prev parity asc fault parent, d.obj o.val = some x → cond.val = 2 →
      x.val = .barrier pcount cur next prev parity asc fault parent →
      let n := if a ∈ next then 2 else if a ∈ cur then 1 else if a ∈ prev then 0 else 1
      ∃ t, exec (.syncWaitEnter o cond v consume agent deadline) s = .next t ∧ t.part.dev.sync.objs = d.sync.objs ∧
        (fault = true → answers stBarrierFault t) ∧
        (fault = false → deadline.toNat < d.tick 4 → answers stTimeout t) ∧
        (fault = false → d.tick 4 ≤ deadline.toNat → n = 0 → answers stOk t) ∧
        (fault = false → d.tick 4 ≤ deadline.toNat → n ≠ 0 → d.sync.waiters.length < 4096 →
          t.part.dev.sync.waiters = d.sync.waiters ++ [⟨o.val, 2, v.toNat, consume, a, deadline.toNat, n⟩])) ∧
    ((d.obj o.val = none ∨ ∃ x, d.obj o.val = some x ∧ condOf x.val ≠ cond.val) →
      ∃ t, exec (.syncWaitEnter o cond v consume agent deadline) s = .next t ∧ answers stTimeout t ∧ t.part.dev.sync.objs = d.sync.objs ∧
        t.part.dev.get (pageSync + 0x128) = satAdd (d.get (pageSync + 0x128)) 1)) ∧
  (∀ (s : State) (place : Fin 4096) (w : Waiter), s.part.dev.sync.waiters[place.val]? = some w →
    ∃ t, exec (.waitDeadline place) s = .next t ∧ t.part.mem = s.part.mem ∧ t.part.dev.sync.objs = s.part.dev.sync.objs ∧
      t.part.dev.sync.waiters = listDrop s.part.dev.sync.waiters place.val ∧
      t.part.dev.sync.outcomes = s.part.dev.sync.outcomes ++ [⟨w.agent, w.obj, w.cond, w.value, w.consume, w.deadline, stTimeout⟩] ∧
      t.part.dev.get (pageSync + 0x118) = satAdd (s.part.dev.get (pageSync + 0x118)) 1)

/-- After the waiters of an object are served, none that is left in time has its condition met. For every state of the unit and
every counter or flag: when the unit has tested the object's waiters after a change of value, every waiter of the object
whose deadline has not passed and that is still in the table has a condition that the object's value, after all the
consuming waits, does not meet. (R229, R239) -/
def Obligations.NoSatisfiedWaiterIsLeft : Prop :=
  ∀ (d : Device) (o : Nat) (w : Waiter) (x : SyncObj), w ∈ (d.serve o).sync.waiters → w.obj = o → d.tick 4 ≤ w.deadline → (d.serve o).obj o = some x →
    meets x.val w.value = false

/-- The sync page commands and the debugger view. For a processor: INIT_COUNTER and INIT_FLAG release the waiters of OP_OBJ with
RESET_LOST and make it a fresh counter of ARG0 or flag of bit 0 of ARG0; INIT_BARRIER makes a barrier of PCOUNT 1 to 64 when
fewer than 1,024 other objects are barriers and fails with BARRIER_FAULT otherwise; FREE of an object that is not free
releases its waiters and frees it; CLEAR of a counter at 0 leaves it; CLR_STICKY clears OVERRUN and nothing else of the
object; a reserved command code changes no object and completes with TIMEOUT. OP_STAT shows DONE and the status. A
processor's write of DBG_SEL shows the object's state, value, parent and number of waiters in the four words behind DBG_SEL,
and changes no object, no waiter and no byte of memory. (R225, R227, R228, R232, R259, R263, R264) -/
def Obligations.SyncPageCommands : Prop :=
  (∀ (s : State) (agent : Agent), isProcessor agent.toNat = true →
    let d := s.part.dev
    let o := d.opObj
    let done (d : Device) (status : Nat) : State := s.withDev (d.set (pageSync + 0x150) (2 ^ 31 + status))
    let r := d.releaseAll o stResetLost
    exec (.syncInitCounter agent) s = .next (done (r.setObj o { val := .counter d.opArg0, notify := bits d.opArg1 3 0 }) stOk) ∧
    exec (.syncInitFlag agent) s = .next (done (r.setObj o { val := .flag (bit d.opArg0 0), notify := bits d.opArg1 3 0 }) stOk) ∧
    (let pcount := bits d.opArg0 6 0
     let others := if typeCode (d.obj o) = 3 then d.barUsed - 1 else d.barUsed
     exec (.syncInitBarrier agent) s = .next (if pcount = 0 ∨ 64 < pcount ∨ 1024 ≤ others then done d stBarrierFault
       else done (r.setObj o { val := .barrier pcount [] [] [] false false false (parentArg d.opArg1) }) stOk)) ∧
    (∀ x, d.obj o = some x → exec (.syncFree agent) s =
      .next (done { r with sync := { r.sync with objs := smapErase r.sync.objs o } } stOk)) ∧
    (d.obj o = none → exec (.syncFree agent) s = .next (done (d.wrongType o agent.toNat 0) stTimeout)) ∧
    (∀ x v, d.obj o = some x → x.val = .counter v →
      exec (.syncClear agent) s = .next (done (if v = 0 then d else d.changed o (.counter 0)) stOk)) ∧
    (∀ x, d.obj o = some x → condOf x.val < 2 →
      exec (.syncClrSticky agent) s = .next (done (d.setObj o { x with overrun := false }) stOk)) ∧
    (∀ code : BitVec 4, (code = 0 ∨ 0xA ≤ code.toNat) → exec (.syncCmdReserved code agent) s = .next (done d stTimeout))) ∧
  (∀ (s : State) (v : U32) (agent : Agent), isProcessor agent.toNat = true →
    let d := s.part.dev
    let o := v.toNat % 2 ^ 14
    ∃ t, exec (.dbgSelWrite v agent) s = .next t ∧ t.part.mem = s.part.mem ∧ t.part.dev.sync = d.sync ∧
      t.part.dev.get (pageSync + 0x160) = o ∧
      t.part.dev.get (pageSync + 0x164) = d.dbgState o % 2 ^ 32 ∧
      t.part.dev.get (pageSync + 0x168) = dbgValue (d.obj o) % 2 ^ 32 ∧
      t.part.dev.get (pageSync + 0x16C) = dbgParent (d.obj o) % 2 ^ 32 ∧
      t.part.dev.get (pageSync + 0x170) = (d.sync.waiters.filter (fun w => w.obj == o)).length % 2 ^ 32)

/-- OVERRUN stays set through signals, waits and clears. For every object with OVERRUN set and every operation that reaches the
unit or command of the sync page other than an INIT command, FREE and CLR_STICKY: after it the object is still there with
OVERRUN set. CLR_STICKY of a processor on a counter or flag clears it. (R232) -/
def Obligations.OverrunIsSticky : Prop :=
  (∀ (s t : State) (k : Nat) (x : SyncObj) (o : Obj) (v : U32) (agent : Agent) (cond : Fin 3) (consume : Bool) (deadline : Tick)
      (place : Fin 4096) (code : BitVec 4),
    s.part.dev.obj k = some x → x.overrun = true →
    ∀ i ∈ [Instr.syncCounterAdd o v agent, .syncFlagSet o agent, .syncWaitEnter o cond v consume agent deadline, .waitDeadline place,
        .syncAdd agent, .syncSet agent, .syncClear agent, .syncCmdReserved code agent, .dbgSelWrite v agent],
      exec i s = .next t → ∃ y, t.part.dev.obj k = some y ∧ y.overrun = true) ∧
  (∀ (s : State) (agent : Agent) (x : SyncObj), isProcessor agent.toNat = true → s.part.dev.obj s.part.dev.opObj = some x →
    condOf x.val < 2 → ∃ t y, exec (.syncClrSticky agent) s = .next t ∧ t.part.dev.obj s.part.dev.opObj = some y ∧ y.overrun = false)

/-- Loading a plan, starting it, ending a held heat, and the boundary timeout. For a processor: LOAD with no load in progress,
in a module in service outside the safe state, wakes the dies and begins loading at PLAN_ADDR; START outside the safe state
with the time base locked, no load in progress, no plan started and the module in service zeroes HEAT_NUM, wakes the dies
and goes to the initial barrier. In the safe state both are refused with TRIM_INVALID, and where another condition fails
they are refused and logged. A load that ends with every die awake installs the plan when no check fails and otherwise
reports the first failed check; while a die wakes nothing happens. HOLD_DONE in a held heat ends this module's part and is
refused otherwise. BOUNDARY_TIMEOUT at the root of a running plan without a release declares a domain fault with TIMEOUT,
and does nothing elsewhere. (R43, R182, R201, R215, R218, R254, R510, R530) -/
def Obligations.PlanCommands : Prop :=
  ∀ (s : State) (agent : Agent),
    let d := s.part.dev
    let a := agent.toNat
    let refused (v : Nat) : State := s.withDev (d.refuseCtrl pageHeat v a)
    let unsafe_ (v : Nat) : State := s.withDev ((d.heatEvent 6 stTrimInvalid 0).refuseCtrl pageHeat v a)
    (isProcessor a = true →
      (d.heat.loading ≠ none ∨ d.power.fault = true → exec (.planLoad agent) s = .next (refused 8)) ∧
      (d.heat.loading = none → d.power.fault = false →
        exec (.planLoad agent) s = .next (if d.safe then unsafe_ 8 else s.withDev
          (d.wakeAll.onHeat (fun h => { h with loading := some (d.get64 (pageHeat + 0x160) % 2 ^ 40) }))))) ∧
    (isProcessor a = true →
      (d.safe = true → exec (.planStart agent) s = .next (unsafe_ 4)) ∧
      (d.safe = false → (bit (d.get (pageTb 4 + 0x108)) 0 = false ∨ d.heat.loading ≠ none ∨ d.heat.started = true ∨ d.power.fault = true) →
        exec (.planStart agent) s = .next (refused 4)) ∧
      (d.safe = false → bit (d.get (pageTb 4 + 0x108)) 0 = true → d.heat.loading = none → d.heat.started = false → d.power.fault = false →
        let e : Device := { d with power := { d.power with blocked := [] }, deferred := [], replayAsked := false }
        let e := e.onHeat (fun h => { h with
          started := true, starting := true, arrived := false, dies := [], proposals := [], release := none, replays := 0 })
        exec (.planStart agent) s = .next (s.withDev (e.set64 (pageHeat + 0x10C) 0).wakeAll.initialArrival))) ∧
    (d.heat.loading = none ∨ d.allAwake = false → exec .planLoadDone s = .next s) ∧
    (∀ base, d.heat.loading = some base → d.allAwake = true → s.part.mem.ecc = [] →
      let q := readPlan s.part.mem base
      let e := d.onHeat (fun h => { h with loading := none })
      exec .planLoadDone s = .next (s.withDev (if d.failedCheck s.part.mem q = 0
        then e.installPlan q (s.part.mem.read (base + 0x60) 32) else e.heatEvent 6 stOk (d.failedCheck s.part.mem q)))) ∧
    (isProcessor a = true →
      exec (.holdDone agent) s = .next (s.withDev (if d.heatState = 3
        then (d.onHeat (fun h => { h with holdDone := true })).tryArrive else d.refuseCtrl pageHeat 2 a))) ∧
    (d.isRoot = true → d.planRuns = true → d.heat.release = none → d.heat.kind ≠ 2 →
      exec .boundaryTimeout s = .next (s.withDev
        ((d.reach (d.heat.start + d.heat.len + d.get (pageHeat + 0x130))).declareFault stTimeout d.firstMissing))) ∧
    (d.isRoot = false ∨ d.planRuns = false ∨ d.heat.release ≠ none ∨ d.heat.kind = 2 → exec .boundaryTimeout s = .next s)

/-- Streams are fetched, dies arrive, and the heat starts. STREAM_FETCH fills the spare buffer of a core that is not fenced with
the stream of the next heat program, when its directory entry is sound. A die that is ready arrives, after its unfinished
slots are withdrawn unless a replay runs. HEAT_START with a plan started and a release applies the due commits (before a
maintenance heat those too that wait for one), puts staged settings in force, loads the streams and begins the heat; a
release that names no heat program of the plan is reported as a fault. With no plan, no release or no plan started it does
nothing. A heat that begins and is not armed by HOLD_IDX runs the program, the kind and the class it was released with from
the start tick, with no arrivals and no release left. (R190, R196, R199, R206, R221, R617, R618) -/
def Obligations.HeatBoundary : Prop :=
  (∀ (s : State) (c : Core) (q : Plan),
    let d := s.part.dev
    let n := d.nextProgram q
    d.heat.plan = some q → d.isFenced c.val = false → s.part.mem.ecc = [] →
    (fetchStream s.part.mem q n.1 n.2 c.val).dead = false →
    exec (.streamFetch c) s = .next (s.withDev
      (d.onCore c.val (fun x => { x with spare := some (fetchStream s.part.mem q n.1 n.2 c.val) })))) ∧
  (∀ (s : State) (die : Die),
    exec (.dieArrive die) s = .next (if s.part.dev.dieReady die.val = true
      then s.withPart ((if s.part.dev.replaying then s.part else s.part.lateSlots die.val).onDev (·.dieArrive die.val)) else s)) ∧
  (∀ (s : State) (q : Plan) (r : Release) (p2 : Part),
    let d := s.part.dev
    d.heat.plan = some q → d.heat.release = some r → d.heat.started = true →
    let p1 := (s.part.onDev (·.reach r.start)).applyDue r.start false
    ((∀ y, p1.dev.heatRun q r = some y → y.entry.kind ≠ 1) ∧ p2 = p1 ∨
      (∃ y, p1.dev.heatRun q r = some y ∧ y.entry.kind = 1) ∧ p2 = p1.applyDue r.start true) →
    let p := p2.startPrograms r.start
    (p.dev.heatRun q r = none → exec .heatStart s = .next (s.withPart (p.onDev (·.reportFault true false)))) ∧
    (∀ x, p.dev.heatRun q r = some x →
      let load := fun (p' : Part) => p.dev.usable.foldl (Part.loadStream q x p.dev.perfLevel) p'
      exec .heatStart s = .next (s.withPart
        (if (load p).dev.heat.started then (load p).beginHeat x else load (p.beginHeat x))))) ∧
  (∀ s : State, s.part.dev.heat.plan = none ∨ s.part.dev.heat.release = none ∨ s.part.dev.heat.started = false →
    exec .heatStart s = .next s) ∧
  (∀ (p : Part) (x : HeatRun), x.armed = false →
    let h := (p.beginHeat x).dev.heat
    h.prog = x.prog ∧ h.kind = x.entry.kind ∧ h.start = x.start ∧ h.cls = x.cls ∧ h.release = none ∧ h.dies = [] ∧
    h.proposals = [] ∧ h.holdDone = false ∧ h.arrived = false)

/-- Admission fills the bank of the next heat once, and its copies and acknowledgements complete. With a plan started and no
proposal of the die made: during a replay with the bank filled the die proposes its class again and the bank stays; for a
maintenance or held heat it empties the bank and proposes without taking a request; for a heat that takes requests it reads
the cancels, refills old-generation requests, fills the slots and proposes the class of the slots. The oldest copy-on-write
copy of a die is copied and named in its list. A listed adapter slot is staged. A holding module's acknowledgement is taken
off the slots that await it. A note from a home module is answered. (R300, R323, R326, R328, R330) -/
def Obligations.Admission : Prop :=
  (∀ (s : State) (die : Die) (space : List Addr) (q : Plan),
    let p := s.part.onDev (·.addSpace die.val (space.map (·.toNat)))
    let propose (p : Part) (cls : Nat) : State := s.withPart (p.onDev (fun d =>
      (d.onDie die.val (fun y => { y with cls := cls, filled := true })).onHeat (fun h =>
        { h with proposals := h.proposals ++ [(die.val, cls)] })))
    p.dev.heat.plan = some q → p.dev.heat.started = true → p.dev.heat.proposals.any (fun e => e.1 == die.val) = false →
    (p.dev.replaying = true → (p.dev.dieServing die.val).filled = true →
      exec (.admission die space) s = .next (propose p (p.dev.dieServing die.val).cls)) ∧
    (p.dev.replaying = false ∨ (p.dev.dieServing die.val).filled = false →
      let p1 := ((p.readCancels die.val).refillOld die.val).onDev (·.onDie die.val (fun y => { y with noted := none }))
      (q.heats[(p1.dev.nextProgram q).1]? = none → exec (.admission die space) s = .next (propose p1 0)) ∧
      ∀ h, q.heats[(p1.dev.nextProgram q).1]? = some h →
      (h.kind = 0 → exec (.admission die space) s =
        .next (propose ((p1.fillSlots die.val q h).1.evictLow.showRequests die.val) (p1.fillSlots die.val q h).2)) ∧
      (h.kind ≠ 0 →
        let p2 := p1.onDev (·.onDie die.val (fun y => { y with next := [], adpNext := [], staged := [] }))
        exec (.admission die space) s = .next (propose (p2.fillBank die.val (p2.dev.nextBank die.val) [] []) 0)))) ∧
  (∀ (s : State) (die : Die) (space : List Addr) (c : PageCopy) (l : List PageCopy),
    let p := s.part.onDev (·.addSpace die.val (space.map (·.toNat)))
    let p1 := p.onDev (·.onDie die.val (fun y => { y with copies := l }))
    (p.dev.dieServing die.val).copies = c :: l →
    (p1.dev.sequence c.seq = none → exec (.cowCopyDone die space) s = .next (s.withPart (p1.onDev (·.dropPage c.target)))) ∧
    (∀ x, p1.dev.sequence c.seq = some x → exec (.cowCopyDone die space) s = .next (s.withPart ((p1.copyPage x c).onDev (fun d =>
      (d.onSequence c.seq (·.onList c.lslot (fun l => { l with ents := listSet l.ents c.index (listEntry c.target false) }))).count
        (pagePst die.val + 0x16C)))))) ∧
  (∀ (s : State) (die : Die) (i : Fin 16) (slot : Nat), (s.part.dev.dieServing die.val).adpNext[i.val]? = some slot → s.part.mem.ecc = [] →
    ∃ t, exec (.adapterStageDone die i) s = .next t ∧
      (t.part.dev.dieServing die.val).staged = setInsert (s.part.dev.dieServing die.val).staged i.val) ∧
  (∀ (s : State) (die : Die) (entry : Fin 4096) (holder : Node) (starved : Bool) (u : SlotUse),
    let d := s.part.dev
    (d.dieServing die.val).next.find? (fun u => u.entry == entry.val && u.awaited.contains holder.toNat) = some u →
    let e := d.onDie die.val (fun y => { y with next := y.next.map (fun v =>
      if v = u then { v with awaited := setErase v.awaited holder.toNat, overflow := v.overflow || starved } else v) })
    exec (.shardAdmitAck die entry holder starved) s = .next (s.withDev (if starved then e.starve u.seq else e))) ∧
  (∀ (s : State) (die : Die) (entry : Fin 4096) (kind : Fin 4) (ntok : BitVec 16) (pos : U32) (pages : Nat) (home : Node)
      (record : BitVec 16),
    ∃ t starved, exec (.shardAdmitNote die entry kind ntok pos pages home record) s = .next t ∧
      (.shardAck home.toNat die.val entry.val starved) ∈ t.part.dev.sent)

/-- Records are found, accepted with their effect, or refused. A notify of a tenant's submission counter takes up its records in
STATE 1 (stated here for a tenant of one record). A found record of each of the five kinds that fails a check is refused
with the status of the check. One that passes is accepted: a generate record without adapter and prefix caching gets its
sequence and SEQ_ID and is published, an adapter load starts its load, a retire makes the ready slots of its identity
retiring and completes, a grammar install writes the entry and completes, and a grammar removal removes the table once no
record uses it. A tenant that holds as many adapters as it may is refused another. An adapter load whose image verifies
becomes ready at the next commit. (R317, R318, R319, R338, R341, R342, R343) -/
def Obligations.RequestRecords : Prop :=
  (∀ (s : State) (die : Die) (o : Obj) (t r : Nat),
    let p := s.part.onDev (·.onSync (fun u => { u with notify := dropFirst (fun n => n == (die.val, o.val)) u.notify }))
    s.part.mem.ecc = [] → p.submitTenant o.val = some t → p.recRange t = (r, 1) → r < 8192 → recordDie r = die.val →
    p.mem.nat (p.dev.recAddr r + 0x80) 1 = 1 → p.dev.request r = none → (p.dev.dieServing die.val).found.any (fun f => f.1 == r) = false →
    exec (.submitNotify die o) s = .next (s.withPart
      (p.findRecord r t ((((smapFind p.dev.sync.objs o.val).bind (·.lastSig)).map (·.2)).getD 0)))) ∧
  (∀ (s : State) (r : RecIx) (t arrive st : Nat) (c : RecCopy),
    let p := s.part.touchRecord r.val
    p.recordProblem r.val t c = some st →
    let refused := p.refuseRecord r.val t arrive st c
    (p.foundRecord r.val 1 = some (t, arrive, c) →
      exec (.adapterLoadRecord r) s = .next (s.withPart (refused.onDev (·.adapterFailed r.val st c)))) ∧
    (p.foundRecord r.val 2 = some (t, arrive, c) → exec (.adapterRetireRecord r) s = .next (s.withPart refused)) ∧
    (p.foundRecord r.val 3 = some (t, arrive, c) → exec (.grammarInstallRecord r) s = .next (s.withPart refused)) ∧
    (p.foundRecord r.val 4 = some (t, arrive, c) → exec (.grammarRemoveRecord r) s = .next (s.withPart refused))) ∧
  (∀ (s : State) (r : RecIx) (t arrive : Nat) (c : RecCopy),
    let p := s.part.touchRecord r.val
    p.recordProblem r.val t c = none →
    (p.foundRecord r.val 1 = some (t, arrive, c) → p.adaptersHeld t < p.mem.nat (p.dev.tenSrv t + 8) 2 →
      exec (.adapterLoadRecord r) s = .next (s.withPart ((p.acceptRecord r.val t arrive c id).startLoad r.val))) ∧
    (p.foundRecord r.val 1 = some (t, arrive, c) → p.mem.nat (p.dev.tenSrv t + 8) 2 ≤ p.adaptersHeld t →
      exec (.adapterLoadRecord r) s = .next (s.withPart
        ((p.refuseRecord r.val t arrive stTenant c).onDev (·.adapterFailed r.val stTenant c)))) ∧
    (p.foundRecord r.val 2 = some (t, arrive, c) →
      let slots := (List.range 1024).filter (fun s => p.adpState s == 2 && p.adpIs s (rcAdapter c) t)
      exec (.adapterRetireRecord r) s = .next (s.withPart
        ((slots.foldl (fun p s => p.setAdpState s 3) p).completeRecord r.val t arrive c))) ∧
    (p.foundRecord r.val 3 = some (t, arrive, c) →
      let p := p.touch (rcPrompt c) 64
      exec (.grammarInstallRecord r) s = .next (s.withPart ((p.setGrammar (rcGrammarId c)
        (leBytes 8 (rcPrompt c) ++ leBytes 4 (p.mem.nat (rcPrompt c + 4) 4) ++ leBytes 1 t ++ [1, 0, 0])).completeRecord r.val t arrive c))) ∧
    (p.foundRecord r.val 4 = some (t, arrive, c) →
      exec (.grammarRemoveRecord r) s = .next (s.withPart ((p.acceptRecord r.val t arrive c id).removeGrammar r.val)))) ∧
  (∀ (s : State) (r : RecIx) (space : List Addr) (t arrive : Nat) (c : RecCopy),
    let p0 := (s.part.onDev (·.addSpace (recordDie r.val) (space.map (·.toNat)))).touchRecord r.val
    p0.foundRecord r.val 0 = some (t, arrive, c) →
    (∀ st, p0.recordProblem r.val t c = some st →
      exec (.generateRecord r space) s = .next (s.withPart (p0.refuseRecord r.val t arrive st c))) ∧
    (p0.recordProblem r.val t c = none → rcAdapter c = 0 →
      let p := p0.touch (rcPrompt c) (4 * rcPromptLen c)
      let d := p.dev
      let nshard := bits (d.get (pageKv + 0x10C)) 4 0
      let gen := d.get (pageBlt + 0x100)
      let chain := digestChain (d.scopeKey t) gen (List.replicate 16 0) ((promptBlocks p.mem c).map (·.1))
      let x : Sequence :=
        { seqId := d.newSeqId, tenant := t, die := recordDie r.val, dir := 0, ovf := 0, striped := decide (1 < nshard), modelGen := gen
          shard := d.node % 16 % nshard, nshard := nshard, digests := chain }
      let granted := (p.newSequence r.val x).bind (·.writeChain (recordDie r.val) chain)
      (granted = none → exec (.generateRecord r space) s = .next (s.withPart p)) ∧
      (∀ p1, granted = some p1 →
        let p2 := (p1.acceptRecord r.val t arrive c (fun q =>
          { q with seqId := x.seqId, adpSlot := 0xFFFF, gstate := rcGstart c, draftNext := rcDraftMax c })).onDev (·.drawn)
        p2.dev.pfxOn = false → 0 < rcPromptLen c →
        exec (.generateRecord r space) s = .next (s.withPart (p2.publish r.val 0))))) ∧
  (∀ (s : State) (r : RecIx) (slot : Nat) (q : Request),
    let p := s.part.onDev (·.onServing (fun v => { v with loads := v.loads.filter (fun l => l.1 != r.val) }))
    let len := rcPromptLen q.copy
    let src := rcPrompt q.copy
    s.part.dev.serving.loads.find? (fun l => l.1 == r.val) = some (r.val, slot) → s.part.dev.request r.val = some q → s.part.mem.ecc = [] →
    (imageUse p.mem src len q.tenant).any (·.stranger) = false → (imageUse p.mem src len q.tenant).filter (·.crcFail) = [] →
    sha256 (p.mem.read src (64 * len)) = rcHash q.copy →
    exec (.adapterLoadDone r) s = .next (s.withPart ((p.copyGranules src (p.dev.adpImage slot) len).onDev
      (·.onServing (fun v => { v with ready := v.ready ++ [(r.val, slot)] })))))

/-- Walks, retried walks, samples and reheats go on with their next unit of work. WALK takes the next live entry of the ATTN
word in front of the bellows and settles the word; in a maintenance heat, and when no live entry is left, it takes the word
out. A retry runs in the reheat window, and ends with LIST_CHANGED when the heat has none. A SAMPLE word of core 0 of a
cluster, in a heat that is no maintenance heat, samples every slot of its entries with SAMPLE set, or is dropped when the
sampler's queue of two is full; another SAMPLE word samples nothing. The next eligible tile of the reheat window is reheated
in its form when its cost fits, and delivered UNMENDED otherwise. (R191, R202, R203, R211, R216, R282, R297, R334) -/
def Obligations.WalksSamplesAndReheats : Prop :=
  (∀ (s : State) (k : Cluster) (errors : EccFaults) (op : AttnOp) (l : List AttnOp),
    let p := s.part.onMem (·.arise errors)
    (p.dev.core (clusterCore k.val)).attnQ = op :: l →
    (p.dev.heat.kind = 1 → exec (.walk k errors) s = .next (s.withPart (p.onDev (·.setAttn k.val l)))) ∧
    (p.dev.heat.kind ≠ 1 → p.liveEntries (clusterDie k.val) (attnWord op.word) op.done = [] →
      exec (.walk k errors) s = .next (s.withPart (p.onDev (·.setAttn k.val l)))) ∧
    (p.dev.heat.kind ≠ 1 → ∀ e es, p.liveEntries (clusterDie k.val) (attnWord op.word) op.done = e :: es →
      exec (.walk k errors) s = .next (s.withPart ((p.walkEntry k.val op e).1.settleWord k.val (p.walkEntry k.val op e).2 l)))) ∧
  (∀ (s : State) (k : Cluster) (r : WalkRetry) (l : List WalkRetry),
    let c := clusterCore k.val
    let x := s.part.dev.core c
    let p := s.part.onDev (·.onCore c (fun x => { x with retries := l }))
    x.retries = r :: l →
    (∀ w, x.window = some w →
      exec (.walkRetry k) s = .next (s.withPart (p.retryWalk k.val r (w.endTick - p.dev.tick (clusterDie k.val))))) ∧
    (x.window = none → x.bound = true →
      exec (.walkRetry k) s = .next (s.withPart (p.endWalk (s.part.walkJob k.val r.word r.entry) stListChanged 0))) ∧
    (x.window = none → x.bound = false → exec (.walkRetry k) s = .next s)) ∧
  (∀ (s : State) (c : Core) (w : Nat), s.part.dev.AtWord c.val w → wOp w = opSample →
    let p : Part := { s.part with dev := s.part.dev.issued c.val w }
    let x := sampleWord w
    let entries := ((List.range x.count).map (x.first + ·)).filter (· < 4096)
    (c.val % 16 ≠ 0 ∨ p.dev.heat.kind = 1 → exec (.sample c) s = .next (s.withPart p)) ∧
    (c.val % 16 = 0 → p.dev.heat.kind ≠ 1 →
      let rows := sampledEntries 0 (entries.map (p.slotNow (c.val / 128)))
      let tick := s.part.dev.wordTick c.val w
      (∀ y, (p.dev.core c.val).takeSample tick (p.sampleTicks rows) = some y → exec (.sample c) s = .next (s.withPart
        (rows.foldl (fun p e => p.sampleSlot c.val (c.val / 128) x e.1 e.2) { p with dev := p.dev.setCore c.val y }))) ∧
      ((p.dev.core c.val).takeSample tick (p.sampleTicks rows) = none → exec (.sample c) s = .next (s.withDev
        (p.dev.dropWord c.val (s.part.dev.wordPtr c.val) tick w))))) ∧
  (∀ (s : State) (c : Core) (w : Window) (e : Nat) (t : Tile) (l : List (Nat × Tile)),
    let d := s.part.dev
    let m := s.part.mem
    (d.core c.val).window = some w → (d.core c.val).eligible = (e, t) :: l → m.ecc = [] →
    let missed := s.withDev ((d.unmend c.val e w.idx opWindow).onWindow c.val Window.miss)
    (d.formOf m c.val e t = none → exec (.reheat c) s = .next missed) ∧
    (∀ form, d.formOf m c.val e t = some form →
      let cost := reheatCost (d.level c.val) (joinsOf (d.wordsOf c.val e t)).length t.shape t.split form
      (w.left < cost → exec (.reheat c) s = .next missed) ∧
      (cost ≤ w.left → exec (.reheat c) s = .next (s.withDev
        (((d.reheatTile m c.val e t form).count (pageNum (c.val / 128) + 0x118)).onWindow c.val (fun w => w.spend cost))))))

/-- A mesh port checks, counts and forwards every frame. The FEC of a port counts the codewords it corrects and those it cannot,
which also raise their event and enter the history of a lane. A frame on a port of MODE 0 or 3 is then dropped, and on a
host port counted. On a mesh port a frame with a wrong FCS counts FCS_ERR alone; one that fails MACsec is counted and raises
its event; one in the wrong class, or sent neither to the port nor as one of the broadcast types, counts STRANGER_CNT; every
other frame counts RX_FRAMES by 1 and RX_BYTES by its size, and is for this module or travels on. A frame that travels on
with HOPS 0 counts HOPS_DROP_CNT, one to a group that the domain lacks counts UNROUTABLE_CNT, and another leaves with HOPS
less 1 on the port of its route. (R419, R423, R424, R426, R428, R429, R458, R583) -/
def Obligations.FrameChecks : Prop :=
  (∀ (d : Device) (p : Nat) (f : MeshHdr) (type : Nat),
    let e := d.set (pagePort p + 0x140) (Nat.min 0xFFFFFFFF (d.get (pagePort p + 0x140) + f.fecCorrected))
    (f.fecUncorrectable = 0 → d.fecSeen p f type = e) ∧
    (f.fecUncorrectable ≠ 0 → d.fecSeen p f type =
      ((e.set (pagePort p + 0x144) (Nat.min 0xFFFFFFFF (e.get (pagePort p + 0x144) + f.fecUncorrectable))).portEvent p 2 stOk type
        f.src.toNat f.seq.toNat).linkRecord p)) ∧
  (∀ (e : Device) (p : Nat) (f : MeshHdr) (c : Cell), let d := e.fecSeen p f c.type
    d.portMode p = 1 →
    let counted := (d.count64 (pagePort p + 0x128) 1).count64 (pagePort p + 0x138) c.size
    let reaches := f.fcsOk = true ∧ (bit (d.get (pagePort p + 0x100)) 12 = true → f.macsecOk = true) ∧ f.express = c.express ∧
      (f.toOwn = true ∨ (f.broadcast = true ∧ 9 ≤ c.type ∧ c.type ≤ 0xB))
    ((e.intake p f c).1 = true ↔ reaches ∧ (f.broadcast = true ∨ f.dst.toNat = d.node)) ∧
    ((e.intake p f c).1 = true → (e.intake p f c).2 = counted) ∧
    (reaches → f.broadcast = false → f.dst.toNat ≠ d.node → e.intake p f c = (false, counted.forward p f c)) ∧
    (f.fcsOk = false → e.intake p f c = (false, d.count (pagePort p + 0x148))) ∧
    (f.fcsOk = true → f.macsecOk = false → bit (d.get (pagePort p + 0x100)) 12 = true → e.intake p f c =
      (false, (d.count (pagePort p + 0x15C)).portEvent p 6 stOk c.type f.src.toNat f.seq.toNat)) ∧
    (f.fcsOk = true → (bit (d.get (pagePort p + 0x100)) 12 = true → f.macsecOk = true) →
      f.express ≠ c.express ∨ (f.toOwn = false ∧ (f.broadcast = false ∨ c.type < 9 ∨ 0xB < c.type)) → e.intake p f c =
      (false, (d.count (pagePort p + 0x154)).portEvent p 5 stOk c.type f.src.toNat f.seq.toNat))) ∧
  (∀ (e : Device) (p : Nat) (f : MeshHdr) (c : Cell), let d := e.fecSeen p f c.type
    d.portMode p ≠ 1 → e.intake p f c = (false, if d.portMode p = 2 then d.count (pagePort p + 0x158) else d)) ∧
  (∀ (d : Device) (p : Nat) (f : MeshHdr) (c : Cell), let groups := bits (d.get (pageMesh + 0x100)) 21 16
    (f.hops.toNat = 0 → d.forward p f c = d.count (pagePort p + 0x168)) ∧
    (f.hops.toNat ≠ 0 → groups ≠ 0 → groups * 16 ≤ f.dst.toNat → d.forward p f c = d.count (pagePort p + 0x16C)) ∧
    (f.hops.toNat ≠ 0 → groups = 0 ∨ f.dst.toNat < groups * 16 → d.forward p f c =
      (d.count (pageMesh + 0x118)).sendOn (d.portTo f.dst.toNat c.bulkOdd) f.src.toNat f.dst.toNat (f.hops.toNat - 1) f.heat.toNat false c))

/-- A cell that is for this module acts, any other leaves only the port. A signal cell applies its operation at once or, with
DEFER, joins the deferred signals; barrier arrivals, releases and faults and the arrivals and releases of a heat act on the
unit and the heat controller. A release and a fault of a barrier bring no word of which processor sent them, so their
agent's number is free (log entry 44). A cell that is not for this module does nothing beyond what the port does with it.
(R197, R201, R236, R243, R424) -/
def Obligations.CellsActOnThisModule : Prop :=
  ∀ (s : State) (p : Port) (f : MeshHdr),
    let acts (i : Instr) (c : Cell) (act : Device → Device) : Prop :=
      ((s.part.dev.intake p.val f c).1 = true → exec i s = .next (s.withDev (act (s.part.dev.intake p.val f c).2))) ∧
      ((s.part.dev.intake p.val f c).1 = false → exec i s = .next (s.withDev (s.part.dev.intake p.val f c).2))
    (∀ obj sop value agent,
      acts (.signalCell p f obj sop false value agent) (.signal obj.toNat sop.toNat value.toNat agent.toNat false)
        (fun d => d.sendSignals (sopMsg sop.toNat obj.toNat value.toNat agent.toNat)) ∧
      acts (.signalCell p f obj sop true value agent) (.signal obj.toNat sop.toNat value.toNat agent.toNat true)
        (fun d => { d with deferred := d.deferred ++ (sopMsg sop.toNat obj.toNat value.toNat agent.toNat).map (fun m => ⟨4, 0, 0, m⟩) })) ∧
    (∀ obj agent, acts (.barArriveCell p f obj agent) (.barArrive obj.toNat agent.toNat)
      (fun d => d.sendSignals [.arrive obj.toNat agent.toNat])) ∧
    (∀ obj, acts (.barReleaseCell p f obj) (.barRelease obj.toNat) (fun d =>
        (d.sendSignals [.release obj.toNat (agentId f.src.toNat 4 (Config.faultIndex d.free).toNat)]).drawn) ∧
      acts (.barFaultCell p f obj) (.barFault obj.toNat) (fun d =>
        Device.faultBarrier 1025 obj.toNat (agentId f.src.toNat 4 (Config.faultIndex d.free).toNat) d.drawn)) ∧
    (∀ (num : U32) (replay fault : Bool) (marks : ArriveMarks) (level cls : BitVec 8) (missing : Node),
      acts (.heatArriveCell p f num replay fault marks level cls missing)
        (.heatArrive num.toNat replay fault marks.unlock level.toNat cls.toNat missing.toNat marks.stress)
        (fun d => d.arriveCell ⟨f.src.toNat, num.toNat, replay, fault, marks.unlock, level.toNat, cls.toNat, missing.toNat, marks.stress⟩)) ∧
    (∀ (num : U32) (start : Tick) (level : BitVec 8) (replay fault : Bool) (classes : BitVec 128),
      acts (.heatReleaseCell p f num start level replay fault classes)
        (.heatRelease num.toNat start.toNat level.toNat replay fault (groupClassesOf classes.toNat))
        (fun d => d.releaseCell ⟨num.toNat, start.toNat, level.toNat, replay, fault, groupClassesOf classes.toNat⟩)) ∧
    (∀ node evt, evt.toNat ≠ 0xFFFF → acts (.faultCell p f node evt) (.fault node.toNat evt.toNat)
      (fun d => if d.isRoot then d.declareFault stOk node.toNat else d))

/-- A DATA frame is written, refused or forwarded, and a DONE frame closes its operation. DATA_FRAME completes whatever it
brings. A frame that is not for this module does what the port does with it, and one that a check dropped here leaves its
transfer marked as not whole. A frame of a tree part joins the part. The status of another frame is TENANT_VIOLATION where
its tenant may not write there, else RESET_LOST in a region under reset, else NARROW_WRITE, else OK; a relayed operation of
which a frame was refused is NARROW_WRITE from then on. Under OK it writes its granules, those with a POISON bit in the
poisoned form, as pieces in order, and under another status no byte of memory changes. The last frame of a transfer written
whole applies its signal, and a refused frame of a tenant is answered by a DONE frame. A DONE frame that is not OK is
counted; it ends the relayed operation that awaits it, and does nothing more without its session or its operation. (R167,
R194, R241, R242, R258, R386, R387, R425, R427, R455, R519) -/
def Obligations.DataAndDoneFrames : Prop :=
  (∀ (s : State) (p : Port) (f : MeshHdr) (h : DataHdr) (payload : List Byte),
    let r := s.part.dev.intake p.val f (.data h payload)
    let m : Part := { s.part with dev := r.2 }
    let data := padTo (64 * h.len) 0 payload
    let woken := m.onDev (·.wakeRange h.addr.toNat (64 * h.len))
    let written := ((woken.writePieces h.addr.toNat data (headerPoison h)).shardData h.addr.toNat data.length).onDev
      (·.noteWriter h.tenant.toNat h.addr.toNat data.length)
    let own := m.frameStatus h
    let status := if h.bht = true ∧ m.dev.mesh.broken.contains (frameKey f.src.toNat h) = true ∧ own = stOk then stNarrow else own
    (r.1 = false → s.part.dev.drops p.val f = true → exec (.dataFrame p f h payload) s = .next (s.withDev (r.2.frameLost f.src.toNat h))) ∧
    (r.1 = false → s.part.dev.drops p.val f = false → exec (.dataFrame p f h payload) s = .next (s.withDev r.2)) ∧
    (∀ off, r.1 = true → h.bht = false → Config.partOffset h.addr.toNat = some off →
      exec (.dataFrame p f h payload) s = .next (s.withDev (r.2.partFrame f.src.toNat off h data))) ∧
    (r.1 = true → h.bht = true ∨ Config.partOffset h.addr.toNat = none → ∃ t, exec (.dataFrame p f h payload) s = .next t ∧
      (status = stOk → t.part.mem = written.mem) ∧ (status ≠ stOk → t.part.mem = s.part.mem)) ∧
    (r.1 = true → m.dev.mesh.broken = [] → h.bht = false → Config.partOffset h.addr.toNat = none → own = stOk →
      m.dev.allHere h.addr.toNat h.len = true →
      exec (.dataFrame p f h payload) s = .next (s.withPart (written.onDev (fun d =>
        let e := { d with mesh := { d.mesh with broken := d.mesh.broken.filter (fun k => k != frameKey f.src.toNat h &&
          (k != lostKey f.src.toNat h || !h.last)) } }
        if h.last && h.sig then e.farSignal h.obj.toNat h.sop.toNat h.value.toNat h.agent.toNat h.defer else e)))) ∧
    ((h.tenant ≠ 0xFF ∧ m.tenantMay h.tenant.toNat h.addr.toNat (64 * h.len) true = false → own = stTenant) ∧
     (h.tenant = 0xFF ∨ m.tenantMay h.tenant.toNat h.addr.toNat (64 * h.len) true = true →
       (m.dev.inReset h.addr.toNat (64 * h.len) = true → own = stResetLost) ∧
       (m.dev.inReset h.addr.toNat (64 * h.len) = false → isNarrow h.addr.toNat (64 * h.len) = true → own = stNarrow) ∧
       (m.dev.inReset h.addr.toNat (64 * h.len) = false → isNarrow h.addr.toNat (64 * h.len) = false → own = stOk)))) ∧
  (∀ (d : Device) (h : DataHdr),
    d.refuseFrame h stTenant = d.tenantRefused h.tenant.toNat h.addr.toNat ∧
    d.refuseFrame h stNarrow = d.refuseNarrow h.addr.toNat (64 * h.len) h.agent.toNat ∧ d.refuseFrame h stResetLost = d) ∧
  (∀ (s : State) (p : Port) (f : MeshHdr) (opid : U32) (status : BitVec 8) (session : BitVec 16),
    let r := s.part.dev.intake p.val f (.done opid.toNat status.toNat session.toNat)
    let d := if status.toNat = stOk then r.2 else r.2.count (pageMesh + 0x11C)
    (r.1 = false → exec (.doneFrame p f opid status session) s = .next (s.withDev r.2)) ∧
    (r.1 = true → d.session session.toNat = none → exec (.doneFrame p f opid status session) s = .next (s.withDev d)) ∧
    (∀ x, r.1 = true → d.session session.toNat = some x → x.ops.find? (fun q => q.opid == opid.toNat && q.awaited) = none →
      exec (.doneFrame p f opid status session) s = .next (s.withDev d)) ∧
    (∀ x o, r.1 = true → d.session session.toNat = some x → x.ops.find? (fun q => q.opid == opid.toNat && q.awaited) = some o →
      exec (.doneFrame p f opid status session) s = .next (s.withDev (d.finishOp session.toNat o (o.conds ++ [status.toNat])))))

/-- Timing messages steer, step, lock and unlock the time base. TIMING_SEND of a module other than the time master sends a
request with its tick on TB_PORT. A request for this module is returned with the ticks of its arrival and its return and the
offsets of this module. A response whose half round trip exceeds HOP_LAT is counted and raises EVT.LATENCY. A response at an
unlocked module that has not stepped, with no plan running, steps every counter once by the offset; another response becomes
the offsets of TB_STAT, and with both offsets in the limits counts toward the lock, which the hundredth gains; out of them a
locked module loses its lock. A timing cell that is not for this module leaves only the port. Silence loses the lock of a
locked module that is not the master, and of no other; where the master has left service (a free value, log entry 44) a
started heat ends in a domain fault. Reading TB_NOW_LO latches the high word. (R251, R252, R254, R255, R256, R266, R434,
R435) -/
def Obligations.TimingMessages : Prop :=
  (∀ (s : State), let d := s.part.dev
    let w := d.get (pageMesh + 0x110)
    let e := d.loseLock d.masterOffset
    (bit w 31 = true → exec .timingSend s = .next s) ∧
    (bit w 31 = false → exec .timingSend s = .next (s.withDev (d.cellOn (bits w 2 0) false (.timing 0 d.now 0 0 0 0)))) ∧
    (d.locked = true → bit w 31 = false → Config.masterGone e.free = true → e.heat.started = true →
      exec .timingSilence s = .next (s.withDev (e.domainFault stOk 0).drawn)) ∧
    (d.locked = true → bit w 31 = false → Config.masterGone e.free = false ∨ e.heat.started = false →
      exec .timingSilence s = .next (s.withDev e.drawn)) ∧
    (d.locked = false ∨ bit w 31 = true → exec .timingSilence s = .next s)) ∧
  (∀ (s : State) (die : PDie), let d := s.part.dev
    exec (.tbNowLoRead die) s = .next (s.withDev (d.set (pageTb die.val + 0x104) (d.tick die.val / 2 ^ 32)))) ∧
  (∀ (s : State) (p : Port) (f : MeshHdr) (t1 : Tick),
    let r := s.part.dev.intake p.val f (.timing 0 t1.toNat 0 0 0 0)
    (r.1 = false → exec (.timingRequest p f t1) s = .next (s.withDev r.2)) ∧
    (r.1 = true → exec (.timingRequest p f t1) s = .next (s.withDev (r.2.sendOn p.val r.2.node f.src.toNat 24 r.2.heatField false
      (.timing 1 t1.toNat r.2.now r.2.now (if r.2.node = 0 then 0 else toTwos 8 r.2.masterOffset)
        (if r.2.node % 16 = 0 then 0 else toTwos 8 r.2.groupOffset)))))) ∧
  (∀ (s : State) (p : Port) (f : MeshHdr) (t1 t2 t3 t4 : Tick) (m g : BitVec 8),
    let r := s.part.dev.intake p.val f (.timing 1 t1.toNat t2.toNat t3.toNat m.toNat g.toNat)
    let trip := Int.tdiv (((t4.toNat : Int) - t1.toNat) - ((t3.toNat : Int) - t2.toNat)) 2
    let late := (bits (r.2.get (pagePort p.val + 0x108)) 15 0 : Int) < trip
    let counted := (r.2.count (pagePort p.val + 0x160)).portEvent p.val 3 stOk 0x08 f.src.toNat f.seq.toNat
    (r.1 = false → exec (.timingResponse p f t1 t2 t3 t4 m g) s = .next (s.withDev r.2)) ∧
    (∀ d, d = (if late then counted else r.2) → r.1 = true →
      let own : Int := Int.tdiv (((t2.toNat : Int) - t1.toNat) - ((t4.toNat : Int) - t3.toNat)) 2
      let master := own + signed 8 m.toNat
      let group := if d.node % 16 = 0 then 0 else own + signed 8 g.toNat
      let e := (d.stepClock master).afterTiming 0 0
      (d.locked = false → d.mesh.stepped = false → d.planRuns = false → exec (.timingResponse p f t1 t2 t3 t4 m g) s =
        .next (s.withDev { e with mesh := { e.mesh with stepped := true, inLimits := 0 } })) ∧
      (d.locked = true ∨ d.mesh.stepped = true ∨ d.planRuns = true → exec (.timingResponse p f t1 t2 t3 t4 m g) s =
        .next (s.withDev (d.afterTiming master group))))) ∧
  (∀ (d : Device) (master group : Int),
    (20 < master.natAbs ∨ 6 < group.natAbs → (d.afterTiming master group).mesh.inLimits = 0 ∧ (d.afterTiming master group).locked = false) ∧
    (master.natAbs ≤ 20 → group.natAbs ≤ 6 → (d.afterTiming master group).mesh.inLimits = d.mesh.inLimits + 1 ∧
      (d.afterTiming master group).locked = (d.locked || decide (100 ≤ d.mesh.inLimits + 1))))

/-- Ports train, measure their hop latency and go down. PORT_TRAINING of a port that is enabled with MODE not 0 and gains FEC
lock sets it up and locked and calibrates its lanes; it raises EVT.UP where it was not up, and a mesh port starts 1,024
TRAIN cells; otherwise nothing changes. A TRAIN request is returned with the turnaround, a returned cell gives the figure of
its round trip less the turnaround, and one that comes when the port is not training is held against HOP_LAT. At the end
HOP_LAT is the largest figure halved and rounded up plus 4 ns, HOP_JIT the spread, TRAINED is 1 and HOP_MEAS is measured.
RETRAIN while a plan runs is ignored and captured; at another time TRAINED is cleared and a mesh port that is up and locked
trains again. A port that goes down clears its state, raises EVT.DOWN, counts it and enters the history of a lane (which of
the four is free, log entry 44); for a mesh port the root declares a domain fault and another module sends a FAULT cell
where it has a port up. (R433, R434, R436, R458, R583) -/
def Obligations.TrainingAndLinks : Prop :=
  (∀ (s : State) (p : Port) (lock preempt : Bool) (rate : BitVec 2), let d := s.part.dev
    let cfg := d.get (pagePort p.val + 0x100)
    let set := (d.set (pagePort p.val + 0x104) (3 + 4 * flag preempt + 32 * rate.toNat)).calibrateLanes p.val
    let up := if bit (d.get (pagePort p.val + 0x104)) 0 then set else set.portEvent p.val 0 stOk 0 0 0
    (lock = false ∨ bit cfg 31 = false ∨ bits cfg 1 0 = 0 → exec (.portTraining p lock preempt rate) s = .next s) ∧
    (lock = true → bit cfg 31 = true → bits cfg 1 0 = 1 → exec (.portTraining p lock preempt rate) s = .next (s.withDev
      ((up.onPort p.val (fun x => { x with training := true, figures := [] })).sendTrain p.val))) ∧
    (lock = true → bit cfg 31 = true → bits cfg 1 0 ≠ 0 → bits cfg 1 0 ≠ 1 →
      exec (.portTraining p lock preempt rate) s = .next (s.withDev up))) ∧
  (∀ (s : State) (p : Port) (f : MeshHdr) (role : BitVec 8) (seq : U32) (sent : Tick) (turn : U32),
    let r := s.part.dev.intake p.val f (.train role.toNat seq.toNat sent.toNat turn.toNat)
    let figure := r.2.now - sent.toNat - turn.toNat
    let seen : Int := ((r.2.now : Int) - sent.toNat - turn.toNat) / 2
    (r.1 = false → exec (.trainCell p f role seq sent turn) s = .next (s.withDev r.2)) ∧
    (r.1 = true → role.toNat = 0 → exec (.trainCell p f role seq sent turn) s = .next (s.withDev
      ((r.2.cellOn p.val true (.train 1 seq.toNat sent.toNat (Config.turnaround r.2.free).toNat)).drawn))) ∧
    (r.1 = true → role.toNat ≠ 0 → (r.2.port p.val).training = true → exec (.trainCell p f role seq sent turn) s = .next (s.withDev
      (r.2.onPort p.val (fun x => { x with figures := x.figures ++ [figure] })))) ∧
    (r.1 = true → role.toNat ≠ 0 → (r.2.port p.val).training = false → (bits (r.2.get (pagePort p.val + 0x108)) 15 0 : Int) < seen →
      exec (.trainCell p f role seq sent turn) s = .next (s.withDev
        ((r.2.count (pagePort p.val + 0x160)).portEvent p.val 3 stOk 0x09 f.src.toNat f.seq.toNat))) ∧
    (r.1 = true → role.toNat ≠ 0 → (r.2.port p.val).training = false → seen ≤ (bits (r.2.get (pagePort p.val + 0x108)) 15 0 : Int) →
      exec (.trainCell p f role seq sent turn) s = .next (s.withDev r.2))) ∧
  (∀ (s : State) (p : Port) (figures : List Nat), let d := s.part.dev
    let l := (d.port p.val).figures ++ figures
    ((d.port p.val).training = false → exec (.trainingDone p figures) s = .next s) ∧
    ((d.port p.val).training = true → exec (.trainingDone p figures) s = .next (s.withDev
      (((((d.onPort p.val (fun x => { x with training := false, figures := [] })).set (pagePort p.val + 0x108)
          (Nat.min ((l.foldl Nat.max 0 + 1) / 2 + 4) 0xFFFF)).set (pagePort p.val + 0x10C)
          (Nat.min ((l.foldl Nat.max 0 - l.foldl Nat.min (l.headD 0)) / 2) 0xFFFF)).setBits (pagePort p.val + 0x104) 3 3 1).measureHops)))) ∧
  (∀ (s : State) (p : Port) (agent : Agent), let d := s.part.dev
    let e := (d.setBits (pagePort p.val + 0x104) 3 3 0).calibrateLanes p.val
    let trains := bits (e.get (pagePort p.val + 0x104)) 1 0 = 3 ∧ e.portMode p.val = 1
    (isProcessor agent.toNat = true → d.planRuns = true → exec (.retrain p agent) s = .next (s.withDev (d.refuseCtrl (pagePort p.val) 2 agent.toNat))) ∧
    (isProcessor agent.toNat = true → d.planRuns = false → trains → exec (.retrain p agent) s = .next (s.withDev
        ((e.onPort p.val (fun x => { x with training := true, figures := [] })).sendTrain p.val))) ∧
    (isProcessor agent.toNat = true → d.planRuns = false → ¬ trains → exec (.retrain p agent) s = .next (s.withDev e)) ∧
    (isProcessor agent.toNat = false → exec (.retrain p agent) s = .next s)) ∧
  (∀ (s : State) (p : Port), let d := s.part.dev
    let e := ((((d.set (pagePort p.val + 0x104) (withBits (d.get (pagePort p.val + 0x104)) 3 0 0)).count (pagePort p.val + 0x164)).portEvent
      p.val 1 stOk 0 0 0).linkRecord p.val).onPort p.val (fun x => { x with training := false, figures := [] })
    (e.portMode p.val ≠ 1 → exec (.linkDown p) s = .next (s.withDev e)) ∧
    (e.portMode p.val = 1 → e.isRoot = true → exec (.linkDown p) s = .next (s.withDev (e.declareFault stOk e.node))) ∧
    (e.portMode p.val = 1 → e.isRoot = false → e.faultPort p.val = none → exec (.linkDown p) s = .next (s.withDev e)) ∧
    (∀ q, e.portMode p.val = 1 → e.isRoot = false → e.faultPort p.val = some q → exec (.linkDown p) s = .next (s.withDev
      (e.sendOn q e.node 0 24 e.heatField false (.fault e.node ((0x40 + p.val) * 0x100 + 1))))))

/-- Nodes and groups take their identities. The bridge takes node 0, sends the token value 1 and says HELLO; a module takes the
value of its first token from 1 to 15, sends the next value and says HELLO; another token, or any token at the bridge,
clears NODE_VALID and fails enumeration. A HELLO with the group of node 0 gives a node its group and node address; another
HELLO checks the neighbour. A report that travels to the bridge is kept there and is sent on elsewhere, until its HOPS are
used up. At the time limit a module with its node identity finds its missing neighbours (that this is their time is the
model's choice, log entry 44), and a bridge that lacks a report raises its event and fails its group. A bridge of a group
that has not failed passes the ring cell of another on with the least serial and one group more, knows the ring once its own
has come back, and fails when it does not close. A cell that is not for this module leaves only the port. (R437, R438, R439,
R440, R441) -/
def Obligations.Enumeration : Prop :=
  (∀ (s : State), let d := s.part.dev
    (d.mesh.bridgeSel = false → exec .enumStart s = .next s) ∧
    (d.mesh.bridgeSel = true → exec .enumStart s = .next (s.withDev
      (((d.takeNode 0).setBits (pageMesh + 0x100) 12 12 1).send (.enumOut 1)).helloAll)) ∧
    (d.mesh.bridgeSel = true → d.mesh.groupFailed = false → d.mesh.closed = none → exec .ringDiscTimeout s = .next (s.withDev (d.enumFail 0))) ∧
    (d.mesh.bridgeSel = false ∨ d.mesh.groupFailed = true ∨ d.mesh.closed ≠ none → exec .ringDiscTimeout s = .next s) ∧
    (let e := if d.enumBit 13 then d.missingNeighbours else d
     (e.mesh.bridgeSel = true → (∃ n, 1 ≤ n ∧ n ≤ 15 ∧ (n, true) ∉ e.mesh.reports) → exec .enumReportTimeout s = .next (s.withDev
      (({ e with mesh := { e.mesh with groupFailed := true } }).meshEvent 2 0))) ∧
     (e.mesh.bridgeSel = false ∨ (∀ n, 1 ≤ n → n ≤ 15 → (n, true) ∈ e.mesh.reports) →
      exec .enumReportTimeout s = .next (s.withDev e)))) ∧
  (∀ (s : State) (v : BitVec 5), let d := { s.part.dev with mesh := { s.part.dev.mesh with token := true } }
    (s.part.dev.mesh.token = false → s.part.dev.mesh.bridgeSel = false → 1 ≤ v.toNat → v.toNat ≤ 15 →
      exec (.enumToken v) s = .next (s.withDev ((d.takeNode v.toNat).send (.enumOut (v.toNat + 1))).helloAll)) ∧
    (s.part.dev.mesh.token = true ∨ s.part.dev.mesh.bridgeSel = true ∨ v.toNat = 0 ∨ 15 < v.toNat →
      exec (.enumToken v) s = .next (s.withDev ((d.setBits (pageMesh + 0x100) 13 13 0).enumFail v.toNat)))) ∧
  (∀ (s : State) (p : Port) (f : MeshHdr) (node group port : BitVec 8) (serial : BitVec 64) (nodeValid groupValid ok : Bool),
    (let r := s.part.dev.intake p.val f (.hello node.toNat group.toNat port.toNat serial.toNat nodeValid groupValid false ok)
     (r.1 = false → exec (.helloCell p f node group port serial nodeValid groupValid false ok) s = .next (s.withDev r.2)) ∧
     (r.1 = true → groupValid = true → node.toNat = 0 → r.2.mesh.bridgeSel = false → r.2.enumBit 13 = true → r.2.enumBit 14 = false →
       exec (.helloCell p f node group port serial nodeValid groupValid false ok) s = .next (s.withDev (r.2.takeGroup group.toNat))) ∧
     (r.1 = true → groupValid = false ∨ node.toNat ≠ 0 ∨ r.2.mesh.bridgeSel = true ∨ r.2.enumBit 13 = false ∨ r.2.enumBit 14 = true →
       exec (.helloCell p f node group port serial nodeValid groupValid false ok) s = .next (s.withDev
         (r.2.checkNeighbour p.val node.toNat group.toNat serial.toNat groupValid)))) ∧
    (let r := s.part.dev.intake p.val f (.hello node.toNat group.toNat port.toNat serial.toNat nodeValid groupValid true ok)
     let run := exec (.helloCell p f node group port serial nodeValid groupValid true ok) s
     (r.1 = false → run = .next (s.withDev r.2)) ∧
     (r.1 = true → r.2.mesh.bridgeSel = true → run = .next (s.withDev (r.2.keepReport node.toNat ok))) ∧
     (r.1 = true → r.2.mesh.bridgeSel = false → f.hops.toNat = 0 → run = .next (s.withDev (r.2.count (pagePort p.val + 0x168)))) ∧
     (r.1 = true → r.2.mesh.bridgeSel = false → f.hops.toNat ≠ 0 → run = .next (s.withDev
       (r.2.sendOn (r.2.portTo (r.2.node / 16 * 16) false) f.src.toNat f.dst.toNat (f.hops.toNat - 1) f.heat.toNat f.broadcast
         (.hello node.toNat group.toNat port.toNat serial.toNat nodeValid groupValid true ok)))))) ∧
  (∀ (s : State) (p : Port) (f : MeshHdr) (origin smallest : BitVec 64) (groups : BitVec 8),
    let r := s.part.dev.intake p.val f (.ringDisc origin.toNat smallest.toNat groups.toNat)
    (r.1 = false ∨ r.2.mesh.bridgeSel = false ∨ r.2.mesh.groupFailed = true →
      exec (.ringDiscCell p f origin smallest groups) s = .next (s.withDev r.2)) ∧
    (r.1 = true → r.2.mesh.bridgeSel = true → r.2.mesh.groupFailed = false → origin.toNat = r.2.serial → exec (.ringDiscCell p f origin smallest groups) s = .next (s.withDev
      ({ r.2 with mesh := { r.2.mesh with closed := some (groups.toNat, smallest.toNat) } }).fixGroup)) ∧
    (r.1 = true → r.2.mesh.bridgeSel = true → r.2.mesh.groupFailed = false → origin.toNat ≠ r.2.serial → exec (.ringDiscCell p f origin smallest groups) s = .next (s.withDev
      ((({ r.2 with mesh := { r.2.mesh with ring := smapSet r.2.mesh.ring origin.toNat groups.toNat } }).cellOn 5 true
        (.ringDisc origin.toNat (Nat.min smallest.toNat r.2.serial) (groups.toNat + 1))).fixGroup)))) ∧
  (∀ (d : Device) (g : Nat), g < 32 → (d.takeGroup g).get (pageMesh + 0x104) = g * 16 + bits (d.get (pageMesh + 0x100)) 3 0)

/-- A mesh frame and a BHT message read back from their bytes as they were. Every mesh frame that leaves for a port of a node,
whatever it carries with every field within its width, is read there as a frame for that port with the same DST, SRC, HOPS,
SEQ and HEAT, class and contents; and every BHT message whose numbers lie within their widths is read back from the message
header and data of its body, with its OP. (R9, R422, R423, R424, R425, R446) -/
def Obligations.FramesAndMessagesReadBack : Prop :=
  (∀ (node port srcMac : Nat) (src dst : Node) (hops : BitVec 8) (seq heat : U32) (c : Cell) (fcsOk macsecOk : Bool), node < 512 → port < 8 → c.fits →
    readFrame node port (meshFrame (meshMac node port) srcMac src.toNat dst.toNat hops.toNat seq.toNat heat.toNat c) fcsOk macsecOk = some
      ({ toOwn := true, broadcast := false, express := c.express, dst := dst, src := src, hops := hops, seq := seq, heat := heat
         fcsOk := fcsOk, macsecOk := macsecOk }, c)) ∧
  (∀ (op : Nat) (m : BhtMsg), op < 2 ^ 8 → m.msn < 2 ^ 32 → m.ackMsn < 2 ^ 32 → m.len < 2 ^ 32 → m.sop < 2 ^ 8 → readBody (bhtBody op m) = (op, m))

/-- Which packets the engine takes, and how sessions begin and end. On a bridge whose engine runs, a DATA packet of an unknown
session, of an unfinished handshake, or with a wrong tag is dropped and counted as AUTH_DROP_CNT, and nothing of the session
changes; one whose PN was seen or lies more than 1,024 below the highest counts REPLAY_DROP_CNT; one whose PN lies beyond
2^62 closes the session; every other packet is taken, its PN is seen and the session heard now, and with the ECN mark CE it
is counted. On another module nothing happens. On a bridge whose engine runs, an INIT of a valid role without the cookie of
its source and second is answered by a RETRY with it; one beyond the rate of handshakes is counted; another opens a
handshake with a free number, keys derived from the shared secret, and is answered by an ACCEPT with the certificates, the
ciphertext and the signature of the transcript hash; without a free number it is dropped (which number is free to the
module, log entry 45). On another module it does nothing. A FINISH of a handshake with the role proof opens the session, and
with another proof fails the handshake; of an open session, or one that the checks do not take, it does no more than the
checks. A handshake that is not finished in 1 s fails, a session that is silent for 60 s or gets a CLOSE is gone, and
CLOSE_ALL of a processor closes every open session on a bridge and is refused elsewhere. (R445, R447, R448, R449, R450,
R462, R559, R561, R572) -/
def Obligations.BhtPacketsAndHandshakes : Prop :=
  (∀ (d : Device) (k : BhtPacket),
    (d.bhtOn = false → d.takePacket k false = (false, d)) ∧
    (d.bhtOn = true → d.session k.session = none → d.takePacket k false = (false, d.authDrop k.session k.pn)) ∧
    (∀ x, d.bhtOn = true → d.session k.session = some x →
      (k.tagOk = false ∨ x.isOpen = false → d.takePacket k false = (false, d.authDrop k.session k.pn)) ∧
      (k.tagOk = true → x.isOpen = true → (k.pn + 1024 < x.pnHigh ∨ k.pn ∈ x.pnSeen) →
        d.takePacket k false = (false, d.count (pageBht + 0x140))) ∧
      (k.tagOk = true → x.isOpen = true → x.pnHigh ≤ k.pn + 1024 → k.pn ∉ x.pnSeen →
        (2 ^ 62 < k.pn → d.takePacket k false = (false, d.closeSession k.session)) ∧
        (k.pn ≤ 2 ^ 62 → (d.takePacket k false).1 = true ∧
        ∃ y, (d.takePacket k false).2.session k.session = some y ∧ y.heard = d.now ∧ y.pnHigh = Nat.max x.pnHigh k.pn ∧ k.pn ∈ y.pnSeen ∧
          y.replayed k.pn = true ∧ y.msnIn = x.msnIn ∧ y.msnOut = x.msnOut ∧ y.early = x.early ∧ y.flying = x.flying ∧
          (k.ce = true → y.eceUntil = some (d.now + x.srtt)) ∧ (k.ce = false → y.eceUntil = x.eceUntil)))) ∧
    (d.authDrop k.session k.pn).bht.sessions = d.bht.sessions) ∧
  ((∀ (s : State) (role : BitVec 8) (source : BitVec 128) (cookie : Option (BitVec 256)) (second : Nat) (key : List Byte) (nonce : BitVec 256),
    let d := s.part.dev
    let run := exec (.bhtInit role source cookie second key nonce) s
    let good := cookie.map (fun c => leBytes 32 c.toNat) = some (d.cookie source.toNat second)
    let signed := if d.bht.signed.1 = second then d.bht.signed.2 else 0
    let full := bits (d.get (pageBht + 0x124)) 23 16 ≤ signed ∨ 16 ≤ (d.bht.sessions.filter (fun e => !e.2.isOpen)).length
    (d.bhtOn = false → run = .next s) ∧
    (d.bhtOn = true → isRole role.toNat = false → run = .next (s.withDev (d.authDrop 0 0))) ∧
    (d.bhtOn = true → isRole role.toNat = true → ¬good → run = .next (s.withDev
      (d.send (.bhtRetry source.toNat (d.cookie source.toNat second))))) ∧
    (d.bhtOn = true → isRole role.toNat = true → good → full → run = .next (s.withDev (d.count (pageBht + 0x144)))) ∧
    (d.bhtOn = true → isRole role.toNat = true → good → ¬full → d.freeSession = none → run = .next s) ∧
    (∀ n, d.bhtOn = true → isRole role.toNat = true → good → ¬full → d.freeSession = some n →
      let h := leBytes 32 (Config.transcript d.free (key ++ leBytes 32 nonce.toNat)).toNat
      let keys := hkdf256 (leBytes 32 nonce.toNat ++ leBytes 32 (Config.moduleNonce d.free).toNat)
        (leBytes 32 (Config.sharedSecret d.free key).toNat) (asciiBytes "BHT1" ++ h) 72
      let certs := (d.rom.idCert :: d.rom.idChain) ++ [Config.ciphertext d.free key]
      let sign := (List.range 16224).map (Config.signature d.free d.sec.identity h)
      run = .next (s.withDev
        (((d.drawn.setSession n { source := source.toNat, keys := keys, role := role.toNat, since := d.now, heard := d.now, transcript := h }).onBht
          (fun b => { b with signed := (second, signed + 1) })).send (.bhtAccept n h certs sign))))) ∧
  (∀ (s : State) (k : BhtPacket) (proof : BitVec 256),
    let r := s.part.dev.takePacket k true
    (r.1 = false → exec (.bhtFinish k proof) s = .next (s.withDev r.2)) ∧
    (∀ x, r.1 = true → r.2.session k.session = some x →
      (x.isOpen = true → exec (.bhtFinish k proof) s = .next (s.withDev r.2)) ∧
      (x.isOpen = false → r.2.roleProof x = some (leBytes 32 proof.toNat) → exec (.bhtFinish k proof) s = .next (s.withDev
        (((r.2.setSession k.session { x with isOpen := true, order := r.2.bht.opened }).onBht
          (fun b => { b with opened := b.opened + 1 })).count (pageBht + 0x134)))) ∧
      (x.isOpen = false → r.2.roleProof x ≠ some (leBytes 32 proof.toNat) →
        exec (.bhtFinish k proof) s = .next (s.withDev (r.2.failHandshake k.session k.pn))))) ∧
  (∀ (s : State) (k : BhtPacket), let r := s.part.dev.takePacket k false
    (r.1 = true → exec (.bhtClose k) s = .next (s.withDev (r.2.closeSession k.session))) ∧
    (r.1 = false → exec (.bhtClose k) s = .next (s.withDev r.2))) ∧
  (∀ (s : State) (n : Nat), let d := s.part.dev
    (d.session n = none → exec (.handshakeTimeout n) s = .next s ∧ exec (.sessionIdleTimeout n) s = .next s) ∧
    (∀ x, d.session n = some x →
      (x.isOpen = false → exec (.handshakeTimeout n) s = .next (s.withDev ((d.reach (x.since + 1000000000)).failHandshake n 0)) ∧
        exec (.sessionIdleTimeout n) s = .next s) ∧
      (x.isOpen = true → exec (.sessionIdleTimeout n) s = .next (s.withDev ((d.reach (x.heard + 60000000000)).closeSession n)) ∧
        exec (.handshakeTimeout n) s = .next s))) ∧
  (∀ (s : State) (agent : Agent), let d := s.part.dev
    exec .cookieKeyChange s = .next (s.withDev (d.onBht (fun b => { b with cookieKey := b.cookieKey + 1 }))) ∧
    (isProcessor agent.toNat = false → exec (.closeAll agent) s = .next s) ∧
    (isProcessor agent.toNat = true → d.enumBit 12 = false → exec (.closeAll agent) s = .next (s.withDev (d.refuseCtrl pageBht 2 agent.toNat))) ∧
    (isProcessor agent.toNat = true → d.enumBit 12 = true → ∃ t, exec (.closeAll agent) s = .next t ∧ t.part.mem = s.part.mem ∧
      (∀ n x, t.part.dev.session n = some x → x.isOpen = false) ∧
      (∀ n x, d.session n = some x → (∀ y, (n, y) ∈ d.bht.sessions → y.isOpen = false) → t.part.dev.session n = some x))))

/-- Every DATA packet acknowledges, and its message runs in MSN order. A DATA packet that is taken first applies its
acknowledgement and lets waiting messages out, and then its message is kept until its turn by MSN; one that is not taken
leaves only what the checks do. A message whose turn has come runs by its OP: WRITE, READ, SYNC_READ, WATCH and STORE_DATA
have their effect and every other OP none. A WRITE segment has TENANT_VIOLATION, RESET_LOST, NARROW_WRITE or OK, and writes
its bytes under OK alone. A READ of this module by the operator, or by a tenant of what it may read, returns the bytes with
OK or POISONED, nothing under a reset, and TENANT_VIOLATION of what is absent; the operator reads registers; every other
READ of this module is refused. A SYNC_READ answers with the value of an object of the tenant and refuses another; a WATCH
is set once, cleared, or refused. What another module of the group answers is free (log entry 46). A STORE_DATA of an
awaited request is put where the requester fetches to. (R31, R242, R261, R387, R446, R450, R451, R452, R454, R456, R457,
R519) -/
def Obligations.BhtDataPackets : Prop :=
  (∀ (s : State) (k : BhtPacket) (m : BhtMsg),
    let r := s.part.dev.takePacket k false
    let after (p : Part) (op : Nat) : Part := if r.1 then
        (({ p with dev := r.2 } : Part).onDev (fun d => (d.onSession k.session (fun x => x.takeAck m d.now)).pump k.session 1024)).takeMessage
          k.session op m
      else { p with dev := r.2 }
    exec (.bhtWrite k m) s = .next (s.withPart (after s.part 1)) ∧
    (∀ errors, exec (.bhtRead k m errors) s = .next (s.withPart (after (s.part.onMem (·.arise errors)) 2))) ∧
    exec (.bhtAck k m) s = .next (s.withPart (after s.part 4)) ∧ exec (.bhtSyncRead k m) s = .next (s.withPart (after s.part 5)) ∧
    exec (.bhtWatch k m) s = .next (s.withPart (after s.part 7)) ∧ exec (.bhtStoreData k m) s = .next (s.withPart (after s.part 10)) ∧
    exec (.bhtKeepalive k m) s = .next (s.withPart (after s.part 11))) ∧
  (∀ (p : Part) (n op : Nat) (m : BhtMsg), op ∉ [1, 2, 5, 7, 10] → p.runMessage n op m = p) ∧
  (∀ (p : Part) (n op : Nat) (m : BhtMsg), m.msn = 0 → p.takeMessage n op m = p) ∧
  (∀ (p : Part) (n op : Nat) (m : BhtMsg), p.dev.session n = none → p.runMessage n op m = p) ∧
  (∀ (p : Part) (o : BhtOp) (role a n : Nat),
    let own := p.dev.ownNode o.node
    let barred := p.dev.groupNode o.node = false ∨ 64 ≤ role ∨ (own = true ∧ p.tenantMay role a n true = false) ∨
      (own = true ∧ p.dev.touchesAbsent a n = true)
    (stNarrow ∈ o.conds → p.segmentStatus o role a n = stNarrow) ∧
    (stNarrow ∉ o.conds → o.absent = true ∨ barred → p.segmentStatus o role a n = stTenant) ∧
    (stNarrow ∉ o.conds → o.absent = false → ¬barred → own = true → p.dev.inReset a n = true → p.segmentStatus o role a n = stResetLost) ∧
    (stNarrow ∉ o.conds → o.absent = false → ¬barred → (own = true → p.dev.inReset a n = false) →
      p.segmentStatus o role a n =
        (if isNarrow a n = true ∨ (own = false ∧ (a % 64 ≠ 0 ∨ n % 64 ≠ 0)) then stNarrow else stOk))) ∧
  (∀ (p : Part) (n : Nat) (m : BhtMsg) (x : BhtSession), p.dev.session n = some x →
    let a := m.addr.toNat % 2 ^ 40
    let len := Nat.min m.len 0x100000
    let own := p.dev.ownNode m.node.toNat = true
    let refused := (p.dev.bhtRefused n m.opid.toNat).respond n m stTenant []
    (let o : BhtOp := if m.first then { opid := m.opid.toNat, node := m.node.toNat }
        else (x.ops.find? (fun q => q.opid == m.opid.toNat)).getD { opid := m.opid.toNat, node := m.node.toNat }
     (p.segmentStatus o x.role a m.len ≠ stOk ∨ p.dev.ownNode o.node = false → (p.runMessage n 1 m).mem = p.mem) ∧
     (p.segmentStatus o x.role a m.len = stOk → p.dev.ownNode o.node = true → (p.runMessage n 1 m).mem =
       ((p.onDev (·.wakeRange a (padTo m.len 0 m.data).length)).put a (padTo m.len 0 m.data) false (p.dev.sessionAgent n)).mem)) ∧
    (p.dev.groupNode m.node.toNat = false → p.runMessage n 2 m = p.onDev (fun _ => refused)) ∧
    (p.dev.groupNode m.node.toNat = true → ¬own → (x.role = 0xFE → p.runMessage n 2 m = p.onDev (fun _ => refused)) ∧
      (x.role ≠ 0xFE → p.runMessage n 2 m = p.onDev (fun d => d.drawn.respond n m stOk
        ((List.range len).map (fun i => Config.remoteByte d.drawn.free i))))) ∧
    (own → x.role = 0xFF → 0xFF00000000 ≤ a → a + len ≤ 2 ^ 40 → p.runMessage n 2 m = p.onDev (fun d =>
      let r := d.bhtReadRegs (a - 0xFF00000000) len
      r.2.2.respond n m r.1 r.2.1)) ∧
    (own → (x.role = 0xFF ∧ (a < 0xFF00000000 ∨ 2 ^ 40 < a + len)) ∨ (x.role < 64 ∧ p.tenantMay x.role a len false = true) →
      (p.dev.touchesAbsent a len = true → p.runMessage n 2 m = p.onDev (fun _ => refused)) ∧
      (p.dev.touchesAbsent a len = false → p.dev.inReset a len = true → p.runMessage n 2 m = p.onDev (·.respond n m stResetLost [])) ∧
      (p.dev.touchesAbsent a len = false → p.dev.inReset a len = false →
        let q := (p.onDev (·.wakeRange a len)).touch a len
        p.runMessage n 2 m = q.onDev (·.respond n m (if q.mem.poisoned a len then stPoisoned else stOk) (q.mem.read a len)))) ∧
    (own → x.role ≠ 0xFF → 64 ≤ x.role ∨ p.tenantMay x.role a len false = false →
      p.runMessage n 2 m = p.onDev (fun _ => refused.tenantRefused x.role a)) ∧
    (let answer (d : Device) (st v : Nat) : Device := d.sendMessage n 6 { blankMsg with
        status := BitVec.ofNat 8 st, node := m.node, opid := m.opid, obj := m.obj, value := BitVec.ofNat 32 v }
     let may := p.dev.mayObject x.role m.obj.toNat = true
     (p.dev.groupNode m.node.toNat = false →
       p.runMessage n 5 m = p.onDev (fun d => answer (d.bhtRefused n m.opid.toNat) stTenant 0)) ∧
     (p.dev.groupNode m.node.toNat = true → ¬own → p.runMessage n 5 m = p.onDev (fun d =>
       if x.role < 64 ∧ Config.remoteMay d.free = true then answer d.drawn stOk (Config.remoteValue d.free).toNat
       else answer (d.drawn.bhtRefused n m.opid.toNat) stTenant 0)) ∧
     (own → may → p.runMessage n 5 m = p.onDev (fun d => answer d stOk (dbgValue (d.obj m.obj.toNat)))) ∧
     (own → ¬may → p.runMessage n 5 m = p.onDev (fun d =>
       answer ((d.syncViolation m.obj.toNat (d.sessionAgent n) 0).bhtRefused n m.opid.toNat) stTenant 0)) ∧
     (own → ¬may → p.runMessage n 7 m = p.onDev (fun d => ((d.syncViolation m.obj.toNat (d.sessionAgent n) m.value.toNat).bhtRefused n
       m.opid.toNat).sendMessage n 12 { blankMsg with status := BitVec.ofNat 8 stTenant, node := m.node, opid := m.opid, obj := m.obj })) ∧
     (own → may → m.value = 0 → p.runMessage n 7 m = p.onDev (fun d =>
       d.setSession n { x with watch := x.watch.filter (fun w => w.1 != m.obj.toNat) })) ∧
     (own → may → m.value = 1 → x.watch.length < 64 → (∀ w ∈ x.watch, w.1 ≠ m.obj.toNat) → p.runMessage n 7 m = p.onDev (fun d =>
       d.setSession n { x with watch := x.watch ++ [(m.obj.toNat, none)] })) ∧
     (own → may → m.value ≠ 0 → m.value ≠ 1 ∨ 64 ≤ x.watch.length ∨ (∃ w ∈ x.watch, w.1 = m.obj.toNat) → p.runMessage n 7 m = p)) ∧
    (x.role ≠ 0xFE ∨ p.dev.bht.stores.find? (fun q => q.opid == m.opid.toNat) = none → p.runMessage n 10 m = p) ∧
    (∀ q, x.role = 0xFE → p.dev.bht.stores.find? (fun q => q.opid == m.opid.toNat) = some q →
      let others := p.dev.bht.stores.filter (fun r => r.opid != q.opid)
      let left := if m.last then 0 else q.len - m.len
      (m.status ≠ 0 → p.runMessage n 10 m = p.onDev (·.onBht (fun b => { b with stores := others }))) ∧
      (m.status = 0 → p.runMessage n 10 m =
        (p.onDev (·.onBht (fun b => { b with stores := if left = 0 then others else others ++ [{ q with len := left }] }))).storePut q
          m.addr.toNat m.last (padTo m.len 0 m.data))))

/-- Timers, notifications and storage reads of sessions, and what a host port sends besides. A timeout of a message in flight
sends it again, halving the window at most once in a round trip, and the eighth closes the session with LOST. The
acknowledgement timer sends an ACK when one is owed. A watched object whose last notification is 10 µs old or that has none
is notified with its value, and one notified sooner is not; the value of an object of another node is free (log entry 46). A
storage read of a bridge whose engine runs takes an OPID and is sent on the storage session, and fails with its event when
no storage session is open. Without the session, the message in flight or the watched object each does nothing. On an
enabled host port a solicitation of one of its addresses is counted and answered, one of another address is counted as
dropped; the advertisement of the gateway address that the port has solicited is counted and its MAC address kept, and
another is counted as dropped; a solicitation of the gateway and an LLDP frame with the serial number and the ordering part
number are sent and counted (that the count of usable cores goes with it is the model's choice, log entry 65). On any other
port nothing happens. (R5, R443, R444, R449, R451, R452, R453, R456, R457, R462) -/
def Obligations.BhtTimersStorageAndNeighbours : Prop :=
  ((∀ (s : State) (n msn : Nat), let d := s.part.dev
    (d.session n = none → exec (.bhtRetxTimeout n msn) s = .next s) ∧
    (∀ x, d.session n = some x → x.flying.find? (fun o => o.msg.msn == msn) = none → exec (.bhtRetxTimeout n msn) s = .next s) ∧
    (∀ x o, d.session n = some x → x.flying.find? (fun o => o.msg.msn == msn) = some o →
      (7 ≤ o.timeouts → exec (.bhtRetxTimeout n msn) s = .next (s.withDev
        (((d.closeSession n).count (pageBht + 0x150)).bhtEvent 2 stTimeout n x.pnOut))) ∧
      (o.timeouts < 7 →
        let again : BhtOut := { o with timeouts := o.timeouts + 1, again := true, sentAt := d.now }
        let y := { x with flying := x.flying.map (fun (q : BhtOut) => if q.msg.msn == msn then again else q) }
        exec (.bhtRetxTimeout n msn) s = .next (s.withDev
          (((d.setSession n (y.halve d.now)).count (pageBht + 0x148)).sendPacket n o.op o.msg))))) ∧
  (∀ (s : State) (n : Nat), let d := s.part.dev
    (d.session n = none → exec (.bhtAckTimer n) s = .next s) ∧
    (∀ x, d.session n = some x → x.unacked = 0 → exec (.bhtAckTimer n) s = .next s) ∧
    (∀ x, d.session n = some x → x.unacked ≠ 0 → exec (.bhtAckTimer n) s = .next (s.withDev (d.sendPacket n 4 blankMsg)))) ∧
  (∀ (s : State) (n : Nat) (o : Obj), let d := s.part.dev
    (d.session n = none → exec (.bhtNotify n o) s = .next s) ∧
    (∀ x, d.session n = some x → x.watch.find? (fun w => w.1 % 2 ^ 14 == o.val) = none → exec (.bhtNotify n o) s = .next s) ∧
    (∀ x w, d.session n = some x → x.watch.find? (fun w => w.1 % 2 ^ 14 == o.val) = some w →
      let e := d.onSession n (fun x => { x with watch := x.watch.map (fun v => if v.1 == w.1 then (w.1, some d.now) else v) })
      ((∃ t, w.2 = some t ∧ d.now < t + 10000) → exec (.bhtNotify n o) s = .next s) ∧
      ((∀ t, w.2 = some t → t + 10000 ≤ d.now) → w.1 < 2 ^ 14 →
        exec (.bhtNotify n o) s = .next (s.withDev (e.sendMessage n 8 { blankMsg with
          node := BitVec.ofNat 8 (e.node % 16), obj := BitVec.ofNat 14 o.val, value := BitVec.ofNat 32 (dbgValue (e.obj o.val)) }))) ∧
      ((∀ t, w.2 = some t → t + 10000 ≤ d.now) → 2 ^ 14 ≤ w.1 →
        exec (.bhtNotify n o) s = .next (s.withDev (e.drawn.sendMessage n 8 { blankMsg with
          node := BitVec.ofNat 8 (w.1 / 2 ^ 14 - 1), obj := BitVec.ofNat 14 o.val
          value := BitVec.ofNat 32 (Config.remoteValue e.free).toNat }))))) ∧
  (∀ (s : State) (node : BitVec 4) (object : BitVec 128) (offset : BitVec 64) (len : Nat), let d := s.part.dev
    (d.bhtOn = false → exec (.storeRead node object offset len) s = .next s) ∧
    (d.bhtOn = true → d.storeSession = none → exec (.storeRead node object offset len) s = .next (s.withDev (d.bhtEvent 4 stOk 0 0))) ∧
    (∀ n, d.bhtOn = true → d.storeSession = some n → exec (.storeRead node object offset len) s = .next (s.withDev
      ((d.drawn.onBht (fun b => { b with
        stores := b.stores ++ [{ opid := d.newOpid, node := node.toNat, object := object.toNat, offset := offset.toNat, len := len }] })).sendMessage
        n 9 { blankMsg with
          node := BitVec.ofNat 8 node.toNat, opid := BitVec.ofNat 32 d.newOpid, addr := BitVec.ofNat 64 offset.toNat, len := len
          data := leBytes 16 object.toNat }))))) ∧
  (∀ (s : State) (p : Port) (source target : BitVec 128) (mac : BitVec 48), let d := s.part.dev
    (d.hostPort p.val = false →
      exec (.neighborSolicitation p source target mac) s = .next s ∧ exec (.neighborAdvertisement p target mac) s = .next s ∧
      exec (.gatewaySolicit p) s = .next s ∧ exec (.lldpSend p) s = .next s) ∧
    (d.hostPort p.val = true →
      let own := target.toNat = linkLocal (Config.portMac p.val).toNat ∨ target.toNat = d.ip6 0x100
      (own → exec (.neighborSolicitation p source target mac) s = .next (s.withDev
        (((d.count64 (pagePort p.val + 0x128) 1).count64 (pagePort p.val + 0x120) 1).send (.advert p.val target.toNat mac.toNat)))) ∧
      (¬own → exec (.neighborSolicitation p source target mac) s = .next (s.withDev (d.count (pagePort p.val + 0x158)))) ∧
      (target.toNat = d.ip6 0x110 → (d.port p.val).solicited = true → exec (.neighborAdvertisement p target mac) s = .next (s.withDev
        ((d.count64 (pagePort p.val + 0x128) 1).onBht (fun b => { b with gateway := some mac.toNat })))) ∧
      (target.toNat ≠ d.ip6 0x110 ∨ (d.port p.val).solicited = false → exec (.neighborAdvertisement p target mac) s = .next (s.withDev (d.count (pagePort p.val + 0x158)))) ∧
      exec (.gatewaySolicit p) s = .next (s.withDev 
        (((d.onPort p.val (fun x => { x with solicited := true })).count64 (pagePort p.val + 0x120) 1).send (.solicit p.val (d.ip6 0x110)))) ∧
      exec (.lldpSend p) s = .next (s.withDev ((d.count64 (pagePort p.val + 0x120) 1).send (.lldp p.val d.serial d.rom.fuses.grade d.usable.length)))))

/-- A billet is fetched, verified, staged, installed or abandoned. BILLET_FETCH of a processor in a state that allows it reads
the descriptor and begins, or is refused and logged; a poisoned descriptor fails it; a write of another agent does nothing.
A request without an answer for 100 ms is sent again three times and then fails the fetch. Verification of a shard that
fails a check shows its check, section and layer and goes to state 5; of one that passes, KIND 1 waits in state 3, KIND 0
with nothing to program is installed and another is copied and waits in state 4 for its programs; in another state it does
nothing. ABANDON of a processor gives up a waiting shard and nothing else. (R359, R360, R361, R374, R380, R382) -/
def Obligations.BilletLoad : Prop :=
  (∀ (s : State) (agent : Agent),
    let a := s.part.dev.get64 (pageBlt + 0x118) % 2 ^ 40
    let p := s.part.touch a 64
    let e := p.mem.read a 64
    let free := p.dev.bltState ≠ 1 ∧ p.dev.bltState ≠ 2 ∧ p.dev.bltState ≠ 4
    (isProcessor agent.toNat = false → exec (.billetFetch agent) s = .next s) ∧
    (isProcessor agent.toNat = true →
      (¬free → exec (.billetFetch agent) s = .next (s.withPart (p.onDev (·.refuseCtrl pageBlt 2 agent.toNat)))) ∧
      (free → p.mem.poisoned a 64 = true → exec (.billetFetch agent) s = .next (s.withPart (p.onDev (·.failFetch stPoisoned)))) ∧
      (free → p.mem.poisoned a 64 = false → p.dev.acceptsLoad e = false →
        exec (.billetFetch agent) s = .next (s.withPart (p.onDev (·.refuseCtrl pageBlt 2 agent.toNat)))) ∧
      (free → p.mem.poisoned a 64 = false → p.dev.acceptsLoad e = true → exec (.billetFetch agent) s = .next (s.withPart (p.onDev (fun d =>
        ((d.onBillet (fun b => { b with kind := field e 2 1, tenant := field e 3 1, length := field e 8 8, object := field e 0x10 16
                                        sha := (e.drop 0x20).take 32, reqs := [], nextReq := 0 })).setBlt 1).goOnFetch)))))) ∧
  (∀ (s : State) (i : Nat), let d := s.part.dev
    (d.billet.reqs.find? (fun r => r.index == i) = none → exec (.fetchTimeout i) s = .next s) ∧
    (∀ r, d.billet.reqs.find? (fun r => r.index == i) = some r →
      let e := d.reach (r.sent + 100000000)
      (r.again < 3 → exec (.fetchTimeout i) s = .next (s.withDev (((e.onBillet (fun b => { b with
        reqs := b.reqs.map (fun q => if q.index = i then { q with got := 0, again := q.again + 1, sent := e.now } else q) })).count
          (pageBlt + 0x134)).sendFetch i))) ∧
      (3 ≤ r.again → exec (.fetchTimeout i) s = .next (s.withDev (e.failFetch stTimeout))))) ∧
  (∀ (s : State),
    let b := s.part.dev.stageRegion
    let p := s.part.touch b s.part.dev.billet.length
    let q := p.onDev (·.bltEvent 0 stOk 0 0 0)
    let h := readHead q.mem b
    let l := readSections q.mem b q.dev.billet.length
    (s.part.dev.bltState ≠ 2 → exec .shardVerifyDone s = .next s) ∧
    (∀ n i layer, s.part.dev.bltState = 2 → p.dev.shardFailure p.mem = some (n, i, layer) →
      exec .shardVerifyDone s = .next (s.withPart (p.onDev (·.verifyFails n i layer)))) ∧
    (s.part.dev.bltState = 2 → p.dev.shardFailure p.mem = none →
      (q.dev.billet.kind = 1 → exec .shardVerifyDone s = .next (s.withPart (q.onDev (·.setBlt 3)))) ∧
      (q.dev.billet.kind ≠ 1 → q.dev.toProgram h l = [] → exec .shardVerifyDone s = .next (s.withPart (q.installShard q.dev.now))) ∧
      (q.dev.billet.kind ≠ 1 → q.dev.toProgram h l ≠ [] → exec .shardVerifyDone s = .next (s.withPart
        ((((layersOf l).filter (fun k => q.dev.toProgram h (l.filter (fun s => s.layer == k)) != [])).foldl
          (fun p k => p.copyLayer b k l) q).onDev (fun d => (d.onBillet (fun x => { x with todo := q.dev.toProgram h l })).setBlt 4)))))) ∧
  (∀ (d : Device) (n i layer : Nat), (d.verifyFails n i layer).bltState = 5) ∧
  (∀ (s : State) (agent : Agent), let d := s.part.dev
    (isProcessor agent.toNat = true → d.bltState = 3 → exec (.abandon agent) s = .next (s.withDev (d.setBlt 0))) ∧
    (isProcessor agent.toNat = false ∨ d.bltState ≠ 3 → exec (.abandon agent) s = .next s))

/-- A batch starts, steps through its rows, settles and ends. A batch starts on a die that has none with the anvils that join it
and have weights in their shard; each begins its program, those with a poisoned section are interrupted, and the load or
replacement fails with one, or where an anvil has no spare to go to. A row step programs the row of every anvil, with the
stuck cells that it finds, and goes on to the next row up to 1,024. The settle end takes the test passes of every anvil
once, and the end of the batch books every anvil, clears the batch and raises its event, and what waits for it goes on. On a
die with another state of its batch each does nothing. A pair with no stuck cell is set to its weight; one with a stuck cell
to the nearest weight. (R46, R84, R86, R362, R363, R364, R366, R370, R371, R377, R403) -/
def Obligations.Programming : Prop :=
  (∀ (s : State) (die : Die) (anvils : List Nat),
    let r := anvils.foldl (Device.joinBatch die.val) ([], s.part.dev)
    let m := s.part.mem
    let held := (r.1.filter (fun b => (sectionOf (shardSections m b.shard) 0 b.logical).isSome)).map (fun b =>
      { b with layer := layerOf (shardSections m b.shard) b.logical })
    let p := held.foldl (fun p b => p.touchSections b (shardSections p.mem b.shard)) { s.part with dev := r.2 }
    let bad := held.filter (fun b => p.sectionPoisoned b (shardSections p.mem b.shard))
    let good := held.filter (fun b => !(bad.contains b))
    let q := p.onDev (fun d =>
      let e := bad.foldl (fun d b => d.interruptAnvil b) (held.foldl (fun d b => d.startProgram b) d)
      if good = [] then e else ((e.setBatch die.val { anvils := good }).onBillet (fun x => { x with
        ends := smapSet x.ends die.val (e.batchEnd die.val good.length) })).showBatch die.val)
    let ends := Nat.max (10 * q.dev.now) (smapGet q.dev.billet.ends 0 die.val)
    ((smapFind s.part.dev.billet.batches die.val).isSome = true → exec (.programBatchStart die anvils) s = .next s) ∧
    (smapFind s.part.dev.billet.batches die.val = none → bad = [] → q.dev.noSpareLeft = false →
      exec (.programBatchStart die anvils) s = .next (s.withPart q)) ∧
    (smapFind s.part.dev.billet.batches die.val = none → bad ≠ [] ∨ q.dev.noSpareLeft = true →
      exec (.programBatchStart die anvils) s = .next (s.withPart q.failReplacement)) ∧
    (∀ n, q.dev.batchEnd die.val n = ends + 1024 * (5000 + 14 * n) + 800000)) ∧
  (∀ (s : State) (die : Die) (stuck : List StuckCell), let p := s.part
    (smapFind p.dev.billet.batches die.val = none → exec (.programRowStep die stuck) s = .next s ∧ exec (.programSettleEnd die) s = .next s ∧
      exec (.programBatchDone die) s = .next s) ∧
    (∀ b, smapFind p.dev.billet.batches die.val = some b →
      (b.row < 1024 →
        let r := b.anvils.foldl (Device.programRow p.mem b.row stuck) ([], p.dev)
        exec (.programRowStep die stuck) s = .next (s.withDev (r.2.setBatch die.val { b with anvils := r.1, row := b.row + 1 }))) ∧
      (1024 ≤ b.row → exec (.programRowStep die stuck) s = .next s ∧
        (b.settled = false →
          let r := b.anvils.foldl (fun (r : List BatchAnvil × Device) a =>
            let t := r.2.testPasses a.anvil
            (r.1 ++ [{ a with gain := t.1.gain, offs := t.1.offs, resid := t.1.resid }], t.2)) ([], p.dev)
          exec (.programSettleEnd die) s = .next (s.withDev (r.2.setBatch die.val { b with anvils := r.1, settled := true })))) ∧
      (b.row < 1024 ∨ b.settled = true → exec (.programSettleEnd die) s = .next s) ∧
      (b.settled = true →
        let q := p.onDev (fun d => (((b.anvils.foldl (fun d a => d.endProgram p.mem a) d).onBillet (fun x => { x with
          batches := smapErase x.batches die.val })).showBatch die.val).eventSt (pagePrg die.val) 0 stOk)
        exec (.programBatchDone die) s = .next (s.withPart q.afterBatch)) ∧
      (b.settled = false → exec (.programBatchDone die) s = .next s))) ∧
  (∀ (w : Int), -7 ≤ w → w ≤ 7 →
    (nearestPair w (plainPair w) none none).weight = w ∧
    (∀ k : Nat, k ≤ 7 → (w ≤ k → (nearestPair w (plainPair w) (some k) none).weight = Max.max ((k : Int) - 7) w) ∧
      (-(k : Int) ≤ w → (nearestPair w (plainPair w) none (some k)).weight = Min.min (7 - (k : Int)) w)))

/-- Ranges are cleared, granules scrubbed, and a repair copied. VM_CLEAR of a processor on a die that is not busy starts the
clearing of its range, refuses a range outside the die's DRAM, and is ignored and captured while busy; each granule command
clears the next map granule of the first range, and the last ends the command with DONE and goes on to the next range. A
scrub read of a page that scrubs moves its position on, counts a pass of its stack at the wrap, and reads the granule; an
uncorrectable granule takes the poisoned form and a correctable one waits for its writeback, which makes it whole or, when
stale, counts a cancellation; a sleeping die's waits. The end of a repair copy makes the block whole and records the repair.
(R385, R386, R393, R401, R404, R405, R407, R408, R410, R416) -/
def Obligations.MemoryUpkeep : Prop :=
  (∀ (s : State) (die : Die) (agent : Agent), let d := s.part.dev
    let hi := d.get (pageMem die.val + 0x14C)
    let a := d.get (pageMem die.val + 0x148) / 64 * 64 + bits hi 7 0 * 2 ^ 32
    let n := bits hi 31 12 + 1
    let inside := dramBase die.val ≤ a ∧ a + 64 * n ≤ dramBase (die.val + 1)
    let idle := bit (d.get (pageMem die.val + 0x150)) 31
    (isProcessor agent.toNat = false → exec (.vmClear die agent) s = .next s) ∧
    (isProcessor agent.toNat = true → idle = false → exec (.vmClear die agent) s = .next (s.withDev (d.refuseCtrl (pageMem die.val) 4 agent.toNat))) ∧
    (isProcessor agent.toNat = true → idle = true → inside →
      exec (.vmClear die agent) s = .next (s.withDev (d.startClear die.val { lo := a / 64, hi := a / 64 + n }))) ∧
    (isProcessor agent.toNat = true → idle = true → ¬inside → exec (.vmClear die agent) s = .next (s.withDev (d.endClear die.val a stTenant)))) ∧
  (∀ (s : State) (die : Die), let p := s.part
    ((smapGet p.dev.mems {} die.val).clears = [] → exec (.vmClearGranule die) s = .next s) ∧
    (∀ c l q, (smapGet p.dev.mems {} die.val).clears = c :: l →
      (∀ g, mapGranule (64 * c.lo) (64 * c.hi) c.cleared = some g → q = p.onMem (·.clearMapGranule (64 * c.lo) (64 * c.hi) g)) →
      (mapGranule (64 * c.lo) (64 * c.hi) c.cleared = none → q = p) →
      ((mapGranule (64 * c.lo) (64 * c.hi) (c.cleared + 1)).isSome = true → exec (.vmClearGranule die) s = .next (s.withPart
        (q.onDev (·.onMems die.val (fun m => { m with clears := { c with cleared := c.cleared + 1 } :: l }))))) ∧
      (mapGranule (64 * c.lo) (64 * c.hi) (c.cleared + 1) = none → exec (.vmClearGranule die) s = .next (s.withPart
        (q.onDev (fun d => let e := (d.onMems die.val (fun m => { m with clears := l })).endClear die.val (64 * c.lo) stOk
          if l = [] then e else e.set (pageMem die.val + 0x150) 0)))))) ∧
  (∀ (s : State) (die : Die) (stack : Fin 2) (error : Option Ecc), let p := s.part
    let off := pageMem die.val + 0x108 + 4 * stack.val
    (p.dev.scrubs die.val 0x100 = false → exec (.dramScrubRead die stack error) s = .next s) ∧
    (p.dev.scrubs die.val 0x104 = false → exec (.coreStoreScrubRead die error) s = .next s) ∧
    (p.dev.scrubs 4 0x104 = false → exec (.sramScrubRead error) s = .next s) ∧
    (p.dev.scrubs die.val 0x100 = true → nextValid p.mem.valid die.val stack.val (p.dev.get off) = none →
      exec (.dramScrubRead die stack error) s = .next s) ∧
    (∀ g wrapped, p.dev.scrubs die.val 0x100 = true → nextValid p.mem.valid die.val stack.val (p.dev.get off) = some (g, wrapped) →
      let d := if wrapped then p.dev.scrubPass die.val stack.val else p.dev
      (stackGranule g + 1 < stackGranules → exec (.dramScrubRead die stack error) s = .next (s.withPart
        (({ p with dev := d.set off (stackGranule g + 1) } : Part).scrubRead die.val g error))) ∧
      (stackGranule g + 1 = stackGranules → exec (.dramScrubRead die stack error) s = .next (s.withPart
        (({ p with dev := (d.set off 0).scrubPass die.val stack.val } : Part).scrubRead die.val g error)))) ∧
    (let pos := p.dev.get (pageMem die.val + 0x110)
     let core := pos / 131072 % 128
     let g := pos % 131072
     p.dev.scrubs die.val 0x104 = true → exec (.coreStoreScrubRead die error) s = .next (s.withPart
        ((p.onDev (·.set (pageMem die.val + 0x110) (if g + 1 = 98304 then (core + 1) % 128 * 131072 else core * 131072 + g + 1))).scrubRead die.val
          (storeBase (128 * die.val + core) / 64 + g) error))) ∧
    (let pos := p.dev.get (pageMem 4 + 0x110)
     p.dev.scrubs 4 0x104 = true → exec (.sramScrubRead error) s = .next (s.withPart
        ((p.onDev (·.set (pageMem 4 + 0x110) ((pos + 1) % 1048576))).scrubRead 4 (sramBase / 64 + pos) error)))) ∧
  (∀ (p : Part) (die g : Nat) (e : Ecc), p.scrubRead die g (some e) = (p.onMem (·.arise [(BitVec.ofNat 40 (64 * g), e)])).scrubRead die g none) ∧
  (∀ (p : Part) (die g : Nat), p.mem.errorsOf (64 * g) 64 isParity = [] →
    (p.mem.errorsIn (64 * g) 64 .uncorrectable = [] → p.mem.errorsIn (64 * g) 64 .correctable = [] → p.scrubRead die g none = p) ∧
    (p.mem.errorsIn (64 * g) 64 .uncorrectable ≠ [] → p.mem.errorsIn (64 * g) 64 .correctable = [] →
      p.scrubRead die g none = (p.onMem (·.poisonGranule g)).onDev (·.uncorrected (64 * g))) ∧
    (∀ w, p.mem.errorsIn (64 * g) 64 .uncorrectable = [] → p.mem.errorsIn (64 * g) 64 .correctable = [w] →
      p.scrubRead die g none = (p.onDev (·.corrected (64 * g))).onMem (fun m => { m with writebacks := m.writebacks ++ [⟨die, g, true, false⟩] }))) ∧
  (∀ (s : State) (die : PDie), let p := s.part
    (die.val < 4 → 2 ≤ p.dev.sleepState die.val → exec (.scrubWriteback die) s = .next s) ∧
    (p.mem.writebacks.find? (fun w => w.page == die.val) = none → exec (.scrubWriteback die) s = .next s) ∧
    (∀ w, (die.val = 4 ∨ p.dev.sleepState die.val < 2) → p.mem.writebacks.find? (fun w => w.page == die.val) = some w →
      let rest := dropFirst (fun (w : Writeback) => w.page == die.val) p.mem.writebacks
      (w.stale = true → exec (.scrubWriteback die) s = .next (s.withPart
        ((p.onMem (fun m => { m with writebacks := rest })).onDev (·.count (pageMem die.val + 0x13C))))) ∧
      (w.stale = false → exec (.scrubWriteback die) s = .next (s.withPart (p.onMem (fun m =>
        { m with writebacks := rest, ecc := smapEraseRange m.ecc (8 * w.granule) (8 * w.granule + 8) })))))) ∧
  (∀ (s : State) (die : Die), let p := s.part
    ((smapGet p.dev.mems {} die.val).copy = none → exec (.repairCopyDone die) s = .next s) ∧
    (∀ stack k, (smapGet p.dev.mems {} die.val).copy = some (stack, k) →
      let a := blockAddr (2 * die.val + stack) k
      exec (.repairCopyDone die) s = .next (s.withPart
        (((p.touch a 4096).onMem (fun m => { m with ecc := smapEraseRange m.ecc (a / 8) (a / 8 + 512) })).onDev (fun d =>
          ((d.onMems die.val (fun m => { m with copy := none })).memEvent a 5 stOk).onHist (fun h => { h with
            repairs := h.repairs ++ [⟨true, 2 * die.val + stack, k⟩] }))))))

/-- Converters deliver, are triggered and calibrate. A step that ends delivers its result and the converter goes on to its next
step, injected steps first; one that calibrates or stands delivers nothing. An alarm that was posted reaches the sequencer
once. A droop counts, raises its event and posts its alarm; MC_INJECT of a processor triggers. A trigger that INJ_EN masks
does nothing; another starts the injected sequence, waits while one runs, and is counted when one waits. SELF_CAL of a
processor while the converter runs or calibrates is ignored and captured, and else begins; 1.6 ms after it has begun its end
sets the factors, CAL_OK by the residual, the count and the tick. Reading CH_MINMAX returns the pair and lets it restart.
(R467, R468, R469, R472, R473, R475, R504) -/
def Obligations.MonitorConverters : Prop :=
  (∀ (s : State) (die : PDie) (mean : Reading), let p := s.part
    let c := p.dev.converter die.val
    let st := p.dev.mcStat die.val
    (bit st 0 = true ∨ (bit st 2 = false ∧ bit c.cfg 0 = false) → exec (.converterStepDone die mean) s = .next s) ∧
    (bit st 0 = false → bit st 2 = false → bit c.cfg 0 = true →
      let word := c.steps.getD (bits st 12 8) 0
      exec (.converterStepDone die mean) s = .next (s.withPart
        ((p.deliverResult die.val (bits word 3 0) (bits st 12 8) word false mean).onDev (·.nextStep die.val)))) ∧
    (bit st 0 = false → bit st 2 = true →
      let word := c.inj.getD c.injStep 0
      exec (.converterStepDone die mean) s = .next (s.withPart
        ((p.deliverResult die.val (bits word 3 0) c.injStep word true mean).onDev (fun d =>
          if bits c.cfg 21 20 ≤ c.injStep then d.endInjected die.val
          else d.onConverter die.val (fun c => { c with injStep := c.injStep + 1 })))))) ∧
  (∀ (s : State) (die : PDie) (k : Fin 4), let d := s.part.dev
    (k.val ∉ (d.converter die.val).alarms → exec (.injectTrigger die k) s = .next s) ∧
    (k.val ∈ (d.converter die.val).alarms → exec (.injectTrigger die k) s = .next (s.withDev
      ((d.onConverter die.val (fun c => { c with alarms := dropFirst (· == k.val) c.alarms })).trigger die.val k.val))) ∧
    exec (.droopTrip die) s = .next (s.withDev
      (((d.onConverter die.val (fun c => { c with droops := c.droops + 1 })).monEvent die.val 3 0 0 0).postAlarm die.val 2))) ∧
  (∀ (d : Device) (p k : Nat),
    (bit (d.converter p).cfg (16 + k) = false → d.trigger p k = d) ∧
    (bit (d.converter p).cfg (16 + k) = true →
      (bit (d.mcStat p) 2 = false → d.trigger p k = d.startInjected p (decide (k = 0))) ∧
      (bit (d.mcStat p) 2 = true → bit (d.mcStat p) 3 = true → d.trigger p k = d.count (pageMon p + 0x13C)) ∧
      (bit (d.mcStat p) 2 = true → bit (d.mcStat p) 3 = false → d.trigger p k =
        (if k = 0 then d.onConverter p (fun c => { c with witnessNext := true }) else d).setStat p 3 3 1))) ∧
  (∀ (s : State) (die : PDie) (agent : Agent), let d := s.part.dev
    let busy := bit (d.get (pageMon die.val + 0x100)) 0 = true ∨ bit (d.mcStat die.val) 0 = true
    (isProcessor agent.toNat = false → exec (.mcInject die agent) s = .next s ∧ exec (.selfCal die agent) s = .next s) ∧
    (isProcessor agent.toNat = true → exec (.mcInject die agent) s = .next (s.withDev (d.trigger die.val 3))) ∧
    (isProcessor agent.toNat = true → busy → exec (.selfCal die agent) s = .next (s.withDev (d.refuseCtrl (pageMon die.val) 4 agent.toNat))) ∧
    (isProcessor agent.toNat = true → ¬busy → exec (.selfCal die agent) s = .next (s.withDev
      ((d.setStat die.val 0 0 1).onConverter die.val (fun c => { c with
        calSince := d.pageTick (pageMon die.val) }))))) ∧
  (∀ (s : State) (die : PDie) (residual : Int) (gain offset : BitVec 16), let d := s.part.dev
    let page := pageMon die.val
    let e := d.elapse ((d.converter die.val).calSince + 1600000 - d.pageTick page)
    let f := (e.setStat die.val 0 0 0).setStat die.val 1 1 (flag (decide (residual.natAbs ≤ 2)))
    let g := (f.set (page + 0x114) (gain.toNat + offset.toNat * 0x10000)).count (page + 0x108)
    (bit (d.mcStat die.val) 0 = false → exec (.selfCalDone die residual gain offset) s = .next s) ∧
    (bit (d.mcStat die.val) 0 = true → exec (.selfCalDone die residual gain offset) s = .next (s.withDev
      ((g.set64 (page + 0x10C) (f.pageTick page)).monEvent die.val 0 0 0 0)))) ∧
  (∀ (s : State) (die : PDie) (ch : Fin 16), let d := s.part.dev
    exec (.chMinmaxRead die ch) s = .next (s.withDev
      ((d.send (.minmax die.val ch.val (d.get (pageMon die.val + 0x240 + 4 * ch.val)))).onConverter die.val (fun c => { c with
        held := setErase c.held ch.val }))))

/-- Rounds judge the temperatures, and temper passes follow. A valid reading above 1,760 sixteenths of a degree or rising by
more than 320 is QUENCH, from 1,680 or rising by more than 128 THROTTLE, from TJ_WARN or rising by more than 64 WARN, and
below NORMAL; a second invalid reading in a row is THROTTLE and the eighth QUENCH. A round evaluates every die at the next
multiple of 1 ms, soaks what the stress asks for, quenches a module with a die in QUENCH, and else steps the level down for
a throttled die at most once in 8 ms and by the power. No soak pass runs on a die that has risen by more than 3 °C, has
reached PROOF_TJ or programs (what duty it has otherwise is free, log entry 70). The request returns a level at a time.
QUENCH_CLR of a processor before 100 clear rounds is ignored and captured, and then starts the clocks with a core reset of
all four dies. A temper boundary of a die that is off, asleep or quenched does nothing; another takes the snapshots, raises
RESID_HIGH, judges the drift, posts the alarm and begins a pass, or counts a skip while one is in progress; a pass ends with
the submission of its trims. A reference measurement writes each die's error. (R73, R74, R477, R479, R480, R482, R483, R484,
R486, R491, R493, R580) -/
def Obligations.ThermalControl : Prop :=
  (∀ (d : Device) (t rise : Int) (invalid : Nat), let warn := signed 16 (d.get (pageThm + 0x12C))
    (320 < rise ∨ 1760 ≤ t → d.thermalState (some t) rise invalid = 3) ∧
    (rise ≤ 320 → t < 1760 → (128 < rise ∨ 1680 ≤ t) → d.thermalState (some t) rise invalid = 2) ∧
    (rise ≤ 128 → t < 1680 → (64 < rise ∨ warn ≤ t) → d.thermalState (some t) rise invalid = 1) ∧
    (rise ≤ 64 → t < 1680 → t < warn → d.thermalState (some t) rise invalid = 0) ∧
    d.thermalState none rise invalid = (if 8 ≤ invalid then 3 else if 2 ≤ invalid then 2 else 0)) ∧
  (∀ (s : State) (power : BitVec 16),
    let a := s.part.dev.reach ((s.part.dev.now / 1000000 + 1) * 1000000)
    let b := (List.range 5).foldl (fun d n => d.evaluateDie n) a
    let drooped := (List.range 5).any (fun n => decide (b.get (pagePwr + 0x128) < (b.converter n).droops))
    let c := (List.range 5).foldl (fun d n => if (d.converter n).droops = 0 then d else d.onConverter n (fun c => { c with droops := 0 })) b
    let e := c.watchStress.soakAll.set (pagePwr + 0x120) power.toNat
    let f : Device := { e with power := { e.power with rounds := (power.toNat :: e.power.rounds).take 8 } }
    let g := f.onHk (fun h => { h with
      coolSince := if f.allCool then (match h.coolSince with | some t => some t | none => some f.now) else none
      clearRounds := if f.allBelow then h.clearRounds + 1 else 0 })
    let hot := ∃ n, n < 5 ∧ g.therm n = 3
    let slow := ∃ n, n < 5 ∧ g.therm n = 2
    (a.hk.stopped = false → hot → exec (.housekeepingRound power) s = .next (s.withDev g.quench)) ∧
    (a.hk.stopped = true ∨ ¬hot → slow → g.mayStep = true → exec (.housekeepingRound power) s = .next (s.withDev
      ((g.stepLevel.count (pageThm + 0x16C)).powerStep drooped))) ∧
    (a.hk.stopped = true ∨ ¬hot → ¬slow ∨ g.mayStep = false → exec (.housekeepingRound power) s = .next (s.withDev (g.powerStep drooped)))) ∧
  (∀ (d : Device) (die : Nat), let seen := (smapGet d.hk.temps [] die).headD none
    (∀ t, seen = some t → 48 < signed 16 (d.get (pageThm + 0x114 + 4 * die)) ∨ d.proofTj ≤ t → d.soakDuty die = 0) ∧
    (seen = none → d.soakDuty die = 0) ∧
    (d.soaks = false ∨ (smapFind d.billet.batches die).isSome = true ∨ d.soakDuty die = 0 →
      d.soakDie die = (d.onHk (fun h => { h with soak := smapErase h.soak die })).drawn)) ∧
  (∀ (s : State), let d := s.part.dev
    let w := d.get (pageHeat + 0x138)
    (d.hk.coolSince = none → exec .throttleRelease s = .next s) ∧
    (∀ t, d.hk.coolSince = some t →
      (bits w 6 4 ≤ bits w 2 0 → exec .throttleRelease s = .next s) ∧
      (bits w 2 0 < bits w 6 4 → let due := t + 1000000 * d.get (pageThm + 0x130)
        exec .throttleRelease s = .next (s.withDev
          (((d.reach due).setThermalReq (bits w 6 4 - 1)).onHk (fun h => { h with coolSince := some due })))))) ∧
  (∀ (s : State) (agent : Agent), let d := s.part.dev
    (isProcessor agent.toNat = false → exec (.quenchClr agent) s = .next s) ∧
    (isProcessor agent.toNat = true → d.hk.stopped = false ∨ d.hk.clearRounds < 100 →
      exec (.quenchClr agent) s = .next (s.withDev (d.refuseCtrl pageThm 2 agent.toNat))) ∧
    (isProcessor agent.toNat = true → d.hk.stopped = true → 100 ≤ d.hk.clearRounds → ∃ t, exec (.quenchClr agent) s = .next t ∧ t.part.mem = s.part.mem ∧
      t.part.dev.hk.stopped = false ∧ bit (t.part.dev.get (pageThm + 0x128)) 24 = false ∧
      t.part.dev.power.coreResets = d.power.coreResets ++ (List.range 4).map (fun die => ⟨3, die, 0, d.now, false⟩))) ∧
  (∀ (s : State) (die : Die), let d := s.part.dev
    let idle := d.hk.stopped = true ∨ die.val ∈ d.power.down ∨ 2 ≤ d.sleepState die.val
    let e := (List.range (68 * 128)).foldl (fun d i => d.snapshot (68 * 128 * die.val + i)) d
    let resid := e.residualAnvils die.val
    let alarm := (e.anvilsOf die.val).find? (fun u => resid.contains u || e.drifts u)
    let f := (resid.foldl (fun d u => d.residHigh u) e).judgeDrift die.val
    let g := match alarm with | some u => f.witnessAlarm u | none => f
    (idle → exec (.temperBoundary die) s = .next s) ∧
    (¬idle → g.trimRecord = false → exec (.temperBoundary die) s = .next (s.withDev g)) ∧
    (¬idle → g.trimRecord = true → g.temperHeld die.val = true ∨ (smapFind g.hk.passes die.val).isSome = true →
      exec (.temperBoundary die) s = .next (s.withDev (g.count (pageThm + 0x178)))) ∧
    (¬idle → g.trimRecord = true → g.temperHeld die.val = false → smapFind g.hk.passes die.val = none →
      exec (.temperBoundary die) s = .next (s.withDev ((g.takeBase die.val).onHk (fun h => { h with
        passes := smapSet h.passes die.val g.now })))) ∧
    (smapFind d.hk.passes die.val = none → exec (.temperPassDone die) s = .next s) ∧
    (∀ k, smapFind d.hk.passes die.val = some k →
      let us := d.temperAnvils die.val
      let e := (us.foldl (fun d u => d.temperAnvil u) d).onHk (fun h => { h with passes := smapErase h.passes die.val })
      exec (.temperPassDone die) s = .next (s.withDev (e.hkSubmit (us.map pageAnv) (k + e.get (pageThm + 0x13C)) true)))) ∧
  (∀ (s : State) (errors : List Int),
    exec (.refMeasure errors) s = .next (s.withDev ((errors.take 5).zipIdx.foldl (fun (d : Device) e => d.measureRef e.2 e.1) s.part.dev)))

/-- Dies fall asleep and wake, and levels change clock and rail in their order. An idle timer that is set puts a powered, idle,
not waking die that sleeps less deeply to sleep: in S1, while a plan runs, only when its next issue lies far enough ahead,
and in S2 and S3 only while no plan runs; otherwise nothing changes. S1 wakes of itself. A die in S2 or S3 begins to wake on
an event of its own, and every one on WAKE of a processor. A wake that completes re-checks the die, and after S3 has emptied
its core stores and runs a temper pass; it leaves the die awake and raises its event. A level change relocks the clock first
on the way to a slower level and ramps the rail first on the way to a faster one. (R390, R505, R506, R507, R508, R510, R511,
R512) -/
def Obligations.SleepAndLevels : Prop :=
  (∀ (s : State) (die : Die), let d := s.part.dev
    let n := die.val
    let may1 := d.get (pagePwr + 0x108) ≠ 0 ∧ d.maySleep n 1 = true ∧ (d.planRuns = false ∨ d.now + wakeLead + 1000 ≤ d.nextIssue n)
    let may2 := d.get (pagePwr + 0x10C) ≠ 0 ∧ d.maySleep n 2 = true ∧ d.planRuns = false
    let may3 := bit (d.get (pagePwr + 0x110)) 31 = true ∧ d.maySleep n 3 = true ∧ d.planRuns = false
    (may1 → exec (.idleS1Expire die) s = .next (s.withDev ((d.setSleep n 1).count (pagePwr + 0x114)))) ∧
    (¬may1 → exec (.idleS1Expire die) s = .next s) ∧
    (may2 → exec (.idleS2Expire die) s = .next (s.withDev (((d.setSleep n 2).count (pagePwr + 0x118)).pwrEvent 1 n))) ∧
    (¬may2 → exec (.idleS2Expire die) s = .next s) ∧
    (may3 → exec (.idleS3Expire die) s = .next (s.withDev (((d.setSleep n 3).count (pagePwr + 0x11C)).pwrEvent 1 n))) ∧
    (¬may3 → exec (.idleS3Expire die) s = .next s) ∧
    (d.sleepState n ≠ 1 → exec (.s1SelfWake die) s = .next s) ∧
    (d.sleepState n = 1 → d.planRuns = false → exec (.s1SelfWake die) s = .next (s.withDev (d.setSleep n 0))) ∧
    (d.sleepState n = 1 → d.planRuns = true →
      exec (.s1SelfWake die) s = .next (s.withDev ((d.reach (d.nextIssue n - wakeLead)).setSleep n 0))) ∧
    (2 ≤ d.sleepState n → exec (.dieWake die) s =
      .next (s.withDev (d.onPower (fun p => { p with waking := setInsert p.waking n })))) ∧
    (d.sleepState n < 2 → exec (.dieWake die) s = .next s) ∧
    (n ∉ d.power.waking → exec (.wakeComplete die) s = .next s) ∧
    (n ∈ d.power.waking → d.sleepState n ≠ 3 → exec (.wakeComplete die) s = .next (s.withDev
      (((((d.recheckDie n).setSleep n 0).onPower (fun p => { p with waking := setErase p.waking n })).pwrEvent 2 n).initialArrival))) ∧
    (n ∈ d.power.waking → d.sleepState n = 3 → exec (.wakeComplete die) s = .next (s.withPart
      ((s.part.onMem (·.clearStores (dieCores n))).onDev (fun d =>
        ((((((d.recheckDie n).wakePass n).setSleep n 0).onPower (fun p => { p with waking := setErase p.waking n })).pwrEvent 2 n)).initialArrival))))) ∧
  (∀ (s : State) (agent : Agent),
    (isProcessor agent.toNat = true → exec (.wake agent) s = .next (s.withDev s.part.dev.wakeAll)) ∧
    (isProcessor agent.toNat = false → exec (.wake agent) s = .next s)) ∧
  (∀ (s : State), let d := s.part.dev
    (d.changing = false → exec .clockRelock s = .next s ∧ exec .railRamp s = .next s) ∧
    (d.changing = true → d.slowing = true →
      exec .clockRelock s = .next (s.withDev (d.onPower (fun p => { p with clockDone := true }))) ∧
      (d.power.clockDone = false → exec .railRamp s = .next s) ∧
      (d.power.clockDone = true → exec .railRamp s = .next (s.withDev (d.onPower (fun p => { p with railDone := true }))))) ∧
    (d.changing = true → d.slowing = false →
      exec .railRamp s = .next (s.withDev (d.onPower (fun p => { p with railDone := true }))) ∧
      (d.power.railDone = false → exec .clockRelock s = .next s) ∧
      (d.power.railDone = true → exec .clockRelock s = .next (s.withDev (d.onPower (fun p => { p with clockDone := true }))))))

/-- Every reset of the management class loses memory, keeps the history and names its cause. PWR_OK rising or falling, a tripped
detector, RESET_IN, the watchdog, SYS_RESET of a processor and an accepted group reset leave memory empty, the module in
reset with nothing waiting in its blocks, no session, no pending commit and no plan, the flash history's fences, dead
routers and time kept, and set their bit of RST_CAUSE; a power-on reset clears every other bit of it and the counters.
SYS_RESET of another agent changes nothing. The stretch ends only when nothing holds the reset, 2 ms after the cause has
ended. A group reset message is accepted from the bridge of the group on a trained port with MACsec whose module accepts
them, and another is a stranger. (R390, R392, R513, R514, R515, R516, R517, R531) -/
def Obligations.ManagementResetsLoseMemory : Prop :=
  (∀ (s : State) (agent : Agent) (processor : Fin 5) (die : Die),
    let after (i : Instr) (powerOn : Bool) (cause : Nat) : Prop :=
      ∃ t, exec i s = .next t ∧ t.pending = s.pending ∧
        t.part.mem = {} ∧ t.part.dev.power.inReset = true ∧ t.part.dev.bht.sessions = [] ∧ t.part.dev.commits.commits = [] ∧
        t.part.dev.planRuns = false ∧ t.part.dev.cores = [] ∧ t.part.dev.transfers = [] ∧ t.part.dev.sync.waiters = [] ∧
        t.part.dev.hist.fences = s.part.dev.hist.fences ∧ t.part.dev.hist.dead = s.part.dev.hist.dead ∧ t.part.dev.hist.sec = s.part.dev.hist.sec ∧
        t.part.dev.ticks = (if powerOn then #v[0, 0, 0, 0, 0] else s.part.dev.ticks) ∧
        bit (t.part.dev.get (pagePwr + 0x140)) cause = true ∧
        (powerOn = true → t.part.dev.get (pagePwr + 0x140) = 2 ^ cause)
    after .pwrOkRise true 1 ∧ after .pwrOkFall true 1 ∧ after .powerDetectorTrip true 0 ∧ after .resetIn false 2 ∧
    after (.watchdogExpire processor die) false 3 ∧ (isProcessor agent.toNat = true → after (.sysReset agent) false 4) ∧
    (isProcessor agent.toNat = false → exec (.sysReset agent) s = .next s)) ∧
  (∀ (s : State), let d := s.part.dev
    exec .resetInRelease s = .next (s.withDev (d.onPower (fun x => { x with resetIn := false, causeEnd := d.poweredNs }))) ∧
    exec .inputRestored s = .next (s.withDev (d.onPower (fun x => { x with inputOk := true, causeEnd := d.poweredNs }))) ∧
    (d.power.inReset = true ∧ d.power.pwrOk = true ∧ d.power.resetIn = false ∧ d.power.inputOk = true →
      exec .resetStretchEnd s = .next (s.withDev
        ((d.elapse (d.power.causeEnd + 2000000 - d.poweredNs)).onPower (fun x => { x with inReset := false, step := 1 })))) ∧
    (d.power.inReset = false ∨ d.power.pwrOk = false ∨ d.power.resetIn = true ∨ d.power.inputOk = false → exec .resetStretchEnd s = .next s)) ∧
  (∀ (s : State) (p : Port) (f : MeshHdr), let r := s.part.dev.intake p.val f (.fault f.src.toNat 0xFFFF)
    let accepts := bit (r.2.get (pagePwr + 0x144)) 0 = true ∧ bit (r.2.get (pagePort p.val + 0x104)) 3 = true ∧
      f.src.toNat = r.2.node / 16 * 16 ∧ bit (r.2.get (pagePort p.val + 0x100)) 12 = true ∧ f.macsecOk = true
    (r.1 = false → exec (.groupReset p f) s = .next (s.withDev r.2)) ∧
    (r.1 = true → ¬accepts → exec (.groupReset p f) s = .next (s.withDev (r.2.stranger p.val f 0x0C))) ∧
    (r.1 = true → accepts → ∃ t, exec (.groupReset p f) s = .next t ∧ t.part.mem = {} ∧ t.part.dev.power.inReset = true ∧
      bit (t.part.dev.get (pagePwr + 0x140)) 5 = true) ∧
    (∀ node evt, evt.toNat = 0xFFFF → exec (.faultCell p f node evt) s = exec (.groupReset p f) s))

/-- Boot goes through its steps, core resets act and end, and routers fail. Each boot step that ends is shown in BOOT_STAT and
starts the next: step 1 counts the boot, step 3 stays without an acceptable firmware, step 4 derives the keys and starts the
self-calibrations, step 5 waits for the converters and goes to step 9 in the safe state, steps 6 and 7 clear DRAM and the
core stores, step 7 loads the routing tables, and step 10 waits for the lock of the time base and sets READY. A core reset
of a processor that names no target is nothing, one too near is refused with its event, and another is queued and wakes its
target; it acts at its tick on what it covers, once its die is awake, and empties the stores of its cores, and ends 20 µs or
30 ms later with the witness check; without one waiting or acting nothing happens. A router that fails is recorded and
listed for the next maintenance commit, once; a fabric fault is recorded and faults the module (its class, unit and detail
are the model's choice, log entry 64). (R40, R42, R43, R390, R518, R519, R520, R525, R530, R559, R560, R561) -/
def Obligations.BootAndCoreResets : Prop :=
  (∀ (s : State), let p := s.part
    let d := p.dev
    (d.power.step = 0 ∨ 10 < d.power.step → exec .bootStepDone s = .next s) ∧
    (d.power.step = 1 → exec .bootStepDone s = .next (s.withDev (({ d with rom := { d.rom with boots := d.rom.boots + 1 } } : Device).stepTo 1 2))) ∧
    (d.power.step = 2 → exec .bootStepDone s = .next (s.withDev (d.loadRecords.stepTo 2 3))) ∧
    (d.power.step = 3 → d.goodFirmware = none → exec .bootStepDone s = .next (s.withDev (d.onPower (fun x => { x with step := 0 })))) ∧
    (∀ i, d.power.step = 3 → d.goodFirmware = some i → exec .bootStepDone s = .next (s.withDev ((d.acceptFirmware i).stepTo 3 4))) ∧
    (d.power.step = 4 → exec .bootStepDone s = .next (s.withDev
      ((List.range 5).foldl (fun d q => d.startCal q) ((d.deriveKeys.stepTo 4 5).setBits (pageSec + 0x100) 0 0 1)))) ∧
    (d.power.step = 5 → exec .bootStepDone s = .next (s.withDev (if d.calibratedAll then d.stepTo 5 (if d.safe then 9 else 6) else d))) ∧
    (d.power.step = 6 → exec .bootStepDone s = .next (s.withPart ((p.onMem (·.clear 0 (0x6000000000 / 64))).onDev (·.stepTo 6 7)))) ∧
    (d.power.step = 7 → exec .bootStepDone s = .next (s.withPart
      ((p.onMem (·.clearStores (List.range 512))).onDev (fun d => (d.bootTables.stepTo 7 8).onPower (fun x => { x with down := [] }))))) ∧
    (d.power.step = 8 → exec .bootStepDone s = .next (s.withDev (d.firstTrims.stepTo 8 9))) ∧
    (d.power.step = 9 → exec .bootStepDone s = .next (s.withDev (d.stepTo 9 10))) ∧
    (d.power.step = 10 → d.locked = false → exec .bootStepDone s = .next s) ∧
    (d.power.step = 10 → d.locked = true → ∃ t, exec .bootStepDone s = .next t ∧ t.part.mem = p.mem ∧ bit (t.part.dev.get (pagePwr + 0x164)) 31 = true ∧
      t.part.dev.power.step = 0 ∧ t.part.dev.power.locks = true)) ∧
  (∀ (s : State) (agent : Agent), let d := s.part.dev
    let w := d.get (pagePwr + 0x150)
    let die := bits w 5 4
    let scope := bits w 1 0
    let at_ := d.get64 (pagePwr + 0x154)
    let near := at_ < d.now + 1000 + wakeDelay (d.sleepState die)
    (isProcessor agent.toNat = false ∨ scope = 0 → exec (.coreRst agent) s = .next s) ∧
    (isProcessor agent.toNat = true → scope ≠ 0 → near → exec (.coreRst agent) s = .next (s.withDev (d.pwrEvent 3 0 [w, at_ % 2 ^ 32]))) ∧
    (isProcessor agent.toNat = true → scope ≠ 0 → ¬near → exec (.coreRst agent) s = .next (s.withDev
      ((if d.sleepState die = 1 then d.setSleep die 0 else d.wakeDie die).onPower (fun p => { p with
        coreResets := p.coreResets ++ [⟨scope, die, if scope = 2 then bits w 10 8 else bits w 14 8, at_, false⟩] }))))) ∧
  (∀ (s : State), let d := s.part.dev
    (d.power.coreResets.find? (fun r => !r.acting) = none → exec .coreResetAct s = .next s) ∧
    (d.power.coreResets.find? (·.acting) = none → exec .coreResetDone s = .next s) ∧
    (∀ r, d.power.coreResets.find? (fun r => !r.acting) = some r →
      (2 ≤ d.sleepState r.die → exec .coreResetAct s = .next s) ∧
      (d.sleepState r.die < 2 → exec .coreResetAct s = .next (s.withPart
        ((s.part.onDev (fun d => (d.reach r.tick).actReset r)).onMem (·.clearStores r.cores))))) ∧
    (∀ r, d.power.coreResets.find? (·.acting) = some r → exec .coreResetDone s = .next (s.withDev
      ((((d.reach (r.tick + (if r.scope = 3 then 30000000 else 20000))).onPower (fun p => { p with
        coreResets := dropFirst (· == r) p.coreResets })).checkCores r.cores false))))) ∧
  (∀ (m : Memory) (cores : List Nat) (a : Nat), (m.clearStores cores).byte a =
    if cores.any (fun c => decide (storeBase c ≤ a) && decide (a < storeBase c + 0x600000)) then 0 else m.byte a) ∧
  (∀ (s : State) (c : Core) (unit : BitVec 32), let d := s.part.dev
    (d.isDead c.val = true ∨ c.val ∈ d.fabric.failed → exec (.routerFault c) s = .next s) ∧
    (d.isDead c.val = false → c.val ∉ d.fabric.failed → exec (.routerFault c) s = .next (s.withDev
      ((d.record (unitCore c.val) 9 stOk (pageSeq c.val)).onFabric (fun f => { f with failed := setInsert f.failed c.val })))) ∧
    exec (.fabricFault unit) s = .next (s.withDev (d.record unit.toNat 9 stOk pagePwr).moduleFault))

/-- A commit is submitted, checked, held, applied or withdrawn as one set. A submission of a processor or of the housekeeping
path takes the next tag and waits for its check, counted in SUBMIT_CNT; without one the check does nothing. The check of the
oldest one fails it at the first rule in order, with its outcome, or holds its pages with its tag and apply tick. A held
commit applies at its tick while no plan runs, after the rules are checked once more, and does nothing while a plan runs.
Applying a page copies exactly its staged bits. A withdrawal of a processor releases the pages of a pending commit, and of a
tag that is not pending does nothing. (R547, R548, R549, R550, R552, R553, R620) -/
def Obligations.StagedCommits : Prop :=
  (∀ (s : State) (agent : Agent), isProcessor agent.toNat = false → exec (.submit agent) s = .next s ∧ exec (.withdraw agent) s = .next s) ∧
  (∀ (s : State) (agent : Agent), isProcessor agent.toNat = true → let d := s.part.dev
    let n := d.get (pageCom + 0x108)
    (∃ t, exec (.submit agent) s = .next t ∧ t.part.mem = s.part.mem ∧
      t.part.dev.commits.commits = d.commits.commits ++ [{
        tag := d.commits.nextTag, list := d.get64 (pageCom + 0x100) % 2 ^ 40, n := bits n 8 0, maint := bit n 16, apply := d.get64 (pageCom + 0x10C)
        submitted := d.now }] ∧
      t.part.dev.commits.nextTag = (d.commits.nextTag + 1) % 2 ^ 16 ∧
      t.part.dev.get (pageCom + 0x114) = d.commits.nextTag % 2 ^ 32 ∧ t.part.dev.get (pageCom + 0x118) = 0 ∧
      t.part.dev.get (pageCom + 0x130) = satAdd (d.get (pageCom + 0x130)) 1) ∧
    exec (.withdraw agent) s = .next (s.withDev (d.withdrawCommit (bits (d.get (pageCom + 0x124)) 15 0)))) ∧
  (∀ (d : Device) (tag : Nat), (∀ c ∈ d.pendingCommits, c.tag ≠ tag) → d.withdrawCommit tag = d) ∧
  (∀ (d : Device) (c : Commit), c ∈ d.pendingCommits → ∀ x ∈ (d.withdrawCommit c.tag).commits.commits, x.tag ≠ c.tag) ∧
  (∀ (s : State) (pages : List U32) (apply : Tick) (temper : Bool), let d := s.part.dev
    ∃ t, exec (.hkCommitSubmit pages apply temper) s = .next t ∧ t.part.mem = s.part.mem ∧
      t.part.dev.commits.commits = d.commits.commits ++ [{
        tag := d.commits.nextTag, pages := pages.map (·.toNat), apply := apply.toNat, submitted := d.now, hk := true, temper := temper }] ∧
      t.part.dev.get (pageCom + 0x130) = satAdd (d.get (pageCom + 0x130)) 1) ∧
  (∀ (s : State), s.part.dev.commits.commits.find? (fun c => !c.pending) = none → exec .commitCheckDone s = .next s) ∧
  (∀ (s : State) (c : Commit), s.part.dev.commits.commits.find? (fun c => !c.pending) = some c →
    let p := if c.hk then s.part else s.part.touch c.list (4 * Nat.min c.n 256)
    let pages := if (p.rule01 c).isSome then [] else p.commitPages c
    (∀ r i, p.controllerFailure c pages = some (r, i) → exec .commitCheckDone s = .next (s.withPart (p.onDev (·.failCommit c pages r i)))) ∧
    (∀ r i, p.controllerFailure c pages = none → p.setFailure c.maint pages = some (r, i) →
      exec .commitCheckDone s = .next (s.withPart (p.onDev (·.failCommit c pages r i)))) ∧
    (p.controllerFailure c pages = none → p.setFailure c.maint pages = none →
      exec .commitCheckDone s = .next (s.withPart (p.onDev (·.holdCommit c pages))))) ∧
  (∀ (s : State) (tag : BitVec 16), let d := s.part.dev
    (d.planRuns = true ∨ d.pendingCommits.find? (fun c => c.tag == tag.toNat) = none → exec (.commitApply tag) s = .next s) ∧
    (∀ c, d.planRuns = false → d.pendingCommits.find? (fun c => c.tag == tag.toNat) = some c →
      exec (.commitApply tag) s = .next (s.withPart ((s.part.onDev (·.reach c.apply)).applyCommit c (d.reach c.apply).now)))) ∧
  (∀ (p : Part) (c : Commit) (tick : Nat),
    (∀ r i, p.setFailure c.maint c.pages = some (r, i) → p.applyCommit c tick = p.onDev (·.failCommit c c.pages r i)) ∧
    (p.setFailure c.maint c.pages = none → p.applyCommit c tick = p.onDev (fun d =>
      let e := c.pages.foldl (fun d g => (d.applyPage g tick).showApplied g c.tag tick) d
      let f := if c.maint then e.applyFences else e
      let g := if c.temper then (dedup (c.pages.map offDie)).foldl (fun d die => d.applyReference die tick) (f.count (pageThm + 0x174)) else f
      (((g.count (pageCom + 0x134)).raise pageCom 0).showResult c 2 0 0).dropCommit c.tag))) ∧
  (∀ (d : Device) (page off : Nat), (∀ e ∈ stagedWords page, off ≠ page + e.1) → (d.copyStaged page).get off = d.get off)

/-- A page holds its first error until FULL is cleared. While CAP_STAT.FULL is 0 a capture writes its words, at most eight, into
ERR_CAPTURE with the other words zero and sets FULL. While FULL is 1 a capture changes no word of ERR_CAPTURE and FULL stays
1. Writing 1 to FULL of a page that is present clears the eight words and MISSED, and FULL, and changes nothing of another
page. (R540) -/
def Obligations.CaptureHoldsTheFirstError : Prop :=
  (∀ (d : Device) (page : Nat) (words : List Nat), (∀ w ∈ words, w < 2 ^ 32) → words.length ≤ 8 →
    (bit (d.get (page + 0x1C)) 0 = false → (∀ i, i < 8 → (d.capture page words).get (page + 0x20 + 4 * i) = words.getD i 0) ∧
      bit ((d.capture page words).get (page + 0x1C)) 0 = true) ∧
    (bit (d.get (page + 0x1C)) 0 = true → (∀ i, i < 8 → (d.capture page words).get (page + 0x20 + 4 * i) = d.get (page + 0x20 + 4 * i)) ∧
      bit ((d.capture page words).get (page + 0x1C)) 0 = true)) ∧
  (∀ (s : State) (page : U32) (agent : Agent), let d := s.part.dev
    let g := pageOf page.toNat
    isProcessor agent.toNat = true → d.pageHere g = true → (g = pageBht → d.enumBit 12 = true) →
    ∃ t, exec (.capClear page agent) s = .next t ∧ t.part.mem = s.part.mem ∧
      (∀ i, i < 8 → t.part.dev.get (g + 0x20 + 4 * i) = 0) ∧ bits (t.part.dev.get (g + 0x1C)) 15 8 = 0 ∧ bit (t.part.dev.get (g + 0x1C)) 0 = false ∧
      (∀ off, pageOf off ≠ g → t.part.dev.get off = d.get off))

/-- Events set their bit, notify once when enabled, and are cleared by writing 1. An event sets its EVT bit whether or not it is
enabled, and leaves the other bits. One whose bit was 0 and is enabled notifies the destinations of EVT_ROUTE once; one
whose bit is 1 already, or is not enabled, notifies nobody. Writing a mask to EVT clears exactly the bits of the mask.
(R539) -/
def Obligations.EventBits : Prop :=
  (∀ (d : Device) (page b : Nat), b < 32 →
    (∀ i, i < 32 → bit ((d.set (page + 0x10) (d.get (page + 0x10) + (if bit (d.get (page + 0x10)) b then 0 else 2 ^ b))).get (page + 0x10)) i =
      (bit (d.get (page + 0x10)) i || decide (i = b))) ∧
    (bit (d.get (page + 0x10)) b = true → d.raise page b = d) ∧
    (bit (d.get (page + 0x10)) b = false → bit (d.get (page + 0x14)) b = false →
      d.raise page b = d.set (page + 0x10) (d.get (page + 0x10) + 2 ^ b)) ∧
    (bit (d.get (page + 0x10)) b = false → bit (d.get (page + 0x14)) b = true →
      d.raise page b = (d.set (page + 0x10) (d.get (page + 0x10) + 2 ^ b)).notifyEvent page b)) ∧
  (∀ (d : Device) (page b : Nat), (∀ off, off ≠ pageBrd + 0x108 → (d.notifyEvent page b).get off = d.get off) ∧
    (d.notifyEvent page b).sent.length = d.sent.length + ((List.range 5).filter (fun i => bit (d.get (page + 0x18)) i)).length) ∧
  (∀ (s : State) (page mask : U32) (agent : Agent), let d := s.part.dev
    let g := pageOf page.toNat
    isProcessor agent.toNat = true → d.pageHere g = true → (g = pageBht → d.enumBit 12 = true) →
    ∃ t, exec (.evtClear page mask agent) s = .next t ∧ t.part.mem = s.part.mem ∧
      (∀ i, i < 32 → bit (t.part.dev.get (g + 0x10)) i = (bit (d.get (g + 0x10)) i && !(bit mask.toNat i))) ∧
      (∀ off, off ≠ g + 0x10 → t.part.dev.get off = d.get off))

/-- Writes to a page stage, discard, lock, clear and reset it, or are refused and logged. A write of a wrong width or alignment
is logged under kind 1, one to an absent page under kind 2, and one to the BHT page of a module that is no bridge under kind
7. Any other write of a processor reaches its page and wakes the page's die. There a staged word that is not held takes the
staged bits and sets STAGE_PENDING, a held page refuses it under kind 5; a discard takes the live bits; a lock is set on a
page with RWL fields and on no other; CNT_CLR clears the counters, and of a page without any is logged under kind 3; a block
reset with the key is queued for 64 ticks later and another key logged under kind 6; it then resets the page. A write to the
private range does nothing, one of a register that is not listed or that has no writable field is logged under kind 3, and
one of a register whose bits are all RW replaces it. ACC_LOG is cleared by its own write. (R511, R521, R535, R538, R539,
R541, R542, R544, R545, R546, R549, R557) -/
def Obligations.PageWrites : Prop :=
  (∀ (s : State) (off v : U32) (width : Nat) (agent : Agent), isProcessor agent.toNat = true → let d := s.part.dev
    let run := exec (.registerWrite off v width agent) s
    let o := offByte off.toNat
    (width ≠ 4 ∨ off.toNat % 4 ≠ 0 → run = .next (s.withDev (d.logAccess 1 off.toNat v.toNat agent.toNat))) ∧
    (width = 4 → off.toNat % 4 = 0 → d.pageHere (pageOf off.toNat) = false → run = .next (s.withDev (d.logAccess 2 off.toNat v.toNat agent.toNat))) ∧
    (width = 4 → off.toNat % 4 = 0 → d.pageHere (pageOf off.toNat) = true → pageOf off.toNat = pageBht → d.enumBit 12 = false →
      run = .next (s.withDev (d.logAccess 7 off.toNat v.toNat agent.toNat))) ∧
    (∀ k, width = 4 → off.toNat % 4 = 0 → d.pageHere (pageOf off.toNat) = true → (pageOf off.toNat = pageBht → d.enumBit 12 = true) →
      pageKind off.toNat = some k →
      let e := d.wakePage off.toNat
      (0xF00 ≤ o → run = .next (s.withDev e)) ∧
      (o = 0x14 → run = .next (s.withDev (e.set off.toNat (Nat.land v.toNat (pageInfo k).evt)))) ∧
      (o = 0x18 → run = .next (s.withDev (e.set off.toNat (v.toNat % 64)))) ∧
      (0x100 ≤ o → o < 0x700 → regRow k o = none → run = .next (s.withDev (e.logAccess 3 off.toNat v.toNat agent.toNat))) ∧
      (∀ r, 0x100 ≤ o → o < 0x700 → regRow k o = some r → off.toNat ≠ pageCom + 0x140 → r.rw = 0 → r.rwl = 0 →
        run = .next (s.withDev (e.logAccess 3 off.toNat v.toNat agent.toNat))) ∧
      (∀ r, 0x100 ≤ o → o < 0x700 → regRow k o = some r → r.rw = 0xFFFFFFFF → r.rwl = 0 → k ≠ .commit → k ≠ .sync → k ≠ .monitor →
        run = .next (s.withDev (e.set off.toNat v.toNat))))) ∧
  (∀ (s : State) (off v : U32) (agent : Agent), isProcessor agent.toNat = true → let d := s.part.dev
    let run := exec (.stagedImageWrite off v agent) s
    let g := pageOf off.toNat
    let e := d.wakePage off.toNat
    (off.toNat % 4 ≠ 0 → run = .next (s.withDev (d.logAccess 1 off.toNat v.toNat agent.toNat))) ∧
    (off.toNat % 4 = 0 → d.pageHere g = false → run = .next (s.withDev (d.logAccess 2 off.toNat v.toNat agent.toNat))) ∧
    (off.toNat % 4 = 0 → d.pageHere g = true → g = pageBht → d.enumBit 12 = false →
      run = .next (s.withDev (d.logAccess 7 off.toNat v.toNat agent.toNat))) ∧
    (off.toNat % 4 = 0 → d.pageHere g = true → (g = pageBht → d.enumBit 12 = true) →
      ((∃ w ∈ stagedWords g, w.1 + 0x800 = offByte off.toNat) →
        (e.pageHeld g = true → run = .next (s.withDev (e.logAccess 5 off.toNat v.toNat agent.toNat))) ∧
        (e.pageHeld g = false → run = .next (s.withDev (e.stageWord g (offByte off.toNat - 0x800) v.toNat)))) ∧
      ((∀ w ∈ stagedWords g, w.1 + 0x800 ≠ offByte off.toNat) → run = .next (s.withDev (e.logAccess 3 off.toNat v.toNat agent.toNat))))) ∧
  (∀ (s : State) (page key : U32) (agent : Agent), isProcessor agent.toNat = true → let d := s.part.dev
    let g := pageOf page.toNat
    let e := d.wakePage g
    let refused (kind : Nat) : Prop :=
      exec (.stageDiscard page agent) s = .next (s.withDev (d.logAccess kind (g + 0x40) 1 agent.toNat)) ∧
      exec (.lockSet page agent) s = .next (s.withDev (d.logAccess kind (g + 0x54) 1 agent.toNat)) ∧
      exec (.cntClr page agent) s = .next (s.withDev (d.logAccess kind (g + 0x8) 1 agent.toNat)) ∧
      exec (.blkReset page key agent) s = .next (s.withDev (d.logAccess kind (g + 0x50) key.toNat agent.toNat))
    (d.pageHere g = false → refused 2) ∧ (d.pageHere g = true → g = pageBht → d.enumBit 12 = false → refused 7) ∧
    (d.pageHere g = true → (g = pageBht → d.enumBit 12 = true) →
      (e.pageHeld g = true → exec (.stageDiscard page agent) s = .next (s.withDev (e.logAccess 5 (g + 0x40) 1 agent.toNat))) ∧
      (e.pageHeld g = false → exec (.stageDiscard page agent) s = .next (s.withDev (e.discardStage g))) ∧
      (hasLock g = true → exec (.lockSet page agent) s = .next (s.withDev (e.set (g + 0x54) 2))) ∧
      (hasLock g = false → exec (.lockSet page agent) s = .next (s.withDev e)) ∧
      (counterOffs g ≠ [] → exec (.cntClr page agent) s = .next (s.withDev ((counterOffs g).foldl (fun (d : Device) o => d.set (g + o) 0) e))) ∧
      (counterOffs g = [] → exec (.cntClr page agent) s = .next (s.withDev (e.logAccess 3 (g + 0x8) 1 agent.toNat))) ∧
      (∀ k, pageKind g = some k →
        (key.toNat = idType k g * 0x10000 + 0xA5C3 → (pageInfo k).blkReset = true → exec (.blkReset page key agent) s = .next (s.withDev
          (e.onCommits (fun c => { c with resets := c.resets ++ [(g, e.now + 64)] })))) ∧
        (key.toNat ≠ idType k g * 0x10000 + 0xA5C3 ∨ (pageInfo k).blkReset = false →
          exec (.blkReset page key agent) s = .next (s.withDev (e.logAccess 6 (g + 0x50) key.toNat agent.toNat)))))) ∧
  (∀ (s : State) (page : U32), let d := s.part.dev
    (d.commits.resets.find? (fun r => r.1 == pageOf page.toNat) = none → exec (.blockReset page) s = .next s) ∧
    (∀ r, d.commits.resets.find? (fun r => r.1 == pageOf page.toNat) = some r → exec (.blockReset page) s = .next (s.withDev
      (((d.reach r.2).onCommits (fun c => { c with resets := dropFirst (· == r) c.resets })).resetPage (pageOf page.toNat))))) ∧
  (∀ (s : State) (agent : Agent), isProcessor agent.toNat = true → ∃ t, exec (.accLogClear agent) s = .next t ∧ t.part.mem = s.part.mem ∧
    (∀ i, i < 6 → t.part.dev.get (pageCom + 0x140 + 4 * i) = 0) ∧
    (∀ off, off < pageCom + 0x140 ∨ pageCom + 0x158 ≤ off → t.part.dev.get off = s.part.dev.get off))

/-- Fuses, measurements, quotes, the debug unlock and keys. Of a processor, ROLLBACK_ADV blows fuses only while the SVN is above
RB_COUNT, one at a time, and ends with its event. EXTEND takes MR7 only. A quote is composed once at a time, and is
delivered with its signature and its event. A challenge is given while fewer than three attempts have failed, and expires
after 10 min; an attempt uses it up, and with a wrong or late signature or while a plan runs is counted with DBG_FAIL; an
accepted one closes the sessions, erases the keys, clears the DRAM and unlocks. A key load clears KDATA and installs the key
that KSEL names, or is refused while unlocked; KEY_ERASE takes the key away. With nothing under way the ends of these do
nothing. (R559, R562, R563, R565, R571, R573, R574, R575) -/
def Obligations.SecurityProcessor : Prop :=
  (∀ (s : State) (agent : Agent), isProcessor agent.toNat = true → let p := s.part
    let d := p.dev
    exec (.rollbackAdv agent) s = .next (s.withDev (if d.rom.rbCount < d.fwSvn then d.onWork (fun w => { w with blowing := true }) else d)) ∧
    (d.get (pageSec + 0x110) % 8 ≠ 7 → exec (.extend agent) s = .next (s.withDev (d.refuseCtrl pageSec 2 agent.toNat))) ∧
    (d.get (pageSec + 0x110) % 8 = 7 → let q := p.touch (d.secAddr 0x138) 32
      exec (.extend agent) s = .next (s.withPart (q.onDev (·.extendMr 7 (q.mem.read (d.secAddr 0x138) 32))))) ∧
    (bit (d.get (pageSec + 0x100)) 4 = true → exec (.quote agent) s = .next (s.withDev (d.refuseCtrl pageSec 4 agent.toNat))) ∧
    (bit (d.get (pageSec + 0x100)) 4 = false →
      let q := p.touchAll [(d.secAddr 0x140, 32), (d.get64 (pageBlt + 0x104) % 2 ^ 40 + 0x60, 32), (d.adpEntry 0, 65536),
        (d.tenSrv (d.get (pageSec + 0x150) % 256), 16)]
      exec (.quote agent) s = .next (s.withPart (q.onDev (fun d => (d.setBits (pageSec + 0x100) 4 4 1).onWork (fun w => { w with
        quote := some (q.dev.secAddr 0x148, q.quoteBytes), quotes := w.quotes + 1 }))))) ∧
    (3 ≤ d.work.tries → exec (.dbgChal agent) s = .next (s.withDev (d.refuseCtrl pageSec 8 agent.toNat))) ∧
    (d.work.tries < 3 → ∃ t, exec (.dbgChal agent) s = .next t ∧ t.part.mem = p.mem ∧ t.part.dev.work.challenge = some d.now ∧
      t.part.dev.work.challenges = d.work.challenges + 1 ∧
      (∀ i, i < 8 → t.part.dev.get (pageSec + 0x160 + 4 * i) = (Config.challenge d.free).toNat / 2 ^ (32 * i) % 2 ^ 32)) ∧
    (let q := p.touch (d.secAddr 0x180) 29792
     let used := q.onDev (·.onWork (fun w => { w with challenge := none }))
     (q.unlocks = false → exec (.dbgUnlock agent) s = .next (s.withPart (used.onDev (fun d =>
       ((d.onWork (fun w => { w with tries := w.tries + 1 })).count (pageSec + 0x188)).secEvent 2 d.work.challenges)))) ∧
     (q.unlocks = true → ∃ t, exec (.dbgUnlock agent) s = .next t ∧ t.part.dev.sec.keys = [] ∧ t.part.dev.unlocked = true ∧
       t.part.dev.hist.returned = true ∧ t.part.dev.work.challenge = none ∧ t.part.mem = q.mem.clear 0 (0x6000000000 / 64) ∧
       (∀ n x, t.part.dev.session n = some x → x.isOpen = false)))) ∧
  (∀ (s : State), let d := s.part.dev
    (d.work.blowing = false → exec .fuseBlown s = .next s) ∧
    (d.work.blowing = true → ∃ t, exec .fuseBlown s = .next t ∧ t.part.mem = s.part.mem ∧ t.part.dev.rom.rbCount = d.rom.rbCount + 1 ∧
      t.part.dev.work.blowing = decide (d.rom.rbCount + 1 < d.fwSvn)) ∧
    (d.work.challenge = none → exec .challengeExpire s = .next s) ∧
    (∀ t, d.work.challenge = some t → exec .challengeExpire s = .next (s.withDev
      ((d.reach (t + 600000000000)).onWork (fun w => { w with challenge := none })))) ∧
    (d.work.quote = none → exec .quoteDone s = .next s) ∧
    (∀ a q, d.work.quote = some (a, q) →
      let sign := (List.range 17088).map (Config.signature d.free d.sec.attestation q)
      exec .quoteDone s = .next (s.withPart ((s.part.put a (q ++ sign) false (agentId d.node 2 0)).onDev (fun d =>
        let e := (d.drawn.setBits (pageSec + 0x100) 4 4 0).onWork (fun w => { w with quote := none })
        ((e.set (pageSec + 0x154) (q.length + 17088)).count (pageSec + 0x18C)).secEvent 0 e.work.quotes))))) ∧
  (∀ (s : State) (agent : Agent), isProcessor agent.toNat = true → let d := s.part.dev
    (d.keyName = none → exec (.keyLoad agent) s = .next (s.withDev (d.refuseCtrl pageTen 2 agent.toNat)) ∧
      exec (.keyErase agent) s = .next (s.withDev (d.refuseCtrl pageTen 4 agent.toNat))) ∧
    (∀ k, d.keyName = some k →
      exec (.keyErase agent) s = .next (s.withDev { d with sec := { d.sec with keys := smapErase d.sec.keys k } }) ∧
      (∃ t, exec (.keyLoad agent) s = .next t ∧ t.part.mem = s.part.mem ∧ (∀ i, i < 8 → t.part.dev.get (pageTen + 0x504 + 4 * i) = 0) ∧
        (d.unlocked = true → t.part.dev.get (pageTen + 0x524) = 2 ^ 31 + stTenant ∧ t.part.dev.work.keyLoad = d.work.keyLoad) ∧
        (d.unlocked = false → t.part.dev.get (pageTen + 0x524) = 0 ∧ t.part.dev.work.keyLoad =
          some (k, (List.range 8).flatMap (fun i => leBytes 4 (d.get (pageTen + 0x504 + 4 * i)))))))) ∧
  (∀ (s : State), let d := s.part.dev
    (d.work.keyLoad = none → exec .keyLoadDone s = .next s) ∧
    (∀ k key, d.work.keyLoad = some (k, key) → ∃ t, exec .keyLoadDone s = .next t ∧ t.part.mem = s.part.mem ∧ t.part.dev.work.keyLoad = none ∧
      (d.unlocked = true → t.part.dev.sec.keys = d.sec.keys ∧ t.part.dev.get (pageTen + 0x524) = 2 ^ 31 + stTenant) ∧
      (d.unlocked = false → t.part.dev.sec.keys = smapSet d.sec.keys k key ∧ t.part.dev.get (pageTen + 0x524) = 2 ^ 31 + stOk)))

/-- Proof outputs are compared, history dumped, and the board interface answers. After its maintenance heat a proof entry of the
programme that ran is compared: a match counts, a mismatch is counted, raises its event and is recorded, and one whose
temperature was not held is skipped and counted; while the heat runs, of another programme or beyond the table nothing
happens. A dump of a processor of 1 to 4,096 blocks into SRAM while no plan runs and none is under way begins, and is
refused otherwise; it ends with the block and its hash written, MR6 extended and its event. The I3C target gives its
identity, BCR and DCR and takes an address, keeps its offset, answers reads of Phievo pages, refuses others, and writes the
board page only. TRST_N resets the TAP and each edge of TCK moves it on. (R523, R578, R581, R589, R600, R605, R606, R608) -/
def Obligations.HistoryAndBoard : Prop :=
  (∀ (s : State) (i : Nat), let d := s.part.dev
    let runs := d.planRuns = true ∧ d.heat.kind = 1 ∧ d.now < d.heat.start + d.heat.len
    (d.work.proof = none → exec (.proofCompare i) s = .next s) ∧
    (∀ prog stressed held, d.work.proof = some (prog, stressed, held) →
      (runs ∨ d.get (pageHis + 0x118) ≤ i → exec (.proofCompare i) s = .next s) ∧
      (¬runs → i < d.get (pageHis + 0x118) →
        let p := s.part.touch (d.get64 (pageHis + 0x110) % 2 ^ 40 + 32 * i) 32
        let e := p.proofEntry i
        let q := ((p.touch e.out e.len).touch e.expected e.len).onDev (·.count (pageHis + 0x130))
        (e.heat ≠ prog → exec (.proofCompare i) s = .next (s.withPart p)) ∧
        (e.heat = prog → held = false →
          exec (.proofCompare i) s = .next (s.withPart (p.onDev (fun d => (d.count (pageHis + 0x138)).hisEvent 4 stOk 4 e.unit)))) ∧
        (e.heat = prog → held = true → q.proofMatches e = true → exec (.proofCompare i) s = .next (s.withPart q)) ∧
        (e.heat = prog → held = true → q.proofMatches e = false → exec (.proofCompare i) s = .next (s.withPart (q.onDev (fun d =>
          ((d.count (pageHis + 0x134)).hisEvent 1 stOk 4 e.unit).record e.unit 4 stOk pageHis (!stressed)))))))) ∧
  (∀ (s : State) (agent : Agent), let d := s.part.dev
    let a := d.get64 (pageHis + 0x11C) % 2 ^ 40
    let n := d.get (pageHis + 0x128)
    let good := d.planRuns = false ∧ d.work.dump = none ∧ 1 ≤ n ∧ n ≤ 4096 ∧ sramBase ≤ a ∧ a + 4096 * n + 32 ≤ sramBase + 0x4000000
    (isProcessor agent.toNat = false → exec (.dump agent) s = .next s) ∧
    (isProcessor agent.toNat = true → good →
      exec (.dump agent) s = .next (s.withDev (d.onWork (fun w => { w with dump := some (a, d.get (pageHis + 0x124), n) })))) ∧
    (isProcessor agent.toNat = true → ¬good → exec (.dump agent) s = .next (s.withDev (d.refuseCtrl pageHis 2 agent.toNat)))) ∧
  (∀ (s : State), let p := s.part
    (p.dev.work.dump = none → exec .dumpDone s = .next s) ∧
    (∀ a ofs n, p.dev.work.dump = some (a, ofs, n) →
      let block := p.dev.dumpBytes ofs n
      let q := p.put a (block ++ sha256 block) false (agentId p.dev.node 2 0)
      exec .dumpDone s = .next (s.withPart (q.onDev (fun d =>
        ((d.drawn.onWork (fun w => { w with dump := none })).extendMr 6 (sha256 block)).hisEvent 3 stOk 0 unitModule))))) ∧
  (∀ (s : State) (addr : BitVec 7) (off v : U32), let d := s.part.dev
    (d.managed = true → d.i2cMode = false → exec (.entdaa addr) s = .next (s.withDev
      ((((d.send (.i3cId (Config.mipiManufacturer.toNat * 2 ^ 33 + d.serial % 2 ^ 32) 0x06 0x00)).setBits (pageBrd + 0x104) 0 0 1).setBits
        (pageBrd + 0x104) 14 8 addr.toNat).brdEvent 0 0))) ∧
    (d.managed = false ∨ d.i2cMode = true → exec (.entdaa addr) s = .next s) ∧
    (d.answersBoard = false → exec (.i3cOffsetWrite off) s = .next s ∧ exec .i3cRegisterRead s = .next s ∧
      exec (.i3cRegisterWrite off v) s = .next s) ∧
    (d.answersBoard = true →
      exec (.i3cOffsetWrite off) s = .next (s.withDev (d.onWork (fun w => { w with i3cOffset := off.toNat }))) ∧
      (offDie d.work.i3cOffset ≠ 8 ∨ d.readReg d.work.i3cOffset = none → exec .i3cRegisterRead s = .next (s.withDev
        ((d.boardRefused d.work.i3cOffset).send (.i3cWord 0xFFFFFFFF)))) ∧
      (∀ x, offDie d.work.i3cOffset = 8 → d.readReg d.work.i3cOffset = some x → exec .i3cRegisterRead s = .next (s.withDev
        ((d.afterRead d.work.i3cOffset).send (.i3cWord x)))) ∧
      (let q := s.part.onDev (·.onWork (fun w => { w with i3cOffset := off.toNat }))
       (pageOf off.toNat = pageBrd → exec (.i3cRegisterWrite off v) s = .next (s.withPart (q.writeReg off.toNat v.toNat 4 q.dev.boardAgent))) ∧
       (pageOf off.toNat ≠ pageBrd → exec (.i3cRegisterWrite off v) s = .next (s.withPart (q.onDev (·.boardRefused off.toNat))))))) ∧
  (∀ (s : State) (tms tdi : Bool), let d := s.part.dev
    exec .trstN s = .next (s.withDev (d.onWork (fun w => { w with tap := 0 }))) ∧
    exec (.tapAccess tms tdi) s = .next (s.withDev (d.onWork (fun w => { w with tap := tapNext w.tap tms })))) ∧
  (∀ n, n < 16 → tapNext (tapNext (tapNext (tapNext (tapNext n true) true) true) true) true = 0)

/-- A register write of an agent that is no processor of the module changes nothing. For an agent that is none of the security,
housekeeping, management and bridge processors and the four die control processors, every command that writes a register
leaves the state as it was. (R536) -/
def Obligations.OnlyProcessorsWrite : Prop :=
  ∀ (c : Instr) (s : State) (a : Agent), isProcessor a.toNat = false → c.writer = some a → exec c s = .next s
end

