-- ==== Sys2Proof/Laws/State.lean ====
section
/-! SUPPORT. One lemma for every field of the state under every update of it: what an update leaves alone, and what it
sets. -/

namespace Sys2Proof.Machine

/-! ### The part and the state -/

@[simp] theorem Part.onDev_mem (p : Part) (f : Device → Device) : (p.onDev f).mem = p.mem := rfl
@[simp] theorem Part.onDev_dev (p : Part) (f : Device → Device) : (p.onDev f).dev = f p.dev := rfl
@[simp] theorem Part.onMem_mem (p : Part) (f : Memory → Memory) : (p.onMem f).mem = f p.mem := rfl
@[simp] theorem Part.onMem_dev (p : Part) (f : Memory → Memory) : (p.onMem f).dev = p.dev := rfl

/-- A command over the module answers a next state, with the queue as it was. -/
@[simp] theorem State.onPart_eq (s : State) (f : Part → Part) : s.onPart f = .next { s with part := f s.part } := rfl
@[simp] theorem State.onDev_eq (s : State) (f : Device → Device) :
    s.onDev f = .next { s with part := { s.part with dev := f s.part.dev } } := rfl
@[simp] theorem State.idle_pending (s : State) : s.idle.pending = s.pending := rfl
@[simp] theorem State.idle_mem (s : State) : s.idle.part.mem = s.part.mem := rfl
@[simp] theorem State.idle_dev (s : State) : s.idle.part.dev = s.part.dev.elapse 1 := rfl

/-! ### Device.set -/

@[simp] theorem Device.set_ticks (d : Device) (off v : Nat) : (d.set off v).ticks = d.ticks := rfl
@[simp] theorem Device.set_hist (d : Device) (off v : Nat) : (d.set off v).hist = d.hist := rfl
@[simp] theorem Device.set_sync (d : Device) (off v : Nat) : (d.set off v).sync = d.sync := rfl
@[simp] theorem Device.set_anvils (d : Device) (off v : Nat) : (d.set off v).anvils = d.anvils := rfl
@[simp] theorem Device.set_cores (d : Device) (off v : Nat) : (d.set off v).cores = d.cores := rfl
@[simp] theorem Device.set_transfers (d : Device) (off v : Nat) : (d.set off v).transfers = d.transfers := rfl
@[simp] theorem Device.set_deferred (d : Device) (off v : Nat) : (d.set off v).deferred = d.deferred := rfl
@[simp] theorem Device.set_replayAsked (d : Device) (off v : Nat) : (d.set off v).replayAsked = d.replayAsked := rfl
@[simp] theorem Device.set_heat (d : Device) (off v : Nat) : (d.set off v).heat = d.heat := rfl
@[simp] theorem Device.set_power (d : Device) (off v : Nat) : (d.set off v).power = d.power := rfl
@[simp] theorem Device.set_fabric (d : Device) (off v : Nat) : (d.set off v).fabric = d.fabric := rfl
@[simp] theorem Device.set_mesh (d : Device) (off v : Nat) : (d.set off v).mesh = d.mesh := rfl
@[simp] theorem Device.set_serving (d : Device) (off v : Nat) : (d.set off v).serving = d.serving := rfl
@[simp] theorem Device.set_sec (d : Device) (off v : Nat) : (d.set off v).sec = d.sec := rfl
@[simp] theorem Device.set_commits (d : Device) (off v : Nat) : (d.set off v).commits = d.commits := rfl
@[simp] theorem Device.set_mems (d : Device) (off v : Nat) : (d.set off v).mems = d.mems := rfl
@[simp] theorem Device.set_billet (d : Device) (off v : Nat) : (d.set off v).billet = d.billet := rfl
@[simp] theorem Device.set_hk (d : Device) (off v : Nat) : (d.set off v).hk = d.hk := rfl
@[simp] theorem Device.set_rom (d : Device) (off v : Nat) : (d.set off v).rom = d.rom := rfl
@[simp] theorem Device.set_work (d : Device) (off v : Nat) : (d.set off v).work = d.work := rfl
@[simp] theorem Device.set_bht (d : Device) (off v : Nat) : (d.set off v).bht = d.bht := rfl
@[simp] theorem Device.set_sent (d : Device) (off v : Nat) : (d.set off v).sent = d.sent := rfl
@[simp] theorem Device.set_free (d : Device) (off v : Nat) : (d.set off v).free = d.free := rfl
@[simp] theorem Device.set_regs (d : Device) (off v : Nat) : (d.set off v).regs = smapSet d.regs off (BitVec.ofNat 32 v) := rfl

/-! ### Device.set64 -/

@[simp] theorem Device.set64_ticks (d : Device) (off v : Nat) : (d.set64 off v).ticks = d.ticks := rfl
@[simp] theorem Device.set64_hist (d : Device) (off v : Nat) : (d.set64 off v).hist = d.hist := rfl
@[simp] theorem Device.set64_sync (d : Device) (off v : Nat) : (d.set64 off v).sync = d.sync := rfl
@[simp] theorem Device.set64_anvils (d : Device) (off v : Nat) : (d.set64 off v).anvils = d.anvils := rfl
@[simp] theorem Device.set64_cores (d : Device) (off v : Nat) : (d.set64 off v).cores = d.cores := rfl
@[simp] theorem Device.set64_transfers (d : Device) (off v : Nat) : (d.set64 off v).transfers = d.transfers := rfl
@[simp] theorem Device.set64_deferred (d : Device) (off v : Nat) : (d.set64 off v).deferred = d.deferred := rfl
@[simp] theorem Device.set64_replayAsked (d : Device) (off v : Nat) : (d.set64 off v).replayAsked = d.replayAsked := rfl
@[simp] theorem Device.set64_heat (d : Device) (off v : Nat) : (d.set64 off v).heat = d.heat := rfl
@[simp] theorem Device.set64_power (d : Device) (off v : Nat) : (d.set64 off v).power = d.power := rfl
@[simp] theorem Device.set64_fabric (d : Device) (off v : Nat) : (d.set64 off v).fabric = d.fabric := rfl
@[simp] theorem Device.set64_mesh (d : Device) (off v : Nat) : (d.set64 off v).mesh = d.mesh := rfl
@[simp] theorem Device.set64_serving (d : Device) (off v : Nat) : (d.set64 off v).serving = d.serving := rfl
@[simp] theorem Device.set64_sec (d : Device) (off v : Nat) : (d.set64 off v).sec = d.sec := rfl
@[simp] theorem Device.set64_commits (d : Device) (off v : Nat) : (d.set64 off v).commits = d.commits := rfl
@[simp] theorem Device.set64_mems (d : Device) (off v : Nat) : (d.set64 off v).mems = d.mems := rfl
@[simp] theorem Device.set64_billet (d : Device) (off v : Nat) : (d.set64 off v).billet = d.billet := rfl
@[simp] theorem Device.set64_hk (d : Device) (off v : Nat) : (d.set64 off v).hk = d.hk := rfl
@[simp] theorem Device.set64_rom (d : Device) (off v : Nat) : (d.set64 off v).rom = d.rom := rfl
@[simp] theorem Device.set64_work (d : Device) (off v : Nat) : (d.set64 off v).work = d.work := rfl
@[simp] theorem Device.set64_bht (d : Device) (off v : Nat) : (d.set64 off v).bht = d.bht := rfl
@[simp] theorem Device.set64_sent (d : Device) (off v : Nat) : (d.set64 off v).sent = d.sent := rfl
@[simp] theorem Device.set64_free (d : Device) (off v : Nat) : (d.set64 off v).free = d.free := rfl

/-! ### Device.setBits -/

@[simp] theorem Device.setBits_ticks (d : Device) (off hi lo v : Nat) : (d.setBits off hi lo v).ticks = d.ticks := rfl
@[simp] theorem Device.setBits_hist (d : Device) (off hi lo v : Nat) : (d.setBits off hi lo v).hist = d.hist := rfl
@[simp] theorem Device.setBits_sync (d : Device) (off hi lo v : Nat) : (d.setBits off hi lo v).sync = d.sync := rfl
@[simp] theorem Device.setBits_anvils (d : Device) (off hi lo v : Nat) : (d.setBits off hi lo v).anvils = d.anvils := rfl
@[simp] theorem Device.setBits_cores (d : Device) (off hi lo v : Nat) : (d.setBits off hi lo v).cores = d.cores := rfl
@[simp] theorem Device.setBits_transfers (d : Device) (off hi lo v : Nat) : (d.setBits off hi lo v).transfers = d.transfers := rfl
@[simp] theorem Device.setBits_deferred (d : Device) (off hi lo v : Nat) : (d.setBits off hi lo v).deferred = d.deferred := rfl
@[simp] theorem Device.setBits_replayAsked (d : Device) (off hi lo v : Nat) :
    (d.setBits off hi lo v).replayAsked = d.replayAsked := rfl
@[simp] theorem Device.setBits_heat (d : Device) (off hi lo v : Nat) : (d.setBits off hi lo v).heat = d.heat := rfl
@[simp] theorem Device.setBits_power (d : Device) (off hi lo v : Nat) : (d.setBits off hi lo v).power = d.power := rfl
@[simp] theorem Device.setBits_fabric (d : Device) (off hi lo v : Nat) : (d.setBits off hi lo v).fabric = d.fabric := rfl
@[simp] theorem Device.setBits_mesh (d : Device) (off hi lo v : Nat) : (d.setBits off hi lo v).mesh = d.mesh := rfl
@[simp] theorem Device.setBits_serving (d : Device) (off hi lo v : Nat) : (d.setBits off hi lo v).serving = d.serving := rfl
@[simp] theorem Device.setBits_sec (d : Device) (off hi lo v : Nat) : (d.setBits off hi lo v).sec = d.sec := rfl
@[simp] theorem Device.setBits_commits (d : Device) (off hi lo v : Nat) : (d.setBits off hi lo v).commits = d.commits := rfl
@[simp] theorem Device.setBits_mems (d : Device) (off hi lo v : Nat) : (d.setBits off hi lo v).mems = d.mems := rfl
@[simp] theorem Device.setBits_billet (d : Device) (off hi lo v : Nat) : (d.setBits off hi lo v).billet = d.billet := rfl
@[simp] theorem Device.setBits_hk (d : Device) (off hi lo v : Nat) : (d.setBits off hi lo v).hk = d.hk := rfl
@[simp] theorem Device.setBits_rom (d : Device) (off hi lo v : Nat) : (d.setBits off hi lo v).rom = d.rom := rfl
@[simp] theorem Device.setBits_work (d : Device) (off hi lo v : Nat) : (d.setBits off hi lo v).work = d.work := rfl
@[simp] theorem Device.setBits_bht (d : Device) (off hi lo v : Nat) : (d.setBits off hi lo v).bht = d.bht := rfl
@[simp] theorem Device.setBits_sent (d : Device) (off hi lo v : Nat) : (d.setBits off hi lo v).sent = d.sent := rfl
@[simp] theorem Device.setBits_free (d : Device) (off hi lo v : Nat) : (d.setBits off hi lo v).free = d.free := rfl

/-! ### Device.count -/

@[simp] theorem Device.count_ticks (d : Device) (off n : Nat) : (d.count off n).ticks = d.ticks := rfl
@[simp] theorem Device.count_hist (d : Device) (off n : Nat) : (d.count off n).hist = d.hist := rfl
@[simp] theorem Device.count_sync (d : Device) (off n : Nat) : (d.count off n).sync = d.sync := rfl
@[simp] theorem Device.count_anvils (d : Device) (off n : Nat) : (d.count off n).anvils = d.anvils := rfl
@[simp] theorem Device.count_cores (d : Device) (off n : Nat) : (d.count off n).cores = d.cores := rfl
@[simp] theorem Device.count_transfers (d : Device) (off n : Nat) : (d.count off n).transfers = d.transfers := rfl
@[simp] theorem Device.count_deferred (d : Device) (off n : Nat) : (d.count off n).deferred = d.deferred := rfl
@[simp] theorem Device.count_replayAsked (d : Device) (off n : Nat) : (d.count off n).replayAsked = d.replayAsked := rfl
@[simp] theorem Device.count_heat (d : Device) (off n : Nat) : (d.count off n).heat = d.heat := rfl
@[simp] theorem Device.count_power (d : Device) (off n : Nat) : (d.count off n).power = d.power := rfl
@[simp] theorem Device.count_fabric (d : Device) (off n : Nat) : (d.count off n).fabric = d.fabric := rfl
@[simp] theorem Device.count_mesh (d : Device) (off n : Nat) : (d.count off n).mesh = d.mesh := rfl
@[simp] theorem Device.count_serving (d : Device) (off n : Nat) : (d.count off n).serving = d.serving := rfl
@[simp] theorem Device.count_sec (d : Device) (off n : Nat) : (d.count off n).sec = d.sec := rfl
@[simp] theorem Device.count_commits (d : Device) (off n : Nat) : (d.count off n).commits = d.commits := rfl
@[simp] theorem Device.count_mems (d : Device) (off n : Nat) : (d.count off n).mems = d.mems := rfl
@[simp] theorem Device.count_billet (d : Device) (off n : Nat) : (d.count off n).billet = d.billet := rfl
@[simp] theorem Device.count_hk (d : Device) (off n : Nat) : (d.count off n).hk = d.hk := rfl
@[simp] theorem Device.count_rom (d : Device) (off n : Nat) : (d.count off n).rom = d.rom := rfl
@[simp] theorem Device.count_work (d : Device) (off n : Nat) : (d.count off n).work = d.work := rfl
@[simp] theorem Device.count_bht (d : Device) (off n : Nat) : (d.count off n).bht = d.bht := rfl
@[simp] theorem Device.count_sent (d : Device) (off n : Nat) : (d.count off n).sent = d.sent := rfl
@[simp] theorem Device.count_free (d : Device) (off n : Nat) : (d.count off n).free = d.free := rfl

/-! ### Device.count64 -/

@[simp] theorem Device.count64_ticks (d : Device) (off n : Nat) : (d.count64 off n).ticks = d.ticks := rfl
@[simp] theorem Device.count64_hist (d : Device) (off n : Nat) : (d.count64 off n).hist = d.hist := rfl
@[simp] theorem Device.count64_sync (d : Device) (off n : Nat) : (d.count64 off n).sync = d.sync := rfl
@[simp] theorem Device.count64_anvils (d : Device) (off n : Nat) : (d.count64 off n).anvils = d.anvils := rfl
@[simp] theorem Device.count64_cores (d : Device) (off n : Nat) : (d.count64 off n).cores = d.cores := rfl
@[simp] theorem Device.count64_transfers (d : Device) (off n : Nat) : (d.count64 off n).transfers = d.transfers := rfl
@[simp] theorem Device.count64_deferred (d : Device) (off n : Nat) : (d.count64 off n).deferred = d.deferred := rfl
@[simp] theorem Device.count64_replayAsked (d : Device) (off n : Nat) : (d.count64 off n).replayAsked = d.replayAsked := rfl
@[simp] theorem Device.count64_heat (d : Device) (off n : Nat) : (d.count64 off n).heat = d.heat := rfl
@[simp] theorem Device.count64_power (d : Device) (off n : Nat) : (d.count64 off n).power = d.power := rfl
@[simp] theorem Device.count64_fabric (d : Device) (off n : Nat) : (d.count64 off n).fabric = d.fabric := rfl
@[simp] theorem Device.count64_mesh (d : Device) (off n : Nat) : (d.count64 off n).mesh = d.mesh := rfl
@[simp] theorem Device.count64_serving (d : Device) (off n : Nat) : (d.count64 off n).serving = d.serving := rfl
@[simp] theorem Device.count64_sec (d : Device) (off n : Nat) : (d.count64 off n).sec = d.sec := rfl
@[simp] theorem Device.count64_commits (d : Device) (off n : Nat) : (d.count64 off n).commits = d.commits := rfl
@[simp] theorem Device.count64_mems (d : Device) (off n : Nat) : (d.count64 off n).mems = d.mems := rfl
@[simp] theorem Device.count64_billet (d : Device) (off n : Nat) : (d.count64 off n).billet = d.billet := rfl
@[simp] theorem Device.count64_hk (d : Device) (off n : Nat) : (d.count64 off n).hk = d.hk := rfl
@[simp] theorem Device.count64_rom (d : Device) (off n : Nat) : (d.count64 off n).rom = d.rom := rfl
@[simp] theorem Device.count64_work (d : Device) (off n : Nat) : (d.count64 off n).work = d.work := rfl
@[simp] theorem Device.count64_bht (d : Device) (off n : Nat) : (d.count64 off n).bht = d.bht := rfl
@[simp] theorem Device.count64_sent (d : Device) (off n : Nat) : (d.count64 off n).sent = d.sent := rfl
@[simp] theorem Device.count64_free (d : Device) (off n : Nat) : (d.count64 off n).free = d.free := rfl

/-! ### Device.resetRange -/

@[simp] theorem Device.resetRange_ticks (d : Device) (lo hi : Nat) : (d.resetRange lo hi).ticks = d.ticks := rfl
@[simp] theorem Device.resetRange_hist (d : Device) (lo hi : Nat) : (d.resetRange lo hi).hist = d.hist := rfl
@[simp] theorem Device.resetRange_sync (d : Device) (lo hi : Nat) : (d.resetRange lo hi).sync = d.sync := rfl
@[simp] theorem Device.resetRange_anvils (d : Device) (lo hi : Nat) : (d.resetRange lo hi).anvils = d.anvils := rfl
@[simp] theorem Device.resetRange_cores (d : Device) (lo hi : Nat) : (d.resetRange lo hi).cores = d.cores := rfl
@[simp] theorem Device.resetRange_transfers (d : Device) (lo hi : Nat) : (d.resetRange lo hi).transfers = d.transfers := rfl
@[simp] theorem Device.resetRange_deferred (d : Device) (lo hi : Nat) : (d.resetRange lo hi).deferred = d.deferred := rfl
@[simp] theorem Device.resetRange_replayAsked (d : Device) (lo hi : Nat) : (d.resetRange lo hi).replayAsked = d.replayAsked := rfl
@[simp] theorem Device.resetRange_heat (d : Device) (lo hi : Nat) : (d.resetRange lo hi).heat = d.heat := rfl
@[simp] theorem Device.resetRange_power (d : Device) (lo hi : Nat) : (d.resetRange lo hi).power = d.power := rfl
@[simp] theorem Device.resetRange_fabric (d : Device) (lo hi : Nat) : (d.resetRange lo hi).fabric = d.fabric := rfl
@[simp] theorem Device.resetRange_mesh (d : Device) (lo hi : Nat) : (d.resetRange lo hi).mesh = d.mesh := rfl
@[simp] theorem Device.resetRange_serving (d : Device) (lo hi : Nat) : (d.resetRange lo hi).serving = d.serving := rfl
@[simp] theorem Device.resetRange_sec (d : Device) (lo hi : Nat) : (d.resetRange lo hi).sec = d.sec := rfl
@[simp] theorem Device.resetRange_commits (d : Device) (lo hi : Nat) : (d.resetRange lo hi).commits = d.commits := rfl
@[simp] theorem Device.resetRange_mems (d : Device) (lo hi : Nat) : (d.resetRange lo hi).mems = d.mems := rfl
@[simp] theorem Device.resetRange_billet (d : Device) (lo hi : Nat) : (d.resetRange lo hi).billet = d.billet := rfl
@[simp] theorem Device.resetRange_hk (d : Device) (lo hi : Nat) : (d.resetRange lo hi).hk = d.hk := rfl
@[simp] theorem Device.resetRange_rom (d : Device) (lo hi : Nat) : (d.resetRange lo hi).rom = d.rom := rfl
@[simp] theorem Device.resetRange_work (d : Device) (lo hi : Nat) : (d.resetRange lo hi).work = d.work := rfl
@[simp] theorem Device.resetRange_bht (d : Device) (lo hi : Nat) : (d.resetRange lo hi).bht = d.bht := rfl
@[simp] theorem Device.resetRange_sent (d : Device) (lo hi : Nat) : (d.resetRange lo hi).sent = d.sent := rfl
@[simp] theorem Device.resetRange_free (d : Device) (lo hi : Nat) : (d.resetRange lo hi).free = d.free := rfl

/-! ### Device.elapse -/

@[simp] theorem Device.elapse_regs (d : Device) (n : Nat) : (d.elapse n).regs = d.regs := rfl
@[simp] theorem Device.elapse_sync (d : Device) (n : Nat) : (d.elapse n).sync = d.sync := rfl
@[simp] theorem Device.elapse_anvils (d : Device) (n : Nat) : (d.elapse n).anvils = d.anvils := rfl
@[simp] theorem Device.elapse_cores (d : Device) (n : Nat) : (d.elapse n).cores = d.cores := rfl
@[simp] theorem Device.elapse_transfers (d : Device) (n : Nat) : (d.elapse n).transfers = d.transfers := rfl
@[simp] theorem Device.elapse_deferred (d : Device) (n : Nat) : (d.elapse n).deferred = d.deferred := rfl
@[simp] theorem Device.elapse_replayAsked (d : Device) (n : Nat) : (d.elapse n).replayAsked = d.replayAsked := rfl
@[simp] theorem Device.elapse_heat (d : Device) (n : Nat) : (d.elapse n).heat = d.heat := rfl
@[simp] theorem Device.elapse_power (d : Device) (n : Nat) : (d.elapse n).power = d.power := rfl
@[simp] theorem Device.elapse_fabric (d : Device) (n : Nat) : (d.elapse n).fabric = d.fabric := rfl
@[simp] theorem Device.elapse_mesh (d : Device) (n : Nat) : (d.elapse n).mesh = d.mesh := rfl
@[simp] theorem Device.elapse_serving (d : Device) (n : Nat) : (d.elapse n).serving = d.serving := rfl
@[simp] theorem Device.elapse_sec (d : Device) (n : Nat) : (d.elapse n).sec = d.sec := rfl
@[simp] theorem Device.elapse_commits (d : Device) (n : Nat) : (d.elapse n).commits = d.commits := rfl
@[simp] theorem Device.elapse_mems (d : Device) (n : Nat) : (d.elapse n).mems = d.mems := rfl
@[simp] theorem Device.elapse_billet (d : Device) (n : Nat) : (d.elapse n).billet = d.billet := rfl
@[simp] theorem Device.elapse_hk (d : Device) (n : Nat) : (d.elapse n).hk = d.hk := rfl
@[simp] theorem Device.elapse_rom (d : Device) (n : Nat) : (d.elapse n).rom = d.rom := rfl
@[simp] theorem Device.elapse_work (d : Device) (n : Nat) : (d.elapse n).work = d.work := rfl
@[simp] theorem Device.elapse_bht (d : Device) (n : Nat) : (d.elapse n).bht = d.bht := rfl
@[simp] theorem Device.elapse_sent (d : Device) (n : Nat) : (d.elapse n).sent = d.sent := rfl
@[simp] theorem Device.elapse_free (d : Device) (n : Nat) : (d.elapse n).free = d.free := rfl

/-! ### Device.reach -/

@[simp] theorem Device.reach_regs (d : Device) (t : Nat) : (d.reach t).regs = d.regs := rfl
@[simp] theorem Device.reach_sync (d : Device) (t : Nat) : (d.reach t).sync = d.sync := rfl
@[simp] theorem Device.reach_anvils (d : Device) (t : Nat) : (d.reach t).anvils = d.anvils := rfl
@[simp] theorem Device.reach_cores (d : Device) (t : Nat) : (d.reach t).cores = d.cores := rfl
@[simp] theorem Device.reach_transfers (d : Device) (t : Nat) : (d.reach t).transfers = d.transfers := rfl
@[simp] theorem Device.reach_deferred (d : Device) (t : Nat) : (d.reach t).deferred = d.deferred := rfl
@[simp] theorem Device.reach_replayAsked (d : Device) (t : Nat) : (d.reach t).replayAsked = d.replayAsked := rfl
@[simp] theorem Device.reach_heat (d : Device) (t : Nat) : (d.reach t).heat = d.heat := rfl
@[simp] theorem Device.reach_power (d : Device) (t : Nat) : (d.reach t).power = d.power := rfl
@[simp] theorem Device.reach_fabric (d : Device) (t : Nat) : (d.reach t).fabric = d.fabric := rfl
@[simp] theorem Device.reach_mesh (d : Device) (t : Nat) : (d.reach t).mesh = d.mesh := rfl
@[simp] theorem Device.reach_serving (d : Device) (t : Nat) : (d.reach t).serving = d.serving := rfl
@[simp] theorem Device.reach_sec (d : Device) (t : Nat) : (d.reach t).sec = d.sec := rfl
@[simp] theorem Device.reach_commits (d : Device) (t : Nat) : (d.reach t).commits = d.commits := rfl
@[simp] theorem Device.reach_mems (d : Device) (t : Nat) : (d.reach t).mems = d.mems := rfl
@[simp] theorem Device.reach_billet (d : Device) (t : Nat) : (d.reach t).billet = d.billet := rfl
@[simp] theorem Device.reach_hk (d : Device) (t : Nat) : (d.reach t).hk = d.hk := rfl
@[simp] theorem Device.reach_rom (d : Device) (t : Nat) : (d.reach t).rom = d.rom := rfl
@[simp] theorem Device.reach_work (d : Device) (t : Nat) : (d.reach t).work = d.work := rfl
@[simp] theorem Device.reach_bht (d : Device) (t : Nat) : (d.reach t).bht = d.bht := rfl
@[simp] theorem Device.reach_sent (d : Device) (t : Nat) : (d.reach t).sent = d.sent := rfl
@[simp] theorem Device.reach_free (d : Device) (t : Nat) : (d.reach t).free = d.free := rfl

/-! ### Device.send -/

@[simp] theorem Device.send_regs (d : Device) (o : Out) : (d.send o).regs = d.regs := rfl
@[simp] theorem Device.send_ticks (d : Device) (o : Out) : (d.send o).ticks = d.ticks := rfl
@[simp] theorem Device.send_hist (d : Device) (o : Out) : (d.send o).hist = d.hist := rfl
@[simp] theorem Device.send_sync (d : Device) (o : Out) : (d.send o).sync = d.sync := rfl
@[simp] theorem Device.send_anvils (d : Device) (o : Out) : (d.send o).anvils = d.anvils := rfl
@[simp] theorem Device.send_cores (d : Device) (o : Out) : (d.send o).cores = d.cores := rfl
@[simp] theorem Device.send_transfers (d : Device) (o : Out) : (d.send o).transfers = d.transfers := rfl
@[simp] theorem Device.send_deferred (d : Device) (o : Out) : (d.send o).deferred = d.deferred := rfl
@[simp] theorem Device.send_replayAsked (d : Device) (o : Out) : (d.send o).replayAsked = d.replayAsked := rfl
@[simp] theorem Device.send_heat (d : Device) (o : Out) : (d.send o).heat = d.heat := rfl
@[simp] theorem Device.send_power (d : Device) (o : Out) : (d.send o).power = d.power := rfl
@[simp] theorem Device.send_fabric (d : Device) (o : Out) : (d.send o).fabric = d.fabric := rfl
@[simp] theorem Device.send_mesh (d : Device) (o : Out) : (d.send o).mesh = d.mesh := rfl
@[simp] theorem Device.send_serving (d : Device) (o : Out) : (d.send o).serving = d.serving := rfl
@[simp] theorem Device.send_sec (d : Device) (o : Out) : (d.send o).sec = d.sec := rfl
@[simp] theorem Device.send_commits (d : Device) (o : Out) : (d.send o).commits = d.commits := rfl
@[simp] theorem Device.send_mems (d : Device) (o : Out) : (d.send o).mems = d.mems := rfl
@[simp] theorem Device.send_billet (d : Device) (o : Out) : (d.send o).billet = d.billet := rfl
@[simp] theorem Device.send_hk (d : Device) (o : Out) : (d.send o).hk = d.hk := rfl
@[simp] theorem Device.send_rom (d : Device) (o : Out) : (d.send o).rom = d.rom := rfl
@[simp] theorem Device.send_work (d : Device) (o : Out) : (d.send o).work = d.work := rfl
@[simp] theorem Device.send_bht (d : Device) (o : Out) : (d.send o).bht = d.bht := rfl
@[simp] theorem Device.send_free (d : Device) (o : Out) : (d.send o).free = d.free := rfl
@[simp] theorem Device.send_sent (d : Device) (o : Out) : (d.send o).sent = d.sent ++ [o] := rfl

/-! ### Device.drawn -/

@[simp] theorem Device.drawn_regs (d : Device) : (d.drawn).regs = d.regs := rfl
@[simp] theorem Device.drawn_ticks (d : Device) : (d.drawn).ticks = d.ticks := rfl
@[simp] theorem Device.drawn_hist (d : Device) : (d.drawn).hist = d.hist := rfl
@[simp] theorem Device.drawn_sync (d : Device) : (d.drawn).sync = d.sync := rfl
@[simp] theorem Device.drawn_anvils (d : Device) : (d.drawn).anvils = d.anvils := rfl
@[simp] theorem Device.drawn_cores (d : Device) : (d.drawn).cores = d.cores := rfl
@[simp] theorem Device.drawn_transfers (d : Device) : (d.drawn).transfers = d.transfers := rfl
@[simp] theorem Device.drawn_deferred (d : Device) : (d.drawn).deferred = d.deferred := rfl
@[simp] theorem Device.drawn_replayAsked (d : Device) : (d.drawn).replayAsked = d.replayAsked := rfl
@[simp] theorem Device.drawn_heat (d : Device) : (d.drawn).heat = d.heat := rfl
@[simp] theorem Device.drawn_power (d : Device) : (d.drawn).power = d.power := rfl
@[simp] theorem Device.drawn_fabric (d : Device) : (d.drawn).fabric = d.fabric := rfl
@[simp] theorem Device.drawn_mesh (d : Device) : (d.drawn).mesh = d.mesh := rfl
@[simp] theorem Device.drawn_serving (d : Device) : (d.drawn).serving = d.serving := rfl
@[simp] theorem Device.drawn_sec (d : Device) : (d.drawn).sec = d.sec := rfl
@[simp] theorem Device.drawn_commits (d : Device) : (d.drawn).commits = d.commits := rfl
@[simp] theorem Device.drawn_mems (d : Device) : (d.drawn).mems = d.mems := rfl
@[simp] theorem Device.drawn_billet (d : Device) : (d.drawn).billet = d.billet := rfl
@[simp] theorem Device.drawn_hk (d : Device) : (d.drawn).hk = d.hk := rfl
@[simp] theorem Device.drawn_rom (d : Device) : (d.drawn).rom = d.rom := rfl
@[simp] theorem Device.drawn_work (d : Device) : (d.drawn).work = d.work := rfl
@[simp] theorem Device.drawn_bht (d : Device) : (d.drawn).bht = d.bht := rfl
@[simp] theorem Device.drawn_sent (d : Device) : (d.drawn).sent = d.sent := rfl
@[simp] theorem Device.drawn_free (d : Device) : d.drawn.free = d.free + 1 := rfl

/-! ### Device.setCore -/

@[simp] theorem Device.setCore_regs (d : Device) (c : Nat) (x : CoreState) : (d.setCore c x).regs = d.regs := rfl
@[simp] theorem Device.setCore_ticks (d : Device) (c : Nat) (x : CoreState) : (d.setCore c x).ticks = d.ticks := rfl
@[simp] theorem Device.setCore_hist (d : Device) (c : Nat) (x : CoreState) : (d.setCore c x).hist = d.hist := rfl
@[simp] theorem Device.setCore_sync (d : Device) (c : Nat) (x : CoreState) : (d.setCore c x).sync = d.sync := rfl
@[simp] theorem Device.setCore_anvils (d : Device) (c : Nat) (x : CoreState) : (d.setCore c x).anvils = d.anvils := rfl
@[simp] theorem Device.setCore_transfers (d : Device) (c : Nat) (x : CoreState) : (d.setCore c x).transfers = d.transfers := rfl
@[simp] theorem Device.setCore_deferred (d : Device) (c : Nat) (x : CoreState) : (d.setCore c x).deferred = d.deferred := rfl
@[simp] theorem Device.setCore_replayAsked (d : Device) (c : Nat) (x : CoreState) :
    (d.setCore c x).replayAsked = d.replayAsked := rfl
@[simp] theorem Device.setCore_heat (d : Device) (c : Nat) (x : CoreState) : (d.setCore c x).heat = d.heat := rfl
@[simp] theorem Device.setCore_power (d : Device) (c : Nat) (x : CoreState) : (d.setCore c x).power = d.power := rfl
@[simp] theorem Device.setCore_fabric (d : Device) (c : Nat) (x : CoreState) : (d.setCore c x).fabric = d.fabric := rfl
@[simp] theorem Device.setCore_mesh (d : Device) (c : Nat) (x : CoreState) : (d.setCore c x).mesh = d.mesh := rfl
@[simp] theorem Device.setCore_serving (d : Device) (c : Nat) (x : CoreState) : (d.setCore c x).serving = d.serving := rfl
@[simp] theorem Device.setCore_sec (d : Device) (c : Nat) (x : CoreState) : (d.setCore c x).sec = d.sec := rfl
@[simp] theorem Device.setCore_commits (d : Device) (c : Nat) (x : CoreState) : (d.setCore c x).commits = d.commits := rfl
@[simp] theorem Device.setCore_mems (d : Device) (c : Nat) (x : CoreState) : (d.setCore c x).mems = d.mems := rfl
@[simp] theorem Device.setCore_billet (d : Device) (c : Nat) (x : CoreState) : (d.setCore c x).billet = d.billet := rfl
@[simp] theorem Device.setCore_hk (d : Device) (c : Nat) (x : CoreState) : (d.setCore c x).hk = d.hk := rfl
@[simp] theorem Device.setCore_rom (d : Device) (c : Nat) (x : CoreState) : (d.setCore c x).rom = d.rom := rfl
@[simp] theorem Device.setCore_work (d : Device) (c : Nat) (x : CoreState) : (d.setCore c x).work = d.work := rfl
@[simp] theorem Device.setCore_bht (d : Device) (c : Nat) (x : CoreState) : (d.setCore c x).bht = d.bht := rfl
@[simp] theorem Device.setCore_sent (d : Device) (c : Nat) (x : CoreState) : (d.setCore c x).sent = d.sent := rfl
@[simp] theorem Device.setCore_free (d : Device) (c : Nat) (x : CoreState) : (d.setCore c x).free = d.free := rfl
@[simp] theorem Device.setCore_cores (d : Device) (c : Nat) (x : CoreState) : (d.setCore c x).cores = smapSet d.cores c x := rfl

/-! ### Device.onCore -/

@[simp] theorem Device.onCore_regs (d : Device) (c : Nat) (f : CoreState → CoreState) : (d.onCore c f).regs = d.regs := rfl
@[simp] theorem Device.onCore_ticks (d : Device) (c : Nat) (f : CoreState → CoreState) : (d.onCore c f).ticks = d.ticks := rfl
@[simp] theorem Device.onCore_hist (d : Device) (c : Nat) (f : CoreState → CoreState) : (d.onCore c f).hist = d.hist := rfl
@[simp] theorem Device.onCore_sync (d : Device) (c : Nat) (f : CoreState → CoreState) : (d.onCore c f).sync = d.sync := rfl
@[simp] theorem Device.onCore_anvils (d : Device) (c : Nat) (f : CoreState → CoreState) : (d.onCore c f).anvils = d.anvils := rfl
@[simp] theorem Device.onCore_transfers (d : Device) (c : Nat) (f : CoreState → CoreState) :
    (d.onCore c f).transfers = d.transfers := rfl
@[simp] theorem Device.onCore_deferred (d : Device) (c : Nat) (f : CoreState → CoreState) :
    (d.onCore c f).deferred = d.deferred := rfl
@[simp] theorem Device.onCore_replayAsked (d : Device) (c : Nat) (f : CoreState → CoreState) :
    (d.onCore c f).replayAsked = d.replayAsked := rfl
@[simp] theorem Device.onCore_heat (d : Device) (c : Nat) (f : CoreState → CoreState) : (d.onCore c f).heat = d.heat := rfl
@[simp] theorem Device.onCore_power (d : Device) (c : Nat) (f : CoreState → CoreState) : (d.onCore c f).power = d.power := rfl
@[simp] theorem Device.onCore_fabric (d : Device) (c : Nat) (f : CoreState → CoreState) : (d.onCore c f).fabric = d.fabric := rfl
@[simp] theorem Device.onCore_mesh (d : Device) (c : Nat) (f : CoreState → CoreState) : (d.onCore c f).mesh = d.mesh := rfl
@[simp] theorem Device.onCore_serving (d : Device) (c : Nat) (f : CoreState → CoreState) :
    (d.onCore c f).serving = d.serving := rfl
@[simp] theorem Device.onCore_sec (d : Device) (c : Nat) (f : CoreState → CoreState) : (d.onCore c f).sec = d.sec := rfl
@[simp] theorem Device.onCore_commits (d : Device) (c : Nat) (f : CoreState → CoreState) :
    (d.onCore c f).commits = d.commits := rfl
@[simp] theorem Device.onCore_mems (d : Device) (c : Nat) (f : CoreState → CoreState) : (d.onCore c f).mems = d.mems := rfl
@[simp] theorem Device.onCore_billet (d : Device) (c : Nat) (f : CoreState → CoreState) : (d.onCore c f).billet = d.billet := rfl
@[simp] theorem Device.onCore_hk (d : Device) (c : Nat) (f : CoreState → CoreState) : (d.onCore c f).hk = d.hk := rfl
@[simp] theorem Device.onCore_rom (d : Device) (c : Nat) (f : CoreState → CoreState) : (d.onCore c f).rom = d.rom := rfl
@[simp] theorem Device.onCore_work (d : Device) (c : Nat) (f : CoreState → CoreState) : (d.onCore c f).work = d.work := rfl
@[simp] theorem Device.onCore_bht (d : Device) (c : Nat) (f : CoreState → CoreState) : (d.onCore c f).bht = d.bht := rfl
@[simp] theorem Device.onCore_sent (d : Device) (c : Nat) (f : CoreState → CoreState) : (d.onCore c f).sent = d.sent := rfl
@[simp] theorem Device.onCore_free (d : Device) (c : Nat) (f : CoreState → CoreState) : (d.onCore c f).free = d.free := rfl

/-! ### Device.setAnvil -/

@[simp] theorem Device.setAnvil_regs (d : Device) (u : Nat) (x : AnvilState) : (d.setAnvil u x).regs = d.regs := rfl
@[simp] theorem Device.setAnvil_ticks (d : Device) (u : Nat) (x : AnvilState) : (d.setAnvil u x).ticks = d.ticks := rfl
@[simp] theorem Device.setAnvil_hist (d : Device) (u : Nat) (x : AnvilState) : (d.setAnvil u x).hist = d.hist := rfl
@[simp] theorem Device.setAnvil_sync (d : Device) (u : Nat) (x : AnvilState) : (d.setAnvil u x).sync = d.sync := rfl
@[simp] theorem Device.setAnvil_cores (d : Device) (u : Nat) (x : AnvilState) : (d.setAnvil u x).cores = d.cores := rfl
@[simp] theorem Device.setAnvil_transfers (d : Device) (u : Nat) (x : AnvilState) :
    (d.setAnvil u x).transfers = d.transfers := rfl
@[simp] theorem Device.setAnvil_deferred (d : Device) (u : Nat) (x : AnvilState) : (d.setAnvil u x).deferred = d.deferred := rfl
@[simp] theorem Device.setAnvil_replayAsked (d : Device) (u : Nat) (x : AnvilState) :
    (d.setAnvil u x).replayAsked = d.replayAsked := rfl
@[simp] theorem Device.setAnvil_heat (d : Device) (u : Nat) (x : AnvilState) : (d.setAnvil u x).heat = d.heat := rfl
@[simp] theorem Device.setAnvil_power (d : Device) (u : Nat) (x : AnvilState) : (d.setAnvil u x).power = d.power := rfl
@[simp] theorem Device.setAnvil_fabric (d : Device) (u : Nat) (x : AnvilState) : (d.setAnvil u x).fabric = d.fabric := rfl
@[simp] theorem Device.setAnvil_mesh (d : Device) (u : Nat) (x : AnvilState) : (d.setAnvil u x).mesh = d.mesh := rfl
@[simp] theorem Device.setAnvil_serving (d : Device) (u : Nat) (x : AnvilState) : (d.setAnvil u x).serving = d.serving := rfl
@[simp] theorem Device.setAnvil_sec (d : Device) (u : Nat) (x : AnvilState) : (d.setAnvil u x).sec = d.sec := rfl
@[simp] theorem Device.setAnvil_commits (d : Device) (u : Nat) (x : AnvilState) : (d.setAnvil u x).commits = d.commits := rfl
@[simp] theorem Device.setAnvil_mems (d : Device) (u : Nat) (x : AnvilState) : (d.setAnvil u x).mems = d.mems := rfl
@[simp] theorem Device.setAnvil_billet (d : Device) (u : Nat) (x : AnvilState) : (d.setAnvil u x).billet = d.billet := rfl
@[simp] theorem Device.setAnvil_hk (d : Device) (u : Nat) (x : AnvilState) : (d.setAnvil u x).hk = d.hk := rfl
@[simp] theorem Device.setAnvil_rom (d : Device) (u : Nat) (x : AnvilState) : (d.setAnvil u x).rom = d.rom := rfl
@[simp] theorem Device.setAnvil_work (d : Device) (u : Nat) (x : AnvilState) : (d.setAnvil u x).work = d.work := rfl
@[simp] theorem Device.setAnvil_bht (d : Device) (u : Nat) (x : AnvilState) : (d.setAnvil u x).bht = d.bht := rfl
@[simp] theorem Device.setAnvil_sent (d : Device) (u : Nat) (x : AnvilState) : (d.setAnvil u x).sent = d.sent := rfl
@[simp] theorem Device.setAnvil_free (d : Device) (u : Nat) (x : AnvilState) : (d.setAnvil u x).free = d.free := rfl
@[simp] theorem Device.setAnvil_anvils (d : Device) (u : Nat) (x : AnvilState) :
    (d.setAnvil u x).anvils = smapSet d.anvils u x := rfl

/-! ### Device.setFlash -/

@[simp] theorem Device.setFlash_regs (d : Device) (u : Nat) (x : AnvilFlash) : (d.setFlash u x).regs = d.regs := rfl
@[simp] theorem Device.setFlash_ticks (d : Device) (u : Nat) (x : AnvilFlash) : (d.setFlash u x).ticks = d.ticks := rfl
@[simp] theorem Device.setFlash_sync (d : Device) (u : Nat) (x : AnvilFlash) : (d.setFlash u x).sync = d.sync := rfl
@[simp] theorem Device.setFlash_anvils (d : Device) (u : Nat) (x : AnvilFlash) : (d.setFlash u x).anvils = d.anvils := rfl
@[simp] theorem Device.setFlash_cores (d : Device) (u : Nat) (x : AnvilFlash) : (d.setFlash u x).cores = d.cores := rfl
@[simp] theorem Device.setFlash_transfers (d : Device) (u : Nat) (x : AnvilFlash) :
    (d.setFlash u x).transfers = d.transfers := rfl
@[simp] theorem Device.setFlash_deferred (d : Device) (u : Nat) (x : AnvilFlash) : (d.setFlash u x).deferred = d.deferred := rfl
@[simp] theorem Device.setFlash_replayAsked (d : Device) (u : Nat) (x : AnvilFlash) :
    (d.setFlash u x).replayAsked = d.replayAsked := rfl
@[simp] theorem Device.setFlash_heat (d : Device) (u : Nat) (x : AnvilFlash) : (d.setFlash u x).heat = d.heat := rfl
@[simp] theorem Device.setFlash_power (d : Device) (u : Nat) (x : AnvilFlash) : (d.setFlash u x).power = d.power := rfl
@[simp] theorem Device.setFlash_fabric (d : Device) (u : Nat) (x : AnvilFlash) : (d.setFlash u x).fabric = d.fabric := rfl
@[simp] theorem Device.setFlash_mesh (d : Device) (u : Nat) (x : AnvilFlash) : (d.setFlash u x).mesh = d.mesh := rfl
@[simp] theorem Device.setFlash_serving (d : Device) (u : Nat) (x : AnvilFlash) : (d.setFlash u x).serving = d.serving := rfl
@[simp] theorem Device.setFlash_sec (d : Device) (u : Nat) (x : AnvilFlash) : (d.setFlash u x).sec = d.sec := rfl
@[simp] theorem Device.setFlash_commits (d : Device) (u : Nat) (x : AnvilFlash) : (d.setFlash u x).commits = d.commits := rfl
@[simp] theorem Device.setFlash_mems (d : Device) (u : Nat) (x : AnvilFlash) : (d.setFlash u x).mems = d.mems := rfl
@[simp] theorem Device.setFlash_billet (d : Device) (u : Nat) (x : AnvilFlash) : (d.setFlash u x).billet = d.billet := rfl
@[simp] theorem Device.setFlash_hk (d : Device) (u : Nat) (x : AnvilFlash) : (d.setFlash u x).hk = d.hk := rfl
@[simp] theorem Device.setFlash_rom (d : Device) (u : Nat) (x : AnvilFlash) : (d.setFlash u x).rom = d.rom := rfl
@[simp] theorem Device.setFlash_work (d : Device) (u : Nat) (x : AnvilFlash) : (d.setFlash u x).work = d.work := rfl
@[simp] theorem Device.setFlash_bht (d : Device) (u : Nat) (x : AnvilFlash) : (d.setFlash u x).bht = d.bht := rfl
@[simp] theorem Device.setFlash_sent (d : Device) (u : Nat) (x : AnvilFlash) : (d.setFlash u x).sent = d.sent := rfl
@[simp] theorem Device.setFlash_free (d : Device) (u : Nat) (x : AnvilFlash) : (d.setFlash u x).free = d.free := rfl

/-! ### Device.onHist -/

@[simp] theorem Device.onHist_regs (d : Device) (f : History → History) : (d.onHist f).regs = d.regs := rfl
@[simp] theorem Device.onHist_ticks (d : Device) (f : History → History) : (d.onHist f).ticks = d.ticks := rfl
@[simp] theorem Device.onHist_sync (d : Device) (f : History → History) : (d.onHist f).sync = d.sync := rfl
@[simp] theorem Device.onHist_anvils (d : Device) (f : History → History) : (d.onHist f).anvils = d.anvils := rfl
@[simp] theorem Device.onHist_cores (d : Device) (f : History → History) : (d.onHist f).cores = d.cores := rfl
@[simp] theorem Device.onHist_transfers (d : Device) (f : History → History) : (d.onHist f).transfers = d.transfers := rfl
@[simp] theorem Device.onHist_deferred (d : Device) (f : History → History) : (d.onHist f).deferred = d.deferred := rfl
@[simp] theorem Device.onHist_replayAsked (d : Device) (f : History → History) : (d.onHist f).replayAsked = d.replayAsked := rfl
@[simp] theorem Device.onHist_heat (d : Device) (f : History → History) : (d.onHist f).heat = d.heat := rfl
@[simp] theorem Device.onHist_power (d : Device) (f : History → History) : (d.onHist f).power = d.power := rfl
@[simp] theorem Device.onHist_fabric (d : Device) (f : History → History) : (d.onHist f).fabric = d.fabric := rfl
@[simp] theorem Device.onHist_mesh (d : Device) (f : History → History) : (d.onHist f).mesh = d.mesh := rfl
@[simp] theorem Device.onHist_serving (d : Device) (f : History → History) : (d.onHist f).serving = d.serving := rfl
@[simp] theorem Device.onHist_sec (d : Device) (f : History → History) : (d.onHist f).sec = d.sec := rfl
@[simp] theorem Device.onHist_commits (d : Device) (f : History → History) : (d.onHist f).commits = d.commits := rfl
@[simp] theorem Device.onHist_mems (d : Device) (f : History → History) : (d.onHist f).mems = d.mems := rfl
@[simp] theorem Device.onHist_billet (d : Device) (f : History → History) : (d.onHist f).billet = d.billet := rfl
@[simp] theorem Device.onHist_hk (d : Device) (f : History → History) : (d.onHist f).hk = d.hk := rfl
@[simp] theorem Device.onHist_rom (d : Device) (f : History → History) : (d.onHist f).rom = d.rom := rfl
@[simp] theorem Device.onHist_work (d : Device) (f : History → History) : (d.onHist f).work = d.work := rfl
@[simp] theorem Device.onHist_bht (d : Device) (f : History → History) : (d.onHist f).bht = d.bht := rfl
@[simp] theorem Device.onHist_sent (d : Device) (f : History → History) : (d.onHist f).sent = d.sent := rfl
@[simp] theorem Device.onHist_free (d : Device) (f : History → History) : (d.onHist f).free = d.free := rfl
@[simp] theorem Device.onHist_hist (d : Device) (f : History → History) : (d.onHist f).hist = f d.hist := rfl

/-! ### Device.onSync -/

@[simp] theorem Device.onSync_regs (d : Device) (f : SyncUnit → SyncUnit) : (d.onSync f).regs = d.regs := rfl
@[simp] theorem Device.onSync_ticks (d : Device) (f : SyncUnit → SyncUnit) : (d.onSync f).ticks = d.ticks := rfl
@[simp] theorem Device.onSync_hist (d : Device) (f : SyncUnit → SyncUnit) : (d.onSync f).hist = d.hist := rfl
@[simp] theorem Device.onSync_anvils (d : Device) (f : SyncUnit → SyncUnit) : (d.onSync f).anvils = d.anvils := rfl
@[simp] theorem Device.onSync_cores (d : Device) (f : SyncUnit → SyncUnit) : (d.onSync f).cores = d.cores := rfl
@[simp] theorem Device.onSync_transfers (d : Device) (f : SyncUnit → SyncUnit) : (d.onSync f).transfers = d.transfers := rfl
@[simp] theorem Device.onSync_deferred (d : Device) (f : SyncUnit → SyncUnit) : (d.onSync f).deferred = d.deferred := rfl
@[simp] theorem Device.onSync_replayAsked (d : Device) (f : SyncUnit → SyncUnit) : (d.onSync f).replayAsked = d.replayAsked := rfl
@[simp] theorem Device.onSync_heat (d : Device) (f : SyncUnit → SyncUnit) : (d.onSync f).heat = d.heat := rfl
@[simp] theorem Device.onSync_power (d : Device) (f : SyncUnit → SyncUnit) : (d.onSync f).power = d.power := rfl
@[simp] theorem Device.onSync_fabric (d : Device) (f : SyncUnit → SyncUnit) : (d.onSync f).fabric = d.fabric := rfl
@[simp] theorem Device.onSync_mesh (d : Device) (f : SyncUnit → SyncUnit) : (d.onSync f).mesh = d.mesh := rfl
@[simp] theorem Device.onSync_serving (d : Device) (f : SyncUnit → SyncUnit) : (d.onSync f).serving = d.serving := rfl
@[simp] theorem Device.onSync_sec (d : Device) (f : SyncUnit → SyncUnit) : (d.onSync f).sec = d.sec := rfl
@[simp] theorem Device.onSync_commits (d : Device) (f : SyncUnit → SyncUnit) : (d.onSync f).commits = d.commits := rfl
@[simp] theorem Device.onSync_mems (d : Device) (f : SyncUnit → SyncUnit) : (d.onSync f).mems = d.mems := rfl
@[simp] theorem Device.onSync_billet (d : Device) (f : SyncUnit → SyncUnit) : (d.onSync f).billet = d.billet := rfl
@[simp] theorem Device.onSync_hk (d : Device) (f : SyncUnit → SyncUnit) : (d.onSync f).hk = d.hk := rfl
@[simp] theorem Device.onSync_rom (d : Device) (f : SyncUnit → SyncUnit) : (d.onSync f).rom = d.rom := rfl
@[simp] theorem Device.onSync_work (d : Device) (f : SyncUnit → SyncUnit) : (d.onSync f).work = d.work := rfl
@[simp] theorem Device.onSync_bht (d : Device) (f : SyncUnit → SyncUnit) : (d.onSync f).bht = d.bht := rfl
@[simp] theorem Device.onSync_sent (d : Device) (f : SyncUnit → SyncUnit) : (d.onSync f).sent = d.sent := rfl
@[simp] theorem Device.onSync_free (d : Device) (f : SyncUnit → SyncUnit) : (d.onSync f).free = d.free := rfl
@[simp] theorem Device.onSync_sync (d : Device) (f : SyncUnit → SyncUnit) : (d.onSync f).sync = f d.sync := rfl

/-! ### Device.onHeat -/

@[simp] theorem Device.onHeat_regs (d : Device) (f : HeatCtl → HeatCtl) : (d.onHeat f).regs = d.regs := rfl
@[simp] theorem Device.onHeat_ticks (d : Device) (f : HeatCtl → HeatCtl) : (d.onHeat f).ticks = d.ticks := rfl
@[simp] theorem Device.onHeat_hist (d : Device) (f : HeatCtl → HeatCtl) : (d.onHeat f).hist = d.hist := rfl
@[simp] theorem Device.onHeat_sync (d : Device) (f : HeatCtl → HeatCtl) : (d.onHeat f).sync = d.sync := rfl
@[simp] theorem Device.onHeat_anvils (d : Device) (f : HeatCtl → HeatCtl) : (d.onHeat f).anvils = d.anvils := rfl
@[simp] theorem Device.onHeat_cores (d : Device) (f : HeatCtl → HeatCtl) : (d.onHeat f).cores = d.cores := rfl
@[simp] theorem Device.onHeat_transfers (d : Device) (f : HeatCtl → HeatCtl) : (d.onHeat f).transfers = d.transfers := rfl
@[simp] theorem Device.onHeat_deferred (d : Device) (f : HeatCtl → HeatCtl) : (d.onHeat f).deferred = d.deferred := rfl
@[simp] theorem Device.onHeat_replayAsked (d : Device) (f : HeatCtl → HeatCtl) : (d.onHeat f).replayAsked = d.replayAsked := rfl
@[simp] theorem Device.onHeat_power (d : Device) (f : HeatCtl → HeatCtl) : (d.onHeat f).power = d.power := rfl
@[simp] theorem Device.onHeat_fabric (d : Device) (f : HeatCtl → HeatCtl) : (d.onHeat f).fabric = d.fabric := rfl
@[simp] theorem Device.onHeat_mesh (d : Device) (f : HeatCtl → HeatCtl) : (d.onHeat f).mesh = d.mesh := rfl
@[simp] theorem Device.onHeat_serving (d : Device) (f : HeatCtl → HeatCtl) : (d.onHeat f).serving = d.serving := rfl
@[simp] theorem Device.onHeat_sec (d : Device) (f : HeatCtl → HeatCtl) : (d.onHeat f).sec = d.sec := rfl
@[simp] theorem Device.onHeat_commits (d : Device) (f : HeatCtl → HeatCtl) : (d.onHeat f).commits = d.commits := rfl
@[simp] theorem Device.onHeat_mems (d : Device) (f : HeatCtl → HeatCtl) : (d.onHeat f).mems = d.mems := rfl
@[simp] theorem Device.onHeat_billet (d : Device) (f : HeatCtl → HeatCtl) : (d.onHeat f).billet = d.billet := rfl
@[simp] theorem Device.onHeat_hk (d : Device) (f : HeatCtl → HeatCtl) : (d.onHeat f).hk = d.hk := rfl
@[simp] theorem Device.onHeat_rom (d : Device) (f : HeatCtl → HeatCtl) : (d.onHeat f).rom = d.rom := rfl
@[simp] theorem Device.onHeat_work (d : Device) (f : HeatCtl → HeatCtl) : (d.onHeat f).work = d.work := rfl
@[simp] theorem Device.onHeat_bht (d : Device) (f : HeatCtl → HeatCtl) : (d.onHeat f).bht = d.bht := rfl
@[simp] theorem Device.onHeat_sent (d : Device) (f : HeatCtl → HeatCtl) : (d.onHeat f).sent = d.sent := rfl
@[simp] theorem Device.onHeat_free (d : Device) (f : HeatCtl → HeatCtl) : (d.onHeat f).free = d.free := rfl
@[simp] theorem Device.onHeat_heat (d : Device) (f : HeatCtl → HeatCtl) : (d.onHeat f).heat = f d.heat := rfl

/-! ### Device.onPower -/

@[simp] theorem Device.onPower_regs (d : Device) (f : PowerCtl → PowerCtl) : (d.onPower f).regs = d.regs := rfl
@[simp] theorem Device.onPower_ticks (d : Device) (f : PowerCtl → PowerCtl) : (d.onPower f).ticks = d.ticks := rfl
@[simp] theorem Device.onPower_hist (d : Device) (f : PowerCtl → PowerCtl) : (d.onPower f).hist = d.hist := rfl
@[simp] theorem Device.onPower_sync (d : Device) (f : PowerCtl → PowerCtl) : (d.onPower f).sync = d.sync := rfl
@[simp] theorem Device.onPower_anvils (d : Device) (f : PowerCtl → PowerCtl) : (d.onPower f).anvils = d.anvils := rfl
@[simp] theorem Device.onPower_cores (d : Device) (f : PowerCtl → PowerCtl) : (d.onPower f).cores = d.cores := rfl
@[simp] theorem Device.onPower_transfers (d : Device) (f : PowerCtl → PowerCtl) : (d.onPower f).transfers = d.transfers := rfl
@[simp] theorem Device.onPower_deferred (d : Device) (f : PowerCtl → PowerCtl) : (d.onPower f).deferred = d.deferred := rfl
@[simp] theorem Device.onPower_replayAsked (d : Device) (f : PowerCtl → PowerCtl) :
    (d.onPower f).replayAsked = d.replayAsked := rfl
@[simp] theorem Device.onPower_heat (d : Device) (f : PowerCtl → PowerCtl) : (d.onPower f).heat = d.heat := rfl
@[simp] theorem Device.onPower_fabric (d : Device) (f : PowerCtl → PowerCtl) : (d.onPower f).fabric = d.fabric := rfl
@[simp] theorem Device.onPower_mesh (d : Device) (f : PowerCtl → PowerCtl) : (d.onPower f).mesh = d.mesh := rfl
@[simp] theorem Device.onPower_serving (d : Device) (f : PowerCtl → PowerCtl) : (d.onPower f).serving = d.serving := rfl
@[simp] theorem Device.onPower_sec (d : Device) (f : PowerCtl → PowerCtl) : (d.onPower f).sec = d.sec := rfl
@[simp] theorem Device.onPower_commits (d : Device) (f : PowerCtl → PowerCtl) : (d.onPower f).commits = d.commits := rfl
@[simp] theorem Device.onPower_mems (d : Device) (f : PowerCtl → PowerCtl) : (d.onPower f).mems = d.mems := rfl
@[simp] theorem Device.onPower_billet (d : Device) (f : PowerCtl → PowerCtl) : (d.onPower f).billet = d.billet := rfl
@[simp] theorem Device.onPower_hk (d : Device) (f : PowerCtl → PowerCtl) : (d.onPower f).hk = d.hk := rfl
@[simp] theorem Device.onPower_rom (d : Device) (f : PowerCtl → PowerCtl) : (d.onPower f).rom = d.rom := rfl
@[simp] theorem Device.onPower_work (d : Device) (f : PowerCtl → PowerCtl) : (d.onPower f).work = d.work := rfl
@[simp] theorem Device.onPower_bht (d : Device) (f : PowerCtl → PowerCtl) : (d.onPower f).bht = d.bht := rfl
@[simp] theorem Device.onPower_sent (d : Device) (f : PowerCtl → PowerCtl) : (d.onPower f).sent = d.sent := rfl
@[simp] theorem Device.onPower_free (d : Device) (f : PowerCtl → PowerCtl) : (d.onPower f).free = d.free := rfl
@[simp] theorem Device.onPower_power (d : Device) (f : PowerCtl → PowerCtl) : (d.onPower f).power = f d.power := rfl

/-! ### Device.onServing -/

@[simp] theorem Device.onServing_regs (d : Device) (f : Serving → Serving) : (d.onServing f).regs = d.regs := rfl
@[simp] theorem Device.onServing_ticks (d : Device) (f : Serving → Serving) : (d.onServing f).ticks = d.ticks := rfl
@[simp] theorem Device.onServing_hist (d : Device) (f : Serving → Serving) : (d.onServing f).hist = d.hist := rfl
@[simp] theorem Device.onServing_sync (d : Device) (f : Serving → Serving) : (d.onServing f).sync = d.sync := rfl
@[simp] theorem Device.onServing_anvils (d : Device) (f : Serving → Serving) : (d.onServing f).anvils = d.anvils := rfl
@[simp] theorem Device.onServing_cores (d : Device) (f : Serving → Serving) : (d.onServing f).cores = d.cores := rfl
@[simp] theorem Device.onServing_transfers (d : Device) (f : Serving → Serving) : (d.onServing f).transfers = d.transfers := rfl
@[simp] theorem Device.onServing_deferred (d : Device) (f : Serving → Serving) : (d.onServing f).deferred = d.deferred := rfl
@[simp] theorem Device.onServing_replayAsked (d : Device) (f : Serving → Serving) :
    (d.onServing f).replayAsked = d.replayAsked := rfl
@[simp] theorem Device.onServing_heat (d : Device) (f : Serving → Serving) : (d.onServing f).heat = d.heat := rfl
@[simp] theorem Device.onServing_power (d : Device) (f : Serving → Serving) : (d.onServing f).power = d.power := rfl
@[simp] theorem Device.onServing_fabric (d : Device) (f : Serving → Serving) : (d.onServing f).fabric = d.fabric := rfl
@[simp] theorem Device.onServing_mesh (d : Device) (f : Serving → Serving) : (d.onServing f).mesh = d.mesh := rfl
@[simp] theorem Device.onServing_sec (d : Device) (f : Serving → Serving) : (d.onServing f).sec = d.sec := rfl
@[simp] theorem Device.onServing_commits (d : Device) (f : Serving → Serving) : (d.onServing f).commits = d.commits := rfl
@[simp] theorem Device.onServing_mems (d : Device) (f : Serving → Serving) : (d.onServing f).mems = d.mems := rfl
@[simp] theorem Device.onServing_billet (d : Device) (f : Serving → Serving) : (d.onServing f).billet = d.billet := rfl
@[simp] theorem Device.onServing_hk (d : Device) (f : Serving → Serving) : (d.onServing f).hk = d.hk := rfl
@[simp] theorem Device.onServing_rom (d : Device) (f : Serving → Serving) : (d.onServing f).rom = d.rom := rfl
@[simp] theorem Device.onServing_work (d : Device) (f : Serving → Serving) : (d.onServing f).work = d.work := rfl
@[simp] theorem Device.onServing_bht (d : Device) (f : Serving → Serving) : (d.onServing f).bht = d.bht := rfl
@[simp] theorem Device.onServing_sent (d : Device) (f : Serving → Serving) : (d.onServing f).sent = d.sent := rfl
@[simp] theorem Device.onServing_free (d : Device) (f : Serving → Serving) : (d.onServing f).free = d.free := rfl
@[simp] theorem Device.onServing_serving (d : Device) (f : Serving → Serving) : (d.onServing f).serving = f d.serving := rfl

/-! ### Device.onCommits -/

@[simp] theorem Device.onCommits_regs (d : Device) (f : CommitCtl → CommitCtl) : (d.onCommits f).regs = d.regs := rfl
@[simp] theorem Device.onCommits_ticks (d : Device) (f : CommitCtl → CommitCtl) : (d.onCommits f).ticks = d.ticks := rfl
@[simp] theorem Device.onCommits_hist (d : Device) (f : CommitCtl → CommitCtl) : (d.onCommits f).hist = d.hist := rfl
@[simp] theorem Device.onCommits_sync (d : Device) (f : CommitCtl → CommitCtl) : (d.onCommits f).sync = d.sync := rfl
@[simp] theorem Device.onCommits_anvils (d : Device) (f : CommitCtl → CommitCtl) : (d.onCommits f).anvils = d.anvils := rfl
@[simp] theorem Device.onCommits_cores (d : Device) (f : CommitCtl → CommitCtl) : (d.onCommits f).cores = d.cores := rfl
@[simp] theorem Device.onCommits_transfers (d : Device) (f : CommitCtl → CommitCtl) :
    (d.onCommits f).transfers = d.transfers := rfl
@[simp] theorem Device.onCommits_deferred (d : Device) (f : CommitCtl → CommitCtl) : (d.onCommits f).deferred = d.deferred := rfl
@[simp] theorem Device.onCommits_replayAsked (d : Device) (f : CommitCtl → CommitCtl) :
    (d.onCommits f).replayAsked = d.replayAsked := rfl
@[simp] theorem Device.onCommits_heat (d : Device) (f : CommitCtl → CommitCtl) : (d.onCommits f).heat = d.heat := rfl
@[simp] theorem Device.onCommits_power (d : Device) (f : CommitCtl → CommitCtl) : (d.onCommits f).power = d.power := rfl
@[simp] theorem Device.onCommits_fabric (d : Device) (f : CommitCtl → CommitCtl) : (d.onCommits f).fabric = d.fabric := rfl
@[simp] theorem Device.onCommits_mesh (d : Device) (f : CommitCtl → CommitCtl) : (d.onCommits f).mesh = d.mesh := rfl
@[simp] theorem Device.onCommits_serving (d : Device) (f : CommitCtl → CommitCtl) : (d.onCommits f).serving = d.serving := rfl
@[simp] theorem Device.onCommits_sec (d : Device) (f : CommitCtl → CommitCtl) : (d.onCommits f).sec = d.sec := rfl
@[simp] theorem Device.onCommits_mems (d : Device) (f : CommitCtl → CommitCtl) : (d.onCommits f).mems = d.mems := rfl
@[simp] theorem Device.onCommits_billet (d : Device) (f : CommitCtl → CommitCtl) : (d.onCommits f).billet = d.billet := rfl
@[simp] theorem Device.onCommits_hk (d : Device) (f : CommitCtl → CommitCtl) : (d.onCommits f).hk = d.hk := rfl
@[simp] theorem Device.onCommits_rom (d : Device) (f : CommitCtl → CommitCtl) : (d.onCommits f).rom = d.rom := rfl
@[simp] theorem Device.onCommits_work (d : Device) (f : CommitCtl → CommitCtl) : (d.onCommits f).work = d.work := rfl
@[simp] theorem Device.onCommits_bht (d : Device) (f : CommitCtl → CommitCtl) : (d.onCommits f).bht = d.bht := rfl
@[simp] theorem Device.onCommits_sent (d : Device) (f : CommitCtl → CommitCtl) : (d.onCommits f).sent = d.sent := rfl
@[simp] theorem Device.onCommits_free (d : Device) (f : CommitCtl → CommitCtl) : (d.onCommits f).free = d.free := rfl
@[simp] theorem Device.onCommits_commits (d : Device) (f : CommitCtl → CommitCtl) : (d.onCommits f).commits = f d.commits := rfl

/-! ### Device.onMems -/

@[simp] theorem Device.onMems_regs (d : Device) (die : Nat) (f : MemCtl → MemCtl) : (d.onMems die f).regs = d.regs := rfl
@[simp] theorem Device.onMems_ticks (d : Device) (die : Nat) (f : MemCtl → MemCtl) : (d.onMems die f).ticks = d.ticks := rfl
@[simp] theorem Device.onMems_hist (d : Device) (die : Nat) (f : MemCtl → MemCtl) : (d.onMems die f).hist = d.hist := rfl
@[simp] theorem Device.onMems_sync (d : Device) (die : Nat) (f : MemCtl → MemCtl) : (d.onMems die f).sync = d.sync := rfl
@[simp] theorem Device.onMems_anvils (d : Device) (die : Nat) (f : MemCtl → MemCtl) : (d.onMems die f).anvils = d.anvils := rfl
@[simp] theorem Device.onMems_cores (d : Device) (die : Nat) (f : MemCtl → MemCtl) : (d.onMems die f).cores = d.cores := rfl
@[simp] theorem Device.onMems_transfers (d : Device) (die : Nat) (f : MemCtl → MemCtl) :
    (d.onMems die f).transfers = d.transfers := rfl
@[simp] theorem Device.onMems_deferred (d : Device) (die : Nat) (f : MemCtl → MemCtl) :
    (d.onMems die f).deferred = d.deferred := rfl
@[simp] theorem Device.onMems_replayAsked (d : Device) (die : Nat) (f : MemCtl → MemCtl) :
    (d.onMems die f).replayAsked = d.replayAsked := rfl
@[simp] theorem Device.onMems_heat (d : Device) (die : Nat) (f : MemCtl → MemCtl) : (d.onMems die f).heat = d.heat := rfl
@[simp] theorem Device.onMems_power (d : Device) (die : Nat) (f : MemCtl → MemCtl) : (d.onMems die f).power = d.power := rfl
@[simp] theorem Device.onMems_fabric (d : Device) (die : Nat) (f : MemCtl → MemCtl) : (d.onMems die f).fabric = d.fabric := rfl
@[simp] theorem Device.onMems_mesh (d : Device) (die : Nat) (f : MemCtl → MemCtl) : (d.onMems die f).mesh = d.mesh := rfl
@[simp] theorem Device.onMems_serving (d : Device) (die : Nat) (f : MemCtl → MemCtl) : (d.onMems die f).serving = d.serving := rfl
@[simp] theorem Device.onMems_sec (d : Device) (die : Nat) (f : MemCtl → MemCtl) : (d.onMems die f).sec = d.sec := rfl
@[simp] theorem Device.onMems_commits (d : Device) (die : Nat) (f : MemCtl → MemCtl) : (d.onMems die f).commits = d.commits := rfl
@[simp] theorem Device.onMems_billet (d : Device) (die : Nat) (f : MemCtl → MemCtl) : (d.onMems die f).billet = d.billet := rfl
@[simp] theorem Device.onMems_hk (d : Device) (die : Nat) (f : MemCtl → MemCtl) : (d.onMems die f).hk = d.hk := rfl
@[simp] theorem Device.onMems_rom (d : Device) (die : Nat) (f : MemCtl → MemCtl) : (d.onMems die f).rom = d.rom := rfl
@[simp] theorem Device.onMems_work (d : Device) (die : Nat) (f : MemCtl → MemCtl) : (d.onMems die f).work = d.work := rfl
@[simp] theorem Device.onMems_bht (d : Device) (die : Nat) (f : MemCtl → MemCtl) : (d.onMems die f).bht = d.bht := rfl
@[simp] theorem Device.onMems_sent (d : Device) (die : Nat) (f : MemCtl → MemCtl) : (d.onMems die f).sent = d.sent := rfl
@[simp] theorem Device.onMems_free (d : Device) (die : Nat) (f : MemCtl → MemCtl) : (d.onMems die f).free = d.free := rfl

/-! ### Device.onBillet -/

@[simp] theorem Device.onBillet_regs (d : Device) (f : BilletCtl → BilletCtl) : (d.onBillet f).regs = d.regs := rfl
@[simp] theorem Device.onBillet_ticks (d : Device) (f : BilletCtl → BilletCtl) : (d.onBillet f).ticks = d.ticks := rfl
@[simp] theorem Device.onBillet_hist (d : Device) (f : BilletCtl → BilletCtl) : (d.onBillet f).hist = d.hist := rfl
@[simp] theorem Device.onBillet_sync (d : Device) (f : BilletCtl → BilletCtl) : (d.onBillet f).sync = d.sync := rfl
@[simp] theorem Device.onBillet_anvils (d : Device) (f : BilletCtl → BilletCtl) : (d.onBillet f).anvils = d.anvils := rfl
@[simp] theorem Device.onBillet_cores (d : Device) (f : BilletCtl → BilletCtl) : (d.onBillet f).cores = d.cores := rfl
@[simp] theorem Device.onBillet_transfers (d : Device) (f : BilletCtl → BilletCtl) : (d.onBillet f).transfers = d.transfers := rfl
@[simp] theorem Device.onBillet_deferred (d : Device) (f : BilletCtl → BilletCtl) : (d.onBillet f).deferred = d.deferred := rfl
@[simp] theorem Device.onBillet_replayAsked (d : Device) (f : BilletCtl → BilletCtl) :
    (d.onBillet f).replayAsked = d.replayAsked := rfl
@[simp] theorem Device.onBillet_heat (d : Device) (f : BilletCtl → BilletCtl) : (d.onBillet f).heat = d.heat := rfl
@[simp] theorem Device.onBillet_power (d : Device) (f : BilletCtl → BilletCtl) : (d.onBillet f).power = d.power := rfl
@[simp] theorem Device.onBillet_fabric (d : Device) (f : BilletCtl → BilletCtl) : (d.onBillet f).fabric = d.fabric := rfl
@[simp] theorem Device.onBillet_mesh (d : Device) (f : BilletCtl → BilletCtl) : (d.onBillet f).mesh = d.mesh := rfl
@[simp] theorem Device.onBillet_serving (d : Device) (f : BilletCtl → BilletCtl) : (d.onBillet f).serving = d.serving := rfl
@[simp] theorem Device.onBillet_sec (d : Device) (f : BilletCtl → BilletCtl) : (d.onBillet f).sec = d.sec := rfl
@[simp] theorem Device.onBillet_commits (d : Device) (f : BilletCtl → BilletCtl) : (d.onBillet f).commits = d.commits := rfl
@[simp] theorem Device.onBillet_mems (d : Device) (f : BilletCtl → BilletCtl) : (d.onBillet f).mems = d.mems := rfl
@[simp] theorem Device.onBillet_hk (d : Device) (f : BilletCtl → BilletCtl) : (d.onBillet f).hk = d.hk := rfl
@[simp] theorem Device.onBillet_rom (d : Device) (f : BilletCtl → BilletCtl) : (d.onBillet f).rom = d.rom := rfl
@[simp] theorem Device.onBillet_work (d : Device) (f : BilletCtl → BilletCtl) : (d.onBillet f).work = d.work := rfl
@[simp] theorem Device.onBillet_bht (d : Device) (f : BilletCtl → BilletCtl) : (d.onBillet f).bht = d.bht := rfl
@[simp] theorem Device.onBillet_sent (d : Device) (f : BilletCtl → BilletCtl) : (d.onBillet f).sent = d.sent := rfl
@[simp] theorem Device.onBillet_free (d : Device) (f : BilletCtl → BilletCtl) : (d.onBillet f).free = d.free := rfl
@[simp] theorem Device.onBillet_billet (d : Device) (f : BilletCtl → BilletCtl) : (d.onBillet f).billet = f d.billet := rfl

/-! ### Device.onHk -/

@[simp] theorem Device.onHk_regs (d : Device) (f : Housekeeping → Housekeeping) : (d.onHk f).regs = d.regs := rfl
@[simp] theorem Device.onHk_ticks (d : Device) (f : Housekeeping → Housekeeping) : (d.onHk f).ticks = d.ticks := rfl
@[simp] theorem Device.onHk_hist (d : Device) (f : Housekeeping → Housekeeping) : (d.onHk f).hist = d.hist := rfl
@[simp] theorem Device.onHk_sync (d : Device) (f : Housekeeping → Housekeeping) : (d.onHk f).sync = d.sync := rfl
@[simp] theorem Device.onHk_anvils (d : Device) (f : Housekeeping → Housekeeping) : (d.onHk f).anvils = d.anvils := rfl
@[simp] theorem Device.onHk_cores (d : Device) (f : Housekeeping → Housekeeping) : (d.onHk f).cores = d.cores := rfl
@[simp] theorem Device.onHk_transfers (d : Device) (f : Housekeeping → Housekeeping) : (d.onHk f).transfers = d.transfers := rfl
@[simp] theorem Device.onHk_deferred (d : Device) (f : Housekeeping → Housekeeping) : (d.onHk f).deferred = d.deferred := rfl
@[simp] theorem Device.onHk_replayAsked (d : Device) (f : Housekeeping → Housekeeping) :
    (d.onHk f).replayAsked = d.replayAsked := rfl
@[simp] theorem Device.onHk_heat (d : Device) (f : Housekeeping → Housekeeping) : (d.onHk f).heat = d.heat := rfl
@[simp] theorem Device.onHk_power (d : Device) (f : Housekeeping → Housekeeping) : (d.onHk f).power = d.power := rfl
@[simp] theorem Device.onHk_fabric (d : Device) (f : Housekeeping → Housekeeping) : (d.onHk f).fabric = d.fabric := rfl
@[simp] theorem Device.onHk_mesh (d : Device) (f : Housekeeping → Housekeeping) : (d.onHk f).mesh = d.mesh := rfl
@[simp] theorem Device.onHk_serving (d : Device) (f : Housekeeping → Housekeeping) : (d.onHk f).serving = d.serving := rfl
@[simp] theorem Device.onHk_sec (d : Device) (f : Housekeeping → Housekeeping) : (d.onHk f).sec = d.sec := rfl
@[simp] theorem Device.onHk_commits (d : Device) (f : Housekeeping → Housekeeping) : (d.onHk f).commits = d.commits := rfl
@[simp] theorem Device.onHk_mems (d : Device) (f : Housekeeping → Housekeeping) : (d.onHk f).mems = d.mems := rfl
@[simp] theorem Device.onHk_billet (d : Device) (f : Housekeeping → Housekeeping) : (d.onHk f).billet = d.billet := rfl
@[simp] theorem Device.onHk_rom (d : Device) (f : Housekeeping → Housekeeping) : (d.onHk f).rom = d.rom := rfl
@[simp] theorem Device.onHk_work (d : Device) (f : Housekeeping → Housekeeping) : (d.onHk f).work = d.work := rfl
@[simp] theorem Device.onHk_bht (d : Device) (f : Housekeeping → Housekeeping) : (d.onHk f).bht = d.bht := rfl
@[simp] theorem Device.onHk_sent (d : Device) (f : Housekeeping → Housekeeping) : (d.onHk f).sent = d.sent := rfl
@[simp] theorem Device.onHk_free (d : Device) (f : Housekeeping → Housekeeping) : (d.onHk f).free = d.free := rfl
@[simp] theorem Device.onHk_hk (d : Device) (f : Housekeeping → Housekeeping) : (d.onHk f).hk = f d.hk := rfl

/-! ### Device.onWork -/

@[simp] theorem Device.onWork_regs (d : Device) (f : SecWork → SecWork) : (d.onWork f).regs = d.regs := rfl
@[simp] theorem Device.onWork_ticks (d : Device) (f : SecWork → SecWork) : (d.onWork f).ticks = d.ticks := rfl
@[simp] theorem Device.onWork_hist (d : Device) (f : SecWork → SecWork) : (d.onWork f).hist = d.hist := rfl
@[simp] theorem Device.onWork_sync (d : Device) (f : SecWork → SecWork) : (d.onWork f).sync = d.sync := rfl
@[simp] theorem Device.onWork_anvils (d : Device) (f : SecWork → SecWork) : (d.onWork f).anvils = d.anvils := rfl
@[simp] theorem Device.onWork_cores (d : Device) (f : SecWork → SecWork) : (d.onWork f).cores = d.cores := rfl
@[simp] theorem Device.onWork_transfers (d : Device) (f : SecWork → SecWork) : (d.onWork f).transfers = d.transfers := rfl
@[simp] theorem Device.onWork_deferred (d : Device) (f : SecWork → SecWork) : (d.onWork f).deferred = d.deferred := rfl
@[simp] theorem Device.onWork_replayAsked (d : Device) (f : SecWork → SecWork) : (d.onWork f).replayAsked = d.replayAsked := rfl
@[simp] theorem Device.onWork_heat (d : Device) (f : SecWork → SecWork) : (d.onWork f).heat = d.heat := rfl
@[simp] theorem Device.onWork_power (d : Device) (f : SecWork → SecWork) : (d.onWork f).power = d.power := rfl
@[simp] theorem Device.onWork_fabric (d : Device) (f : SecWork → SecWork) : (d.onWork f).fabric = d.fabric := rfl
@[simp] theorem Device.onWork_mesh (d : Device) (f : SecWork → SecWork) : (d.onWork f).mesh = d.mesh := rfl
@[simp] theorem Device.onWork_serving (d : Device) (f : SecWork → SecWork) : (d.onWork f).serving = d.serving := rfl
@[simp] theorem Device.onWork_sec (d : Device) (f : SecWork → SecWork) : (d.onWork f).sec = d.sec := rfl
@[simp] theorem Device.onWork_commits (d : Device) (f : SecWork → SecWork) : (d.onWork f).commits = d.commits := rfl
@[simp] theorem Device.onWork_mems (d : Device) (f : SecWork → SecWork) : (d.onWork f).mems = d.mems := rfl
@[simp] theorem Device.onWork_billet (d : Device) (f : SecWork → SecWork) : (d.onWork f).billet = d.billet := rfl
@[simp] theorem Device.onWork_hk (d : Device) (f : SecWork → SecWork) : (d.onWork f).hk = d.hk := rfl
@[simp] theorem Device.onWork_rom (d : Device) (f : SecWork → SecWork) : (d.onWork f).rom = d.rom := rfl
@[simp] theorem Device.onWork_bht (d : Device) (f : SecWork → SecWork) : (d.onWork f).bht = d.bht := rfl
@[simp] theorem Device.onWork_sent (d : Device) (f : SecWork → SecWork) : (d.onWork f).sent = d.sent := rfl
@[simp] theorem Device.onWork_free (d : Device) (f : SecWork → SecWork) : (d.onWork f).free = d.free := rfl
@[simp] theorem Device.onWork_work (d : Device) (f : SecWork → SecWork) : (d.onWork f).work = f d.work := rfl

/-! ### Device.onBht -/

@[simp] theorem Device.onBht_regs (d : Device) (f : BhtState → BhtState) : (d.onBht f).regs = d.regs := rfl
@[simp] theorem Device.onBht_ticks (d : Device) (f : BhtState → BhtState) : (d.onBht f).ticks = d.ticks := rfl
@[simp] theorem Device.onBht_hist (d : Device) (f : BhtState → BhtState) : (d.onBht f).hist = d.hist := rfl
@[simp] theorem Device.onBht_sync (d : Device) (f : BhtState → BhtState) : (d.onBht f).sync = d.sync := rfl
@[simp] theorem Device.onBht_anvils (d : Device) (f : BhtState → BhtState) : (d.onBht f).anvils = d.anvils := rfl
@[simp] theorem Device.onBht_cores (d : Device) (f : BhtState → BhtState) : (d.onBht f).cores = d.cores := rfl
@[simp] theorem Device.onBht_transfers (d : Device) (f : BhtState → BhtState) : (d.onBht f).transfers = d.transfers := rfl
@[simp] theorem Device.onBht_deferred (d : Device) (f : BhtState → BhtState) : (d.onBht f).deferred = d.deferred := rfl
@[simp] theorem Device.onBht_replayAsked (d : Device) (f : BhtState → BhtState) : (d.onBht f).replayAsked = d.replayAsked := rfl
@[simp] theorem Device.onBht_heat (d : Device) (f : BhtState → BhtState) : (d.onBht f).heat = d.heat := rfl
@[simp] theorem Device.onBht_power (d : Device) (f : BhtState → BhtState) : (d.onBht f).power = d.power := rfl
@[simp] theorem Device.onBht_fabric (d : Device) (f : BhtState → BhtState) : (d.onBht f).fabric = d.fabric := rfl
@[simp] theorem Device.onBht_mesh (d : Device) (f : BhtState → BhtState) : (d.onBht f).mesh = d.mesh := rfl
@[simp] theorem Device.onBht_serving (d : Device) (f : BhtState → BhtState) : (d.onBht f).serving = d.serving := rfl
@[simp] theorem Device.onBht_sec (d : Device) (f : BhtState → BhtState) : (d.onBht f).sec = d.sec := rfl
@[simp] theorem Device.onBht_commits (d : Device) (f : BhtState → BhtState) : (d.onBht f).commits = d.commits := rfl
@[simp] theorem Device.onBht_mems (d : Device) (f : BhtState → BhtState) : (d.onBht f).mems = d.mems := rfl
@[simp] theorem Device.onBht_billet (d : Device) (f : BhtState → BhtState) : (d.onBht f).billet = d.billet := rfl
@[simp] theorem Device.onBht_hk (d : Device) (f : BhtState → BhtState) : (d.onBht f).hk = d.hk := rfl
@[simp] theorem Device.onBht_rom (d : Device) (f : BhtState → BhtState) : (d.onBht f).rom = d.rom := rfl
@[simp] theorem Device.onBht_work (d : Device) (f : BhtState → BhtState) : (d.onBht f).work = d.work := rfl
@[simp] theorem Device.onBht_sent (d : Device) (f : BhtState → BhtState) : (d.onBht f).sent = d.sent := rfl
@[simp] theorem Device.onBht_free (d : Device) (f : BhtState → BhtState) : (d.onBht f).free = d.free := rfl
@[simp] theorem Device.onBht_bht (d : Device) (f : BhtState → BhtState) : (d.onBht f).bht = f d.bht := rfl

/-! ### Device.onPort -/

@[simp] theorem Device.onPort_regs (d : Device) (p : Nat) (f : PortState → PortState) : (d.onPort p f).regs = d.regs := rfl
@[simp] theorem Device.onPort_ticks (d : Device) (p : Nat) (f : PortState → PortState) : (d.onPort p f).ticks = d.ticks := rfl
@[simp] theorem Device.onPort_hist (d : Device) (p : Nat) (f : PortState → PortState) : (d.onPort p f).hist = d.hist := rfl
@[simp] theorem Device.onPort_sync (d : Device) (p : Nat) (f : PortState → PortState) : (d.onPort p f).sync = d.sync := rfl
@[simp] theorem Device.onPort_anvils (d : Device) (p : Nat) (f : PortState → PortState) : (d.onPort p f).anvils = d.anvils := rfl
@[simp] theorem Device.onPort_cores (d : Device) (p : Nat) (f : PortState → PortState) : (d.onPort p f).cores = d.cores := rfl
@[simp] theorem Device.onPort_transfers (d : Device) (p : Nat) (f : PortState → PortState) :
    (d.onPort p f).transfers = d.transfers := rfl
@[simp] theorem Device.onPort_deferred (d : Device) (p : Nat) (f : PortState → PortState) :
    (d.onPort p f).deferred = d.deferred := rfl
@[simp] theorem Device.onPort_replayAsked (d : Device) (p : Nat) (f : PortState → PortState) :
    (d.onPort p f).replayAsked = d.replayAsked := rfl
@[simp] theorem Device.onPort_heat (d : Device) (p : Nat) (f : PortState → PortState) : (d.onPort p f).heat = d.heat := rfl
@[simp] theorem Device.onPort_power (d : Device) (p : Nat) (f : PortState → PortState) : (d.onPort p f).power = d.power := rfl
@[simp] theorem Device.onPort_fabric (d : Device) (p : Nat) (f : PortState → PortState) : (d.onPort p f).fabric = d.fabric := rfl
@[simp] theorem Device.onPort_serving (d : Device) (p : Nat) (f : PortState → PortState) :
    (d.onPort p f).serving = d.serving := rfl
@[simp] theorem Device.onPort_sec (d : Device) (p : Nat) (f : PortState → PortState) : (d.onPort p f).sec = d.sec := rfl
@[simp] theorem Device.onPort_commits (d : Device) (p : Nat) (f : PortState → PortState) :
    (d.onPort p f).commits = d.commits := rfl
@[simp] theorem Device.onPort_mems (d : Device) (p : Nat) (f : PortState → PortState) : (d.onPort p f).mems = d.mems := rfl
@[simp] theorem Device.onPort_billet (d : Device) (p : Nat) (f : PortState → PortState) : (d.onPort p f).billet = d.billet := rfl
@[simp] theorem Device.onPort_hk (d : Device) (p : Nat) (f : PortState → PortState) : (d.onPort p f).hk = d.hk := rfl
@[simp] theorem Device.onPort_rom (d : Device) (p : Nat) (f : PortState → PortState) : (d.onPort p f).rom = d.rom := rfl
@[simp] theorem Device.onPort_work (d : Device) (p : Nat) (f : PortState → PortState) : (d.onPort p f).work = d.work := rfl
@[simp] theorem Device.onPort_bht (d : Device) (p : Nat) (f : PortState → PortState) : (d.onPort p f).bht = d.bht := rfl
@[simp] theorem Device.onPort_sent (d : Device) (p : Nat) (f : PortState → PortState) : (d.onPort p f).sent = d.sent := rfl
@[simp] theorem Device.onPort_free (d : Device) (p : Nat) (f : PortState → PortState) : (d.onPort p f).free = d.free := rfl

/-! ### Device.onConverter -/

@[simp] theorem Device.onConverter_regs (d : Device) (p : Nat) (f : Converter → Converter) :
    (d.onConverter p f).regs = d.regs := rfl
@[simp] theorem Device.onConverter_ticks (d : Device) (p : Nat) (f : Converter → Converter) :
    (d.onConverter p f).ticks = d.ticks := rfl
@[simp] theorem Device.onConverter_hist (d : Device) (p : Nat) (f : Converter → Converter) :
    (d.onConverter p f).hist = d.hist := rfl
@[simp] theorem Device.onConverter_sync (d : Device) (p : Nat) (f : Converter → Converter) :
    (d.onConverter p f).sync = d.sync := rfl
@[simp] theorem Device.onConverter_anvils (d : Device) (p : Nat) (f : Converter → Converter) :
    (d.onConverter p f).anvils = d.anvils := rfl
@[simp] theorem Device.onConverter_cores (d : Device) (p : Nat) (f : Converter → Converter) :
    (d.onConverter p f).cores = d.cores := rfl
@[simp] theorem Device.onConverter_transfers (d : Device) (p : Nat) (f : Converter → Converter) :
    (d.onConverter p f).transfers = d.transfers := rfl
@[simp] theorem Device.onConverter_deferred (d : Device) (p : Nat) (f : Converter → Converter) :
    (d.onConverter p f).deferred = d.deferred := rfl
@[simp] theorem Device.onConverter_replayAsked (d : Device) (p : Nat) (f : Converter → Converter) :
    (d.onConverter p f).replayAsked = d.replayAsked := rfl
@[simp] theorem Device.onConverter_heat (d : Device) (p : Nat) (f : Converter → Converter) :
    (d.onConverter p f).heat = d.heat := rfl
@[simp] theorem Device.onConverter_power (d : Device) (p : Nat) (f : Converter → Converter) :
    (d.onConverter p f).power = d.power := rfl
@[simp] theorem Device.onConverter_fabric (d : Device) (p : Nat) (f : Converter → Converter) :
    (d.onConverter p f).fabric = d.fabric := rfl
@[simp] theorem Device.onConverter_mesh (d : Device) (p : Nat) (f : Converter → Converter) :
    (d.onConverter p f).mesh = d.mesh := rfl
@[simp] theorem Device.onConverter_serving (d : Device) (p : Nat) (f : Converter → Converter) :
    (d.onConverter p f).serving = d.serving := rfl
@[simp] theorem Device.onConverter_sec (d : Device) (p : Nat) (f : Converter → Converter) : (d.onConverter p f).sec = d.sec := rfl
@[simp] theorem Device.onConverter_commits (d : Device) (p : Nat) (f : Converter → Converter) :
    (d.onConverter p f).commits = d.commits := rfl
@[simp] theorem Device.onConverter_mems (d : Device) (p : Nat) (f : Converter → Converter) :
    (d.onConverter p f).mems = d.mems := rfl
@[simp] theorem Device.onConverter_billet (d : Device) (p : Nat) (f : Converter → Converter) :
    (d.onConverter p f).billet = d.billet := rfl
@[simp] theorem Device.onConverter_rom (d : Device) (p : Nat) (f : Converter → Converter) : (d.onConverter p f).rom = d.rom := rfl
@[simp] theorem Device.onConverter_work (d : Device) (p : Nat) (f : Converter → Converter) :
    (d.onConverter p f).work = d.work := rfl
@[simp] theorem Device.onConverter_bht (d : Device) (p : Nat) (f : Converter → Converter) : (d.onConverter p f).bht = d.bht := rfl
@[simp] theorem Device.onConverter_sent (d : Device) (p : Nat) (f : Converter → Converter) :
    (d.onConverter p f).sent = d.sent := rfl
@[simp] theorem Device.onConverter_free (d : Device) (p : Nat) (f : Converter → Converter) :
    (d.onConverter p f).free = d.free := rfl

/-! ### Device.onDie -/

@[simp] theorem Device.onDie_regs (d : Device) (die : Nat) (f : DieServing → DieServing) : (d.onDie die f).regs = d.regs := rfl
@[simp] theorem Device.onDie_ticks (d : Device) (die : Nat) (f : DieServing → DieServing) : (d.onDie die f).ticks = d.ticks := rfl
@[simp] theorem Device.onDie_hist (d : Device) (die : Nat) (f : DieServing → DieServing) : (d.onDie die f).hist = d.hist := rfl
@[simp] theorem Device.onDie_sync (d : Device) (die : Nat) (f : DieServing → DieServing) : (d.onDie die f).sync = d.sync := rfl
@[simp] theorem Device.onDie_anvils (d : Device) (die : Nat) (f : DieServing → DieServing) :
    (d.onDie die f).anvils = d.anvils := rfl
@[simp] theorem Device.onDie_cores (d : Device) (die : Nat) (f : DieServing → DieServing) : (d.onDie die f).cores = d.cores := rfl
@[simp] theorem Device.onDie_transfers (d : Device) (die : Nat) (f : DieServing → DieServing) :
    (d.onDie die f).transfers = d.transfers := rfl
@[simp] theorem Device.onDie_deferred (d : Device) (die : Nat) (f : DieServing → DieServing) :
    (d.onDie die f).deferred = d.deferred := rfl
@[simp] theorem Device.onDie_replayAsked (d : Device) (die : Nat) (f : DieServing → DieServing) :
    (d.onDie die f).replayAsked = d.replayAsked := rfl
@[simp] theorem Device.onDie_heat (d : Device) (die : Nat) (f : DieServing → DieServing) : (d.onDie die f).heat = d.heat := rfl
@[simp] theorem Device.onDie_power (d : Device) (die : Nat) (f : DieServing → DieServing) : (d.onDie die f).power = d.power := rfl
@[simp] theorem Device.onDie_fabric (d : Device) (die : Nat) (f : DieServing → DieServing) :
    (d.onDie die f).fabric = d.fabric := rfl
@[simp] theorem Device.onDie_mesh (d : Device) (die : Nat) (f : DieServing → DieServing) : (d.onDie die f).mesh = d.mesh := rfl
@[simp] theorem Device.onDie_sec (d : Device) (die : Nat) (f : DieServing → DieServing) : (d.onDie die f).sec = d.sec := rfl
@[simp] theorem Device.onDie_commits (d : Device) (die : Nat) (f : DieServing → DieServing) :
    (d.onDie die f).commits = d.commits := rfl
@[simp] theorem Device.onDie_mems (d : Device) (die : Nat) (f : DieServing → DieServing) : (d.onDie die f).mems = d.mems := rfl
@[simp] theorem Device.onDie_billet (d : Device) (die : Nat) (f : DieServing → DieServing) :
    (d.onDie die f).billet = d.billet := rfl
@[simp] theorem Device.onDie_hk (d : Device) (die : Nat) (f : DieServing → DieServing) : (d.onDie die f).hk = d.hk := rfl
@[simp] theorem Device.onDie_rom (d : Device) (die : Nat) (f : DieServing → DieServing) : (d.onDie die f).rom = d.rom := rfl
@[simp] theorem Device.onDie_work (d : Device) (die : Nat) (f : DieServing → DieServing) : (d.onDie die f).work = d.work := rfl
@[simp] theorem Device.onDie_bht (d : Device) (die : Nat) (f : DieServing → DieServing) : (d.onDie die f).bht = d.bht := rfl
@[simp] theorem Device.onDie_sent (d : Device) (die : Nat) (f : DieServing → DieServing) : (d.onDie die f).sent = d.sent := rfl
@[simp] theorem Device.onDie_free (d : Device) (die : Nat) (f : DieServing → DieServing) : (d.onDie die f).free = d.free := rfl

/-! ### Registers set in a row, events and the access log -/

@[simp] theorem Device.setWords_ticks (d : Device) (off : Nat) (l : List Nat) : (d.setWords off l).ticks = d.ticks := by
  induction l generalizing d off with
  | nil => rfl
  | cons w l ih => rw [Device.setWords, ih]; rfl
@[simp] theorem Device.setWords_hist (d : Device) (off : Nat) (l : List Nat) : (d.setWords off l).hist = d.hist := by
  induction l generalizing d off with
  | nil => rfl
  | cons w l ih => rw [Device.setWords, ih]; rfl
@[simp] theorem Device.setWords_sync (d : Device) (off : Nat) (l : List Nat) : (d.setWords off l).sync = d.sync := by
  induction l generalizing d off with
  | nil => rfl
  | cons w l ih => rw [Device.setWords, ih]; rfl
@[simp] theorem Device.setWords_anvils (d : Device) (off : Nat) (l : List Nat) : (d.setWords off l).anvils = d.anvils := by
  induction l generalizing d off with
  | nil => rfl
  | cons w l ih => rw [Device.setWords, ih]; rfl
@[simp] theorem Device.setWords_cores (d : Device) (off : Nat) (l : List Nat) : (d.setWords off l).cores = d.cores := by
  induction l generalizing d off with
  | nil => rfl
  | cons w l ih => rw [Device.setWords, ih]; rfl
@[simp] theorem Device.setWords_transfers (d : Device) (off : Nat) (l : List Nat) :
    (d.setWords off l).transfers = d.transfers := by
  induction l generalizing d off with
  | nil => rfl
  | cons w l ih => rw [Device.setWords, ih]; rfl
@[simp] theorem Device.setWords_deferred (d : Device) (off : Nat) (l : List Nat) : (d.setWords off l).deferred = d.deferred := by
  induction l generalizing d off with
  | nil => rfl
  | cons w l ih => rw [Device.setWords, ih]; rfl
@[simp] theorem Device.setWords_replayAsked (d : Device) (off : Nat) (l : List Nat) :
    (d.setWords off l).replayAsked = d.replayAsked := by
  induction l generalizing d off with
  | nil => rfl
  | cons w l ih => rw [Device.setWords, ih]; rfl
@[simp] theorem Device.setWords_heat (d : Device) (off : Nat) (l : List Nat) : (d.setWords off l).heat = d.heat := by
  induction l generalizing d off with
  | nil => rfl
  | cons w l ih => rw [Device.setWords, ih]; rfl
@[simp] theorem Device.setWords_power (d : Device) (off : Nat) (l : List Nat) : (d.setWords off l).power = d.power := by
  induction l generalizing d off with
  | nil => rfl
  | cons w l ih => rw [Device.setWords, ih]; rfl
@[simp] theorem Device.setWords_fabric (d : Device) (off : Nat) (l : List Nat) : (d.setWords off l).fabric = d.fabric := by
  induction l generalizing d off with
  | nil => rfl
  | cons w l ih => rw [Device.setWords, ih]; rfl
@[simp] theorem Device.setWords_mesh (d : Device) (off : Nat) (l : List Nat) : (d.setWords off l).mesh = d.mesh := by
  induction l generalizing d off with
  | nil => rfl
  | cons w l ih => rw [Device.setWords, ih]; rfl
@[simp] theorem Device.setWords_serving (d : Device) (off : Nat) (l : List Nat) : (d.setWords off l).serving = d.serving := by
  induction l generalizing d off with
  | nil => rfl
  | cons w l ih => rw [Device.setWords, ih]; rfl
@[simp] theorem Device.setWords_sec (d : Device) (off : Nat) (l : List Nat) : (d.setWords off l).sec = d.sec := by
  induction l generalizing d off with
  | nil => rfl
  | cons w l ih => rw [Device.setWords, ih]; rfl
@[simp] theorem Device.setWords_commits (d : Device) (off : Nat) (l : List Nat) : (d.setWords off l).commits = d.commits := by
  induction l generalizing d off with
  | nil => rfl
  | cons w l ih => rw [Device.setWords, ih]; rfl
@[simp] theorem Device.setWords_mems (d : Device) (off : Nat) (l : List Nat) : (d.setWords off l).mems = d.mems := by
  induction l generalizing d off with
  | nil => rfl
  | cons w l ih => rw [Device.setWords, ih]; rfl
@[simp] theorem Device.setWords_billet (d : Device) (off : Nat) (l : List Nat) : (d.setWords off l).billet = d.billet := by
  induction l generalizing d off with
  | nil => rfl
  | cons w l ih => rw [Device.setWords, ih]; rfl
@[simp] theorem Device.setWords_hk (d : Device) (off : Nat) (l : List Nat) : (d.setWords off l).hk = d.hk := by
  induction l generalizing d off with
  | nil => rfl
  | cons w l ih => rw [Device.setWords, ih]; rfl
@[simp] theorem Device.setWords_rom (d : Device) (off : Nat) (l : List Nat) : (d.setWords off l).rom = d.rom := by
  induction l generalizing d off with
  | nil => rfl
  | cons w l ih => rw [Device.setWords, ih]; rfl
@[simp] theorem Device.setWords_work (d : Device) (off : Nat) (l : List Nat) : (d.setWords off l).work = d.work := by
  induction l generalizing d off with
  | nil => rfl
  | cons w l ih => rw [Device.setWords, ih]; rfl
@[simp] theorem Device.setWords_bht (d : Device) (off : Nat) (l : List Nat) : (d.setWords off l).bht = d.bht := by
  induction l generalizing d off with
  | nil => rfl
  | cons w l ih => rw [Device.setWords, ih]; rfl
@[simp] theorem Device.setWords_sent (d : Device) (off : Nat) (l : List Nat) : (d.setWords off l).sent = d.sent := by
  induction l generalizing d off with
  | nil => rfl
  | cons w l ih => rw [Device.setWords, ih]; rfl
@[simp] theorem Device.setWords_free (d : Device) (off : Nat) (l : List Nat) : (d.setWords off l).free = d.free := by
  induction l generalizing d off with
  | nil => rfl
  | cons w l ih => rw [Device.setWords, ih]; rfl
@[simp] theorem Device.notifyEvent_ticks (d : Device) (page b : Nat) : (d.notifyEvent page b).ticks = d.ticks := by
  simp only [Device.notifyEvent, apply_ite Device.ticks, Device.send_ticks, Device.count_ticks, ite_self]
@[simp] theorem Device.notifyEvent_hist (d : Device) (page b : Nat) : (d.notifyEvent page b).hist = d.hist := by
  simp only [Device.notifyEvent, apply_ite Device.hist, Device.send_hist, Device.count_hist, ite_self]
@[simp] theorem Device.notifyEvent_sync (d : Device) (page b : Nat) : (d.notifyEvent page b).sync = d.sync := by
  simp only [Device.notifyEvent, apply_ite Device.sync, Device.send_sync, Device.count_sync, ite_self]
@[simp] theorem Device.notifyEvent_anvils (d : Device) (page b : Nat) : (d.notifyEvent page b).anvils = d.anvils := by
  simp only [Device.notifyEvent, apply_ite Device.anvils, Device.send_anvils, Device.count_anvils, ite_self]
@[simp] theorem Device.notifyEvent_cores (d : Device) (page b : Nat) : (d.notifyEvent page b).cores = d.cores := by
  simp only [Device.notifyEvent, apply_ite Device.cores, Device.send_cores, Device.count_cores, ite_self]
@[simp] theorem Device.notifyEvent_transfers (d : Device) (page b : Nat) : (d.notifyEvent page b).transfers = d.transfers := by
  simp only [Device.notifyEvent, apply_ite Device.transfers, Device.send_transfers, Device.count_transfers, ite_self]
@[simp] theorem Device.notifyEvent_deferred (d : Device) (page b : Nat) : (d.notifyEvent page b).deferred = d.deferred := by
  simp only [Device.notifyEvent, apply_ite Device.deferred, Device.send_deferred, Device.count_deferred, ite_self]
@[simp] theorem Device.notifyEvent_replayAsked (d : Device) (page b : Nat) :
    (d.notifyEvent page b).replayAsked = d.replayAsked := by
  simp only [Device.notifyEvent, apply_ite Device.replayAsked, Device.send_replayAsked, Device.count_replayAsked, ite_self]
@[simp] theorem Device.notifyEvent_heat (d : Device) (page b : Nat) : (d.notifyEvent page b).heat = d.heat := by
  simp only [Device.notifyEvent, apply_ite Device.heat, Device.send_heat, Device.count_heat, ite_self]
@[simp] theorem Device.notifyEvent_power (d : Device) (page b : Nat) : (d.notifyEvent page b).power = d.power := by
  simp only [Device.notifyEvent, apply_ite Device.power, Device.send_power, Device.count_power, ite_self]
@[simp] theorem Device.notifyEvent_fabric (d : Device) (page b : Nat) : (d.notifyEvent page b).fabric = d.fabric := by
  simp only [Device.notifyEvent, apply_ite Device.fabric, Device.send_fabric, Device.count_fabric, ite_self]
@[simp] theorem Device.notifyEvent_mesh (d : Device) (page b : Nat) : (d.notifyEvent page b).mesh = d.mesh := by
  simp only [Device.notifyEvent, apply_ite Device.mesh, Device.send_mesh, Device.count_mesh, ite_self]
@[simp] theorem Device.notifyEvent_serving (d : Device) (page b : Nat) : (d.notifyEvent page b).serving = d.serving := by
  simp only [Device.notifyEvent, apply_ite Device.serving, Device.send_serving, Device.count_serving, ite_self]
@[simp] theorem Device.notifyEvent_sec (d : Device) (page b : Nat) : (d.notifyEvent page b).sec = d.sec := by
  simp only [Device.notifyEvent, apply_ite Device.sec, Device.send_sec, Device.count_sec, ite_self]
@[simp] theorem Device.notifyEvent_commits (d : Device) (page b : Nat) : (d.notifyEvent page b).commits = d.commits := by
  simp only [Device.notifyEvent, apply_ite Device.commits, Device.send_commits, Device.count_commits, ite_self]
@[simp] theorem Device.notifyEvent_mems (d : Device) (page b : Nat) : (d.notifyEvent page b).mems = d.mems := by
  simp only [Device.notifyEvent, apply_ite Device.mems, Device.send_mems, Device.count_mems, ite_self]
@[simp] theorem Device.notifyEvent_billet (d : Device) (page b : Nat) : (d.notifyEvent page b).billet = d.billet := by
  simp only [Device.notifyEvent, apply_ite Device.billet, Device.send_billet, Device.count_billet, ite_self]
@[simp] theorem Device.notifyEvent_hk (d : Device) (page b : Nat) : (d.notifyEvent page b).hk = d.hk := by
  simp only [Device.notifyEvent, apply_ite Device.hk, Device.send_hk, Device.count_hk, ite_self]
@[simp] theorem Device.notifyEvent_rom (d : Device) (page b : Nat) : (d.notifyEvent page b).rom = d.rom := by
  simp only [Device.notifyEvent, apply_ite Device.rom, Device.send_rom, Device.count_rom, ite_self]
@[simp] theorem Device.notifyEvent_work (d : Device) (page b : Nat) : (d.notifyEvent page b).work = d.work := by
  simp only [Device.notifyEvent, apply_ite Device.work, Device.send_work, Device.count_work, ite_self]
@[simp] theorem Device.notifyEvent_bht (d : Device) (page b : Nat) : (d.notifyEvent page b).bht = d.bht := by
  simp only [Device.notifyEvent, apply_ite Device.bht, Device.send_bht, Device.count_bht, ite_self]
@[simp] theorem Device.notifyEvent_free (d : Device) (page b : Nat) : (d.notifyEvent page b).free = d.free := by
  simp only [Device.notifyEvent, apply_ite Device.free, Device.send_free, Device.count_free, ite_self]
@[simp] theorem Device.raise_ticks (d : Device) (page b : Nat) : (d.raise page b).ticks = d.ticks := by
  simp only [Device.raise, apply_ite Device.ticks, Device.notifyEvent_ticks, Device.set_ticks, ite_self]
@[simp] theorem Device.raise_hist (d : Device) (page b : Nat) : (d.raise page b).hist = d.hist := by
  simp only [Device.raise, apply_ite Device.hist, Device.notifyEvent_hist, Device.set_hist, ite_self]
@[simp] theorem Device.raise_sync (d : Device) (page b : Nat) : (d.raise page b).sync = d.sync := by
  simp only [Device.raise, apply_ite Device.sync, Device.notifyEvent_sync, Device.set_sync, ite_self]
@[simp] theorem Device.raise_anvils (d : Device) (page b : Nat) : (d.raise page b).anvils = d.anvils := by
  simp only [Device.raise, apply_ite Device.anvils, Device.notifyEvent_anvils, Device.set_anvils, ite_self]
@[simp] theorem Device.raise_cores (d : Device) (page b : Nat) : (d.raise page b).cores = d.cores := by
  simp only [Device.raise, apply_ite Device.cores, Device.notifyEvent_cores, Device.set_cores, ite_self]
@[simp] theorem Device.raise_transfers (d : Device) (page b : Nat) : (d.raise page b).transfers = d.transfers := by
  simp only [Device.raise, apply_ite Device.transfers, Device.notifyEvent_transfers, Device.set_transfers, ite_self]
@[simp] theorem Device.raise_deferred (d : Device) (page b : Nat) : (d.raise page b).deferred = d.deferred := by
  simp only [Device.raise, apply_ite Device.deferred, Device.notifyEvent_deferred, Device.set_deferred, ite_self]
@[simp] theorem Device.raise_replayAsked (d : Device) (page b : Nat) : (d.raise page b).replayAsked = d.replayAsked := by
  simp only [Device.raise, apply_ite Device.replayAsked, Device.notifyEvent_replayAsked, Device.set_replayAsked, ite_self]
@[simp] theorem Device.raise_heat (d : Device) (page b : Nat) : (d.raise page b).heat = d.heat := by
  simp only [Device.raise, apply_ite Device.heat, Device.notifyEvent_heat, Device.set_heat, ite_self]
@[simp] theorem Device.raise_power (d : Device) (page b : Nat) : (d.raise page b).power = d.power := by
  simp only [Device.raise, apply_ite Device.power, Device.notifyEvent_power, Device.set_power, ite_self]
@[simp] theorem Device.raise_fabric (d : Device) (page b : Nat) : (d.raise page b).fabric = d.fabric := by
  simp only [Device.raise, apply_ite Device.fabric, Device.notifyEvent_fabric, Device.set_fabric, ite_self]
@[simp] theorem Device.raise_mesh (d : Device) (page b : Nat) : (d.raise page b).mesh = d.mesh := by
  simp only [Device.raise, apply_ite Device.mesh, Device.notifyEvent_mesh, Device.set_mesh, ite_self]
@[simp] theorem Device.raise_serving (d : Device) (page b : Nat) : (d.raise page b).serving = d.serving := by
  simp only [Device.raise, apply_ite Device.serving, Device.notifyEvent_serving, Device.set_serving, ite_self]
@[simp] theorem Device.raise_sec (d : Device) (page b : Nat) : (d.raise page b).sec = d.sec := by
  simp only [Device.raise, apply_ite Device.sec, Device.notifyEvent_sec, Device.set_sec, ite_self]
@[simp] theorem Device.raise_commits (d : Device) (page b : Nat) : (d.raise page b).commits = d.commits := by
  simp only [Device.raise, apply_ite Device.commits, Device.notifyEvent_commits, Device.set_commits, ite_self]
@[simp] theorem Device.raise_mems (d : Device) (page b : Nat) : (d.raise page b).mems = d.mems := by
  simp only [Device.raise, apply_ite Device.mems, Device.notifyEvent_mems, Device.set_mems, ite_self]
@[simp] theorem Device.raise_billet (d : Device) (page b : Nat) : (d.raise page b).billet = d.billet := by
  simp only [Device.raise, apply_ite Device.billet, Device.notifyEvent_billet, Device.set_billet, ite_self]
@[simp] theorem Device.raise_hk (d : Device) (page b : Nat) : (d.raise page b).hk = d.hk := by
  simp only [Device.raise, apply_ite Device.hk, Device.notifyEvent_hk, Device.set_hk, ite_self]
@[simp] theorem Device.raise_rom (d : Device) (page b : Nat) : (d.raise page b).rom = d.rom := by
  simp only [Device.raise, apply_ite Device.rom, Device.notifyEvent_rom, Device.set_rom, ite_self]
@[simp] theorem Device.raise_work (d : Device) (page b : Nat) : (d.raise page b).work = d.work := by
  simp only [Device.raise, apply_ite Device.work, Device.notifyEvent_work, Device.set_work, ite_self]
@[simp] theorem Device.raise_bht (d : Device) (page b : Nat) : (d.raise page b).bht = d.bht := by
  simp only [Device.raise, apply_ite Device.bht, Device.notifyEvent_bht, Device.set_bht, ite_self]
@[simp] theorem Device.raise_free (d : Device) (page b : Nat) : (d.raise page b).free = d.free := by
  simp only [Device.raise, apply_ite Device.free, Device.notifyEvent_free, Device.set_free, ite_self]
@[simp] theorem Device.capture_ticks (d : Device) (page : Nat) (words : List Nat) : (d.capture page words).ticks = d.ticks := by
  simp only [Device.capture, apply_ite Device.ticks, Device.setWords_ticks, Device.set_ticks, ite_self]
@[simp] theorem Device.capture_hist (d : Device) (page : Nat) (words : List Nat) : (d.capture page words).hist = d.hist := by
  simp only [Device.capture, apply_ite Device.hist, Device.setWords_hist, Device.set_hist, ite_self]
@[simp] theorem Device.capture_sync (d : Device) (page : Nat) (words : List Nat) : (d.capture page words).sync = d.sync := by
  simp only [Device.capture, apply_ite Device.sync, Device.setWords_sync, Device.set_sync, ite_self]
@[simp] theorem Device.capture_anvils (d : Device) (page : Nat) (words : List Nat) :
    (d.capture page words).anvils = d.anvils := by
  simp only [Device.capture, apply_ite Device.anvils, Device.setWords_anvils, Device.set_anvils, ite_self]
@[simp] theorem Device.capture_cores (d : Device) (page : Nat) (words : List Nat) : (d.capture page words).cores = d.cores := by
  simp only [Device.capture, apply_ite Device.cores, Device.setWords_cores, Device.set_cores, ite_self]
@[simp] theorem Device.capture_transfers (d : Device) (page : Nat) (words : List Nat) :
    (d.capture page words).transfers = d.transfers := by
  simp only [Device.capture, apply_ite Device.transfers, Device.setWords_transfers, Device.set_transfers, ite_self]
@[simp] theorem Device.capture_deferred (d : Device) (page : Nat) (words : List Nat) :
    (d.capture page words).deferred = d.deferred := by
  simp only [Device.capture, apply_ite Device.deferred, Device.setWords_deferred, Device.set_deferred, ite_self]
@[simp] theorem Device.capture_replayAsked (d : Device) (page : Nat) (words : List Nat) :
    (d.capture page words).replayAsked = d.replayAsked := by
  simp only [Device.capture, apply_ite Device.replayAsked, Device.setWords_replayAsked, Device.set_replayAsked, ite_self]
@[simp] theorem Device.capture_heat (d : Device) (page : Nat) (words : List Nat) : (d.capture page words).heat = d.heat := by
  simp only [Device.capture, apply_ite Device.heat, Device.setWords_heat, Device.set_heat, ite_self]
@[simp] theorem Device.capture_power (d : Device) (page : Nat) (words : List Nat) : (d.capture page words).power = d.power := by
  simp only [Device.capture, apply_ite Device.power, Device.setWords_power, Device.set_power, ite_self]
@[simp] theorem Device.capture_fabric (d : Device) (page : Nat) (words : List Nat) :
    (d.capture page words).fabric = d.fabric := by
  simp only [Device.capture, apply_ite Device.fabric, Device.setWords_fabric, Device.set_fabric, ite_self]
@[simp] theorem Device.capture_mesh (d : Device) (page : Nat) (words : List Nat) : (d.capture page words).mesh = d.mesh := by
  simp only [Device.capture, apply_ite Device.mesh, Device.setWords_mesh, Device.set_mesh, ite_self]
@[simp] theorem Device.capture_serving (d : Device) (page : Nat) (words : List Nat) :
    (d.capture page words).serving = d.serving := by
  simp only [Device.capture, apply_ite Device.serving, Device.setWords_serving, Device.set_serving, ite_self]
@[simp] theorem Device.capture_sec (d : Device) (page : Nat) (words : List Nat) : (d.capture page words).sec = d.sec := by
  simp only [Device.capture, apply_ite Device.sec, Device.setWords_sec, Device.set_sec, ite_self]
@[simp] theorem Device.capture_commits (d : Device) (page : Nat) (words : List Nat) :
    (d.capture page words).commits = d.commits := by
  simp only [Device.capture, apply_ite Device.commits, Device.setWords_commits, Device.set_commits, ite_self]
@[simp] theorem Device.capture_mems (d : Device) (page : Nat) (words : List Nat) : (d.capture page words).mems = d.mems := by
  simp only [Device.capture, apply_ite Device.mems, Device.setWords_mems, Device.set_mems, ite_self]
@[simp] theorem Device.capture_billet (d : Device) (page : Nat) (words : List Nat) :
    (d.capture page words).billet = d.billet := by
  simp only [Device.capture, apply_ite Device.billet, Device.setWords_billet, Device.set_billet, ite_self]
@[simp] theorem Device.capture_hk (d : Device) (page : Nat) (words : List Nat) : (d.capture page words).hk = d.hk := by
  simp only [Device.capture, apply_ite Device.hk, Device.setWords_hk, Device.set_hk, ite_self]
@[simp] theorem Device.capture_rom (d : Device) (page : Nat) (words : List Nat) : (d.capture page words).rom = d.rom := by
  simp only [Device.capture, apply_ite Device.rom, Device.setWords_rom, Device.set_rom, ite_self]
@[simp] theorem Device.capture_work (d : Device) (page : Nat) (words : List Nat) : (d.capture page words).work = d.work := by
  simp only [Device.capture, apply_ite Device.work, Device.setWords_work, Device.set_work, ite_self]
@[simp] theorem Device.capture_bht (d : Device) (page : Nat) (words : List Nat) : (d.capture page words).bht = d.bht := by
  simp only [Device.capture, apply_ite Device.bht, Device.setWords_bht, Device.set_bht, ite_self]
@[simp] theorem Device.capture_free (d : Device) (page : Nat) (words : List Nat) : (d.capture page words).free = d.free := by
  simp only [Device.capture, apply_ite Device.free, Device.setWords_free, Device.set_free, ite_self]
@[simp] theorem Device.event_ticks (d : Device) (page b word0 : Nat) (rest : List Nat) :
    (d.event page b word0 rest).ticks = d.ticks := by
  simp [Device.event]
@[simp] theorem Device.event_hist (d : Device) (page b word0 : Nat) (rest : List Nat) :
    (d.event page b word0 rest).hist = d.hist := by
  simp [Device.event]
@[simp] theorem Device.event_sync (d : Device) (page b word0 : Nat) (rest : List Nat) :
    (d.event page b word0 rest).sync = d.sync := by
  simp [Device.event]
@[simp] theorem Device.event_anvils (d : Device) (page b word0 : Nat) (rest : List Nat) :
    (d.event page b word0 rest).anvils = d.anvils := by
  simp [Device.event]
@[simp] theorem Device.event_cores (d : Device) (page b word0 : Nat) (rest : List Nat) :
    (d.event page b word0 rest).cores = d.cores := by
  simp [Device.event]
@[simp] theorem Device.event_transfers (d : Device) (page b word0 : Nat) (rest : List Nat) :
    (d.event page b word0 rest).transfers = d.transfers := by
  simp [Device.event]
@[simp] theorem Device.event_deferred (d : Device) (page b word0 : Nat) (rest : List Nat) :
    (d.event page b word0 rest).deferred = d.deferred := by
  simp [Device.event]
@[simp] theorem Device.event_replayAsked (d : Device) (page b word0 : Nat) (rest : List Nat) :
    (d.event page b word0 rest).replayAsked = d.replayAsked := by
  simp [Device.event]
@[simp] theorem Device.event_heat (d : Device) (page b word0 : Nat) (rest : List Nat) :
    (d.event page b word0 rest).heat = d.heat := by
  simp [Device.event]
@[simp] theorem Device.event_power (d : Device) (page b word0 : Nat) (rest : List Nat) :
    (d.event page b word0 rest).power = d.power := by
  simp [Device.event]
@[simp] theorem Device.event_fabric (d : Device) (page b word0 : Nat) (rest : List Nat) :
    (d.event page b word0 rest).fabric = d.fabric := by
  simp [Device.event]
@[simp] theorem Device.event_mesh (d : Device) (page b word0 : Nat) (rest : List Nat) :
    (d.event page b word0 rest).mesh = d.mesh := by
  simp [Device.event]
@[simp] theorem Device.event_serving (d : Device) (page b word0 : Nat) (rest : List Nat) :
    (d.event page b word0 rest).serving = d.serving := by
  simp [Device.event]
@[simp] theorem Device.event_sec (d : Device) (page b word0 : Nat) (rest : List Nat) :
    (d.event page b word0 rest).sec = d.sec := by
  simp [Device.event]
@[simp] theorem Device.event_commits (d : Device) (page b word0 : Nat) (rest : List Nat) :
    (d.event page b word0 rest).commits = d.commits := by
  simp [Device.event]
@[simp] theorem Device.event_mems (d : Device) (page b word0 : Nat) (rest : List Nat) :
    (d.event page b word0 rest).mems = d.mems := by
  simp [Device.event]
@[simp] theorem Device.event_billet (d : Device) (page b word0 : Nat) (rest : List Nat) :
    (d.event page b word0 rest).billet = d.billet := by
  simp [Device.event]
@[simp] theorem Device.event_hk (d : Device) (page b word0 : Nat) (rest : List Nat) : (d.event page b word0 rest).hk = d.hk := by
  simp [Device.event]
@[simp] theorem Device.event_rom (d : Device) (page b word0 : Nat) (rest : List Nat) :
    (d.event page b word0 rest).rom = d.rom := by
  simp [Device.event]
@[simp] theorem Device.event_work (d : Device) (page b word0 : Nat) (rest : List Nat) :
    (d.event page b word0 rest).work = d.work := by
  simp [Device.event]
@[simp] theorem Device.event_bht (d : Device) (page b word0 : Nat) (rest : List Nat) :
    (d.event page b word0 rest).bht = d.bht := by
  simp [Device.event]
@[simp] theorem Device.event_free (d : Device) (page b word0 : Nat) (rest : List Nat) :
    (d.event page b word0 rest).free = d.free := by
  simp [Device.event]
@[simp] theorem Device.eventSt_ticks (d : Device) (page b status : Nat) (rest : List Nat) :
    (d.eventSt page b status rest).ticks = d.ticks := by
  simp [Device.eventSt]
@[simp] theorem Device.eventSt_hist (d : Device) (page b status : Nat) (rest : List Nat) :
    (d.eventSt page b status rest).hist = d.hist := by
  simp [Device.eventSt]
@[simp] theorem Device.eventSt_sync (d : Device) (page b status : Nat) (rest : List Nat) :
    (d.eventSt page b status rest).sync = d.sync := by
  simp [Device.eventSt]
@[simp] theorem Device.eventSt_anvils (d : Device) (page b status : Nat) (rest : List Nat) :
    (d.eventSt page b status rest).anvils = d.anvils := by
  simp [Device.eventSt]
@[simp] theorem Device.eventSt_cores (d : Device) (page b status : Nat) (rest : List Nat) :
    (d.eventSt page b status rest).cores = d.cores := by
  simp [Device.eventSt]
@[simp] theorem Device.eventSt_transfers (d : Device) (page b status : Nat) (rest : List Nat) :
    (d.eventSt page b status rest).transfers = d.transfers := by
  simp [Device.eventSt]
@[simp] theorem Device.eventSt_deferred (d : Device) (page b status : Nat) (rest : List Nat) :
    (d.eventSt page b status rest).deferred = d.deferred := by
  simp [Device.eventSt]
@[simp] theorem Device.eventSt_replayAsked (d : Device) (page b status : Nat) (rest : List Nat) :
    (d.eventSt page b status rest).replayAsked = d.replayAsked := by
  simp [Device.eventSt]
@[simp] theorem Device.eventSt_heat (d : Device) (page b status : Nat) (rest : List Nat) :
    (d.eventSt page b status rest).heat = d.heat := by
  simp [Device.eventSt]
@[simp] theorem Device.eventSt_power (d : Device) (page b status : Nat) (rest : List Nat) :
    (d.eventSt page b status rest).power = d.power := by
  simp [Device.eventSt]
@[simp] theorem Device.eventSt_fabric (d : Device) (page b status : Nat) (rest : List Nat) :
    (d.eventSt page b status rest).fabric = d.fabric := by
  simp [Device.eventSt]
@[simp] theorem Device.eventSt_mesh (d : Device) (page b status : Nat) (rest : List Nat) :
    (d.eventSt page b status rest).mesh = d.mesh := by
  simp [Device.eventSt]
@[simp] theorem Device.eventSt_serving (d : Device) (page b status : Nat) (rest : List Nat) :
    (d.eventSt page b status rest).serving = d.serving := by
  simp [Device.eventSt]
@[simp] theorem Device.eventSt_sec (d : Device) (page b status : Nat) (rest : List Nat) :
    (d.eventSt page b status rest).sec = d.sec := by
  simp [Device.eventSt]
@[simp] theorem Device.eventSt_commits (d : Device) (page b status : Nat) (rest : List Nat) :
    (d.eventSt page b status rest).commits = d.commits := by
  simp [Device.eventSt]
@[simp] theorem Device.eventSt_mems (d : Device) (page b status : Nat) (rest : List Nat) :
    (d.eventSt page b status rest).mems = d.mems := by
  simp [Device.eventSt]
@[simp] theorem Device.eventSt_billet (d : Device) (page b status : Nat) (rest : List Nat) :
    (d.eventSt page b status rest).billet = d.billet := by
  simp [Device.eventSt]
@[simp] theorem Device.eventSt_hk (d : Device) (page b status : Nat) (rest : List Nat) :
    (d.eventSt page b status rest).hk = d.hk := by
  simp [Device.eventSt]
@[simp] theorem Device.eventSt_rom (d : Device) (page b status : Nat) (rest : List Nat) :
    (d.eventSt page b status rest).rom = d.rom := by
  simp [Device.eventSt]
@[simp] theorem Device.eventSt_work (d : Device) (page b status : Nat) (rest : List Nat) :
    (d.eventSt page b status rest).work = d.work := by
  simp [Device.eventSt]
@[simp] theorem Device.eventSt_bht (d : Device) (page b status : Nat) (rest : List Nat) :
    (d.eventSt page b status rest).bht = d.bht := by
  simp [Device.eventSt]
@[simp] theorem Device.eventSt_free (d : Device) (page b status : Nat) (rest : List Nat) :
    (d.eventSt page b status rest).free = d.free := by
  simp [Device.eventSt]
@[simp] theorem Device.logAccess_ticks (d : Device) (kind off data agent : Nat) :
    (d.logAccess kind off data agent).ticks = d.ticks := by
  simp only [Device.logAccess, apply_ite Device.ticks, Device.setWords_ticks, Device.raise_ticks, Device.count_ticks, ite_self]
@[simp] theorem Device.logAccess_hist (d : Device) (kind off data agent : Nat) :
    (d.logAccess kind off data agent).hist = d.hist := by
  simp only [Device.logAccess, apply_ite Device.hist, Device.setWords_hist, Device.raise_hist, Device.count_hist, ite_self]
@[simp] theorem Device.logAccess_sync (d : Device) (kind off data agent : Nat) :
    (d.logAccess kind off data agent).sync = d.sync := by
  simp only [Device.logAccess, apply_ite Device.sync, Device.setWords_sync, Device.raise_sync, Device.count_sync, ite_self]
@[simp] theorem Device.logAccess_anvils (d : Device) (kind off data agent : Nat) :
    (d.logAccess kind off data agent).anvils = d.anvils := by
  simp only [Device.logAccess, apply_ite Device.anvils, Device.setWords_anvils, Device.raise_anvils, Device.count_anvils, ite_self]
@[simp] theorem Device.logAccess_cores (d : Device) (kind off data agent : Nat) :
    (d.logAccess kind off data agent).cores = d.cores := by
  simp only [Device.logAccess, apply_ite Device.cores, Device.setWords_cores, Device.raise_cores, Device.count_cores, ite_self]
@[simp] theorem Device.logAccess_transfers (d : Device) (kind off data agent : Nat) :
    (d.logAccess kind off data agent).transfers = d.transfers := by
  simp only [Device.logAccess, apply_ite Device.transfers, Device.setWords_transfers, Device.raise_transfers, Device.count_transfers, ite_self]
@[simp] theorem Device.logAccess_deferred (d : Device) (kind off data agent : Nat) :
    (d.logAccess kind off data agent).deferred = d.deferred := by
  simp only [Device.logAccess, apply_ite Device.deferred, Device.setWords_deferred, Device.raise_deferred, Device.count_deferred, ite_self]
@[simp] theorem Device.logAccess_replayAsked (d : Device) (kind off data agent : Nat) :
    (d.logAccess kind off data agent).replayAsked = d.replayAsked := by
  simp only [Device.logAccess, apply_ite Device.replayAsked, Device.setWords_replayAsked, Device.raise_replayAsked, Device.count_replayAsked, ite_self]
@[simp] theorem Device.logAccess_heat (d : Device) (kind off data agent : Nat) :
    (d.logAccess kind off data agent).heat = d.heat := by
  simp only [Device.logAccess, apply_ite Device.heat, Device.setWords_heat, Device.raise_heat, Device.count_heat, ite_self]
@[simp] theorem Device.logAccess_power (d : Device) (kind off data agent : Nat) :
    (d.logAccess kind off data agent).power = d.power := by
  simp only [Device.logAccess, apply_ite Device.power, Device.setWords_power, Device.raise_power, Device.count_power, ite_self]
@[simp] theorem Device.logAccess_fabric (d : Device) (kind off data agent : Nat) :
    (d.logAccess kind off data agent).fabric = d.fabric := by
  simp only [Device.logAccess, apply_ite Device.fabric, Device.setWords_fabric, Device.raise_fabric, Device.count_fabric, ite_self]
@[simp] theorem Device.logAccess_mesh (d : Device) (kind off data agent : Nat) :
    (d.logAccess kind off data agent).mesh = d.mesh := by
  simp only [Device.logAccess, apply_ite Device.mesh, Device.setWords_mesh, Device.raise_mesh, Device.count_mesh, ite_self]
@[simp] theorem Device.logAccess_serving (d : Device) (kind off data agent : Nat) :
    (d.logAccess kind off data agent).serving = d.serving := by
  simp only [Device.logAccess, apply_ite Device.serving, Device.setWords_serving, Device.raise_serving, Device.count_serving, ite_self]
@[simp] theorem Device.logAccess_sec (d : Device) (kind off data agent : Nat) :
    (d.logAccess kind off data agent).sec = d.sec := by
  simp only [Device.logAccess, apply_ite Device.sec, Device.setWords_sec, Device.raise_sec, Device.count_sec, ite_self]
@[simp] theorem Device.logAccess_commits (d : Device) (kind off data agent : Nat) :
    (d.logAccess kind off data agent).commits = d.commits := by
  simp only [Device.logAccess, apply_ite Device.commits, Device.setWords_commits, Device.raise_commits, Device.count_commits, ite_self]
@[simp] theorem Device.logAccess_mems (d : Device) (kind off data agent : Nat) :
    (d.logAccess kind off data agent).mems = d.mems := by
  simp only [Device.logAccess, apply_ite Device.mems, Device.setWords_mems, Device.raise_mems, Device.count_mems, ite_self]
@[simp] theorem Device.logAccess_billet (d : Device) (kind off data agent : Nat) :
    (d.logAccess kind off data agent).billet = d.billet := by
  simp only [Device.logAccess, apply_ite Device.billet, Device.setWords_billet, Device.raise_billet, Device.count_billet, ite_self]
@[simp] theorem Device.logAccess_hk (d : Device) (kind off data agent : Nat) : (d.logAccess kind off data agent).hk = d.hk := by
  simp only [Device.logAccess, apply_ite Device.hk, Device.setWords_hk, Device.raise_hk, Device.count_hk, ite_self]
@[simp] theorem Device.logAccess_rom (d : Device) (kind off data agent : Nat) :
    (d.logAccess kind off data agent).rom = d.rom := by
  simp only [Device.logAccess, apply_ite Device.rom, Device.setWords_rom, Device.raise_rom, Device.count_rom, ite_self]
@[simp] theorem Device.logAccess_work (d : Device) (kind off data agent : Nat) :
    (d.logAccess kind off data agent).work = d.work := by
  simp only [Device.logAccess, apply_ite Device.work, Device.setWords_work, Device.raise_work, Device.count_work, ite_self]
@[simp] theorem Device.logAccess_bht (d : Device) (kind off data agent : Nat) :
    (d.logAccess kind off data agent).bht = d.bht := by
  simp only [Device.logAccess, apply_ite Device.bht, Device.setWords_bht, Device.raise_bht, Device.count_bht, ite_self]
@[simp] theorem Device.logAccess_free (d : Device) (kind off data agent : Nat) :
    (d.logAccess kind off data agent).free = d.free := by
  simp only [Device.logAccess, apply_ite Device.free, Device.setWords_free, Device.raise_free, Device.count_free, ite_self]

end Sys2Proof.Machine
end

