-- ==== Sys2Proof/Laws/Tables.lean ====
section
/-! SUPPORT. Laws of sparse tables and sorted sets. -/

namespace Sys2Proof.Machine

/-- Reading the key just written. -/
@[simp] theorem smapFind_set_same {α : Type} (m : SMap α) (i : Nat) (v : α) : smapFind (smapSet m i v) i = some v := by
  induction m with
  | nil => simp [smapSet, smapFind]
  | cons e m ih =>
    obtain ⟨k, w⟩ := e
    simp only [smapSet]
    split
    · simp [smapFind]
    · split
      · simp [smapFind]
      · simp [smapFind, *]

/-- Reading another key than the one written. -/
theorem smapFind_set_other {α : Type} (m : SMap α) {i j : Nat} (v : α) (h : j ≠ i) :
    smapFind (smapSet m i v) j = smapFind m j := by
  induction m with
  | nil => simp [smapSet, smapFind, h]
  | cons e m ih =>
    obtain ⟨k, w⟩ := e
    simp only [smapSet]
    split
    · simp [smapFind, h]
    · split
      · rename_i h1 h2
        subst h2
        simp [smapFind, h]
      · simp [smapFind, ih]

@[simp] theorem smapGet_set_same {α : Type} (m : SMap α) (d : α) (i : Nat) (v : α) : smapGet (smapSet m i v) d i = v := by
  simp [smapGet]

theorem smapGet_set_other {α : Type} (m : SMap α) (d : α) {i j : Nat} (v : α) (h : j ≠ i) :
    smapGet (smapSet m i v) d j = smapGet m d j := by
  simp [smapGet, smapFind_set_other m v h]

/-- Reading the key just taken out. -/
@[simp] theorem smapFind_erase_same {α : Type} (m : SMap α) (i : Nat) : smapFind (smapErase m i) i = none := by
  induction m with
  | nil => rfl
  | cons e m ih =>
    obtain ⟨k, w⟩ := e
    simp only [smapErase] at ih ⊢
    rw [List.filter_cons]
    by_cases h : k = i
    · simp [h, ih]
    · simp [h, smapFind, Ne.symm h, ih]

/-- Reading another key than the one taken out. -/
theorem smapFind_erase_other {α : Type} (m : SMap α) {i j : Nat} (h : j ≠ i) : smapFind (smapErase m i) j = smapFind m j := by
  induction m with
  | nil => rfl
  | cons e m ih =>
    obtain ⟨k, w⟩ := e
    simp only [smapErase] at ih ⊢
    rw [List.filter_cons]
    by_cases hk : k = i
    · subst hk
      simp [smapFind, h, ih]
    · simp [hk, smapFind, ih]

end Sys2Proof.Machine
end

