-- ==== Sys2Proof/Laws/Memory.lean ====
section
/-! SUPPORT. Laws of memory: every memory operation keeps the canonical form, and what a byte reads as after it. -/

namespace Sys2Proof.Machine

/-! ### The canonical form as a property of lists -/

/-- Rising cells are cells in strict order of address, none below the bound and none zero. -/
theorem risingCells_iff (b : Nat) (l : List Host.Cell) :
    risingCells b l = true ↔ l.Pairwise (fun c e => c.1 < e.1) ∧ ∀ c ∈ l, b ≤ c.1 ∧ c.2 ≠ 0 := by
  induction l generalizing b with
  | nil => simp [risingCells]
  | cons c l ih =>
    obtain ⟨k, v⟩ := c
    simp only [risingCells, Bool.and_eq_true, decide_eq_true_eq, bne_iff_ne, ne_eq, ih, List.pairwise_cons, List.mem_cons,
      forall_eq_or_imp]
    constructor
    · rintro ⟨⟨h1, h2⟩, h3, h4⟩
      refine ⟨⟨fun e he => ?_, h3⟩, ⟨h1, h2⟩, fun e he => ⟨?_, (h4 e he).2⟩⟩
      · exact Nat.lt_of_succ_le (h4 e he).1
      · exact Nat.le_trans h1 (Nat.le_of_succ_le (h4 e he).1)
    · rintro ⟨⟨h1, h2⟩, h3, h4⟩
      exact ⟨h3, h2, fun e he => ⟨Nat.succ_le_of_lt (h1 e he), (h4 e he).2⟩⟩

/-- Rising numbers are numbers in strict order, none below the bound. -/
theorem rising_iff (b : Nat) (l : List Nat) : rising b l = true ↔ l.Pairwise (· < ·) ∧ ∀ k ∈ l, b ≤ k := by
  induction l generalizing b with
  | nil => simp [rising]
  | cons k l ih =>
    simp only [rising, Bool.and_eq_true, decide_eq_true_eq, ih, List.pairwise_cons, List.mem_cons, forall_eq_or_imp]
    constructor
    · rintro ⟨h1, h2, h3⟩
      exact ⟨⟨fun e he => Nat.lt_of_succ_le (h3 e he), h2⟩, h1, fun e he => Nat.le_trans h1 (Nat.le_of_succ_le (h3 e he))⟩
    · rintro ⟨⟨h1, h2⟩, h3, _⟩
      exact ⟨h3, h2, fun e he => Nat.succ_le_of_lt (h1 e he)⟩

/-- The canonical form, component by component. -/
theorem Memory.wf_iff (m : Memory) :
    m.wf = true ↔ risingCells 0 m.bytes = true ∧ rising 0 m.valid = true ∧ rising 0 m.poison = true := by
  simp [Memory.wf, and_assoc]

/-- Cells that a filter keeps stay canonical. -/
theorem risingCells_filter {l : List Host.Cell} (f : Host.Cell → Bool) (h : risingCells 0 l = true) :
    risingCells 0 (l.filter f) = true := by
  rw [risingCells_iff] at h ⊢
  exact ⟨h.1.filter f, fun c hc => h.2 c (List.mem_filter.1 hc).1⟩

/-- Numbers that a filter keeps stay rising. -/
theorem rising_filter {l : List Nat} (f : Nat → Bool) (h : rising 0 l = true) : rising 0 (l.filter f) = true := by
  rw [rising_iff] at h ⊢
  exact ⟨h.1.filter f, fun _ _ => Nat.zero_le _⟩

/-- A sorted set has exactly its elements and the one added. -/
theorem mem_setInsert {l : List Nat} {i k : Nat} : k ∈ setInsert l i ↔ k = i ∨ k ∈ l := by
  induction l with
  | nil => simp [setInsert]
  | cons e l ih =>
    simp only [setInsert]
    split
    · simp
    · split
      · rename_i h
        subst h
        simp
      · simp only [List.mem_cons, ih, or_left_comm]

/-- A sorted set with an element added is rising. -/
theorem rising_setInsert {l : List Nat} {b : Nat} (i : Nat) (hb : b ≤ i) (h : rising b l = true) :
    rising b (setInsert l i) = true := by
  induction l generalizing b with
  | nil => simp [setInsert, rising, hb]
  | cons e l ih =>
    simp only [rising, Bool.and_eq_true, decide_eq_true_eq] at h
    simp only [setInsert]
    split
    · rename_i hi
      simp [rising, hb, h.2, Nat.succ_le_of_lt hi]
    · split
      · simp [rising, h.1, h.2]
      · rename_i h1 h2
        simp [rising, h.1, ih (b := e + 1) (by omega) h.2]

/-- A sorted set with several elements added has exactly those. -/
theorem mem_setInserts {l new : List Nat} {k : Nat} : k ∈ setInserts l new ↔ k ∈ new ∨ k ∈ l := by
  induction new generalizing l with
  | nil => simp [setInserts]
  | cons i new ih =>
    simp only [setInserts, List.foldl_cons] at ih ⊢
    rw [ih, mem_setInsert, List.mem_cons, or_assoc, or_left_comm]

theorem rising_setInserts {l : List Nat} (new : List Nat) (h : rising 0 l = true) : rising 0 (setInserts l new) = true := by
  induction new generalizing l with
  | nil => exact h
  | cons i new ih => exact ih (rising_setInsert i (Nat.zero_le i) h)

/-! ### Splicing -/

/-- The cells of some bytes lie in their range, in order, none zero. -/
theorem cellsFrom_spec (a : Nat) (l : List Byte) :
    (cellsFrom a l).Pairwise (fun c e => c.1 < e.1) ∧ ∀ c ∈ cellsFrom a l, a ≤ c.1 ∧ c.1 < a + l.length ∧ c.2 ≠ 0 := by
  induction l generalizing a with
  | nil => simp [cellsFrom]
  | cons b l ih =>
    obtain ⟨h1, h2⟩ := ih (a + 1)
    simp only [cellsFrom, List.length_cons]
    split
    · exact ⟨h1, fun c hc => ⟨by have := (h2 c hc).1; omega, by have := (h2 c hc).2.1; omega, (h2 c hc).2.2⟩⟩
    · rename_i hb
      refine ⟨List.pairwise_cons.2 ⟨fun c hc => (h2 c hc).1, h1⟩, fun c hc => ?_⟩
      rcases List.mem_cons.1 hc with rfl | hc
      · exact ⟨Nat.le_refl a, by omega, hb⟩
      · exact ⟨by have := (h2 c hc).1; omega, by have := (h2 c hc).2.1; omega, (h2 c hc).2.2⟩

/-- Canonical cells with a range replaced are canonical. -/
theorem risingCells_splice {l : List Host.Cell} (a : Nat) (data : List Byte) (h : risingCells 0 l = true) :
    risingCells 0 (splice l a data) = true := by
  rw [risingCells_iff] at h ⊢
  obtain ⟨h1, h2⟩ := cellsFrom_spec a data
  refine ⟨?_, fun c hc => ⟨Nat.zero_le _, ?_⟩⟩
  · simp only [splice, List.pairwise_append, List.mem_append, List.mem_filter, decide_eq_true_eq]
    refine ⟨⟨h.1.filter _, h1, fun c hc e he => ?_⟩, h.1.filter _, fun c hc e he => ?_⟩
    · have := (h2 e he).1
      omega
    · rcases hc with hc | hc
      · omega
      · have := (h2 c hc).2.1
        omega
  · simp only [splice, List.mem_append, List.mem_filter] at hc
    rcases hc with (hc | hc) | hc
    · exact (h.2 c hc.1).2
    · exact (h2 c hc).2.2
    · exact (h.2 c hc.1).2

/-- A key that no entry has is not found. -/
theorem smapFind_none {α : Type} {l : SMap α} {x : Nat} (h : ∀ c ∈ l, c.1 ≠ x) : smapFind l x = none := by
  induction l with
  | nil => rfl
  | cons c l ih =>
    obtain ⟨k, v⟩ := c
    have hk : x ≠ k := fun e => h (k, v) (by simp) e.symm
    simp [smapFind, hk, ih (fun c hc => h c (by simp [hc]))]

theorem smapFind_append {α : Type} (l m : SMap α) (x : Nat) : smapFind (l ++ m) x = (smapFind l x).or (smapFind m x) := by
  induction l with
  | nil => rfl
  | cons c l ih =>
    obtain ⟨k, v⟩ := c
    simp only [List.cons_append, smapFind]
    split <;> simp [ih]

/-- A filter by key keeps what it keeps and hides the rest. -/
theorem smapFind_filter {α : Type} (l : SMap α) (f : Nat → Bool) (x : Nat) :
    smapFind (l.filter (fun c => f c.1)) x = if f x then smapFind l x else none := by
  induction l with
  | nil => simp [smapFind]
  | cons c l ih =>
    obtain ⟨k, v⟩ := c
    simp only [List.filter_cons]
    by_cases hx : x = k
    · subst hx
      by_cases hf : f x <;> simp [hf, smapFind, ih]
    · by_cases hk : f k <;> simp [hk, smapFind, hx, ih]

/-- The cells of some bytes hold each byte at its address. -/
theorem smapGet_cellsFrom (a : Nat) (l : List Byte) (x : Nat) :
    smapGet (cellsFrom a l) 0 x = if a ≤ x ∧ x < a + l.length then l.getD (x - a) 0 else 0 := by
  induction l generalizing a with
  | nil => simp [cellsFrom, smapGet, smapFind]
  | cons b l ih =>
    by_cases hx : x = a
    · subst hx
      rw [if_pos ⟨Nat.le_refl x, by simp⟩]
      by_cases hb : b = 0
      · have h0 : smapGet (cellsFrom (x + 1) l) 0 x = 0 := by
          rw [ih, if_neg (by omega)]
        simpa [cellsFrom, hb] using h0
      · simp only [cellsFrom, if_neg hb, smapGet, smapFind]
        simp
    · have step : smapGet (cellsFrom a (b :: l)) 0 x = smapGet (cellsFrom (a + 1) l) 0 x := by
        by_cases hb : b = 0
        · simp only [cellsFrom, if_pos hb]
        · simp only [cellsFrom, if_neg hb, smapGet, smapFind, if_neg hx]
      rw [step, ih]
      by_cases h : a ≤ x ∧ x < a + (b :: l).length
      · have h' : a + 1 ≤ x ∧ x < a + 1 + l.length := by simp at h; omega
        rw [if_pos h, if_pos h', show x - a = (x - (a + 1)) + 1 by omega, List.getD_cons_succ]
      · have h' : ¬(a + 1 ≤ x ∧ x < a + 1 + l.length) := by simp at h; omega
        rw [if_neg h, if_neg h']

/-- What an address reads as after a splice. -/
theorem smapGet_splice (l : List Host.Cell) (a : Nat) (data : List Byte) (x : Nat) :
    smapGet (splice l a data) 0 x = if a ≤ x ∧ x < a + data.length then data.getD (x - a) 0 else smapGet l 0 x := by
  have hc := smapGet_cellsFrom a data x
  have h2 := (cellsFrom_spec a data).2
  simp only [smapGet, splice, smapFind_append] at hc ⊢
  rw [smapFind_filter l (fun k => decide (k < a)), smapFind_filter l (fun k => decide (a + data.length ≤ k))]
  by_cases h : a ≤ x ∧ x < a + data.length
  · rw [if_pos h] at hc ⊢
    have e1 : ¬x < a := by omega
    have e2 : ¬a + data.length ≤ x := by omega
    simpa [e1, e2] using hc
  · rw [if_neg h]
    have hn : smapFind (cellsFrom a data) x = none := smapFind_none (fun c hc => by
      have := h2 c hc
      omega)
    by_cases e1 : x < a
    · have e2 : ¬a + data.length ≤ x := by omega
      simp [hn, e1, e2]
    · have e2 : a + data.length ≤ x := by omega
      simp [hn, e1, e2]

/-! ### Every memory operation keeps the canonical form -/

theorem Memory.wf_poisonGranule {m : Memory} (g : Nat) (h : m.wf = true) : (m.poisonGranule g).wf = true := by
  rw [Memory.wf_iff] at h ⊢
  exact ⟨risingCells_splice _ _ h.1, h.2.1, rising_setInsert g (Nat.zero_le g) h.2.2⟩

theorem Memory.wf_poisonGranules {m : Memory} (gs : List Nat) (h : m.wf = true) : (gs.foldl Memory.poisonGranule m).wf = true := by
  induction gs generalizing m with
  | nil => exact h
  | cons g l ih => exact ih (Memory.wf_poisonGranule g h)

theorem Memory.wf_write {m : Memory} (a : Nat) (data : List Byte) (arrives : List Nat) (h : m.wf = true) :
    (m.write a data arrives).wf = true := by
  refine Memory.wf_poisonGranules _ ?_
  rw [Memory.wf_iff] at h ⊢
  exact ⟨risingCells_splice _ _ h.1, rising_setInserts _ h.2.1, rising_setInserts _ (rising_filter _ h.2.2)⟩

theorem Memory.wf_clear {m : Memory} (lo hi : Nat) (h : m.wf = true) : (m.clear lo hi).wf = true := by
  rw [Memory.wf_iff] at h ⊢
  exact ⟨risingCells_filter _ h.1, rising_filter _ h.2.1, rising_filter _ h.2.2⟩

/-- The canonical form does not depend on the codeword errors and the writebacks. -/
theorem Memory.wf_ecc (m : Memory) (e : SMap Ecc) (w : List Writeback) : ({ m with ecc := e, writebacks := w } : Memory).wf = m.wf := rfl

@[simp] theorem Memory.wf_arise (m : Memory) (faults : EccFaults) : (m.arise faults).wf = m.wf := rfl

theorem Memory.wf_post {m : Memory} (page g : Nat) (h : m.wf = true) : (m.post page g).wf = true := by
  simp only [Memory.post]
  split
  · exact h
  · exact h

theorem Memory.wf_clearMapGranule {m : Memory} (lo hi : Nat) (g : Nat × Nat) (h : m.wf = true) :
    (m.clearMapGranule lo hi g).wf = true := by
  unfold Memory.clearMapGranule
  induction (List.range 8) generalizing m with
  | nil => exact h
  | cons i l ih =>
    refine ih ?_
    dsimp only
    split
    · exact Memory.wf_clear _ _ h
    · exact h

theorem Memory.wf_clearStores {m : Memory} (cores : List Nat) (h : m.wf = true) : (m.clearStores cores).wf = true := by
  unfold Memory.clearStores
  induction cores generalizing m with
  | nil => exact h
  | cons c l ih => exact ih (Memory.wf_clear _ _ h)

theorem Memory.wf_empty : ({} : Memory).wf = true := rfl
theorem State.wf_reset_mem : State.reset.part.mem.wf = true := rfl

/-! ### Reads through the codeword decoder -/

theorem Part.wf_decodeWord {p : Part} (k : Nat) (h : p.mem.wf = true) : (p.decodeWord k).mem.wf = true := by
  simp only [Part.decodeWord]
  split
  · exact h
  · split
    · exact Memory.wf_post _ _ h
    · exact Memory.wf_poisonGranule _ h
    · exact Memory.wf_poisonGranule _ h
    · exact h

theorem Part.wf_decodeWords {p : Part} (l : List Nat) (h : p.mem.wf = true) : (l.foldl Part.decodeWord p).mem.wf = true := by
  induction l generalizing p with
  | nil => exact h
  | cons k l ih => exact ih (Part.wf_decodeWord k h)

theorem Part.wf_touch {p : Part} (a n : Nat) (h : p.mem.wf = true) : (p.touch a n).mem.wf = true := by
  unfold Part.touch
  split
  · exact h
  · exact Part.wf_decodeWords _ h

theorem Part.wf_touchAll {p : Part} (l : List (Nat × Nat)) (h : p.mem.wf = true) : (p.touchAll l).mem.wf = true := by
  unfold Part.touchAll
  induction l generalizing p with
  | nil => exact h
  | cons r l ih => exact ih (Part.wf_touch _ _ h)

/-- A read of a range without codeword errors changes nothing. -/
theorem Part.touch_clean (p : Part) (a n : Nat) (h : p.mem.ecc = []) : p.touch a n = p := by
  simp [Part.touch, Memory.errorsIn, Memory.errorsOf, h]

/-! ### What a byte reads as -/

/-- A byte of a poisoned granule reads zero, and every other byte as before. -/
theorem Memory.byte_poisonGranule (m : Memory) (g x : Nat) : (m.poisonGranule g).byte x = if x / 64 = g then 0 else m.byte x := by
  simp only [Memory.byte, Memory.poisonGranule, smapGet_splice, List.length_replicate]
  by_cases h : x / 64 = g
  · have h' : 64 * g ≤ x ∧ x < 64 * g + 64 := by omega
    rw [if_pos h, if_pos h', List.getD_eq_getElem?_getD, List.getElem?_replicate]
    split <;> rfl
  · have h' : ¬(64 * g ≤ x ∧ x < 64 * g + 64) := by omega
    rw [if_neg h, if_neg h']

/-- A byte outside the granules that are stored as poisoned keeps its value. -/
theorem Memory.byte_poisonGranules (m : Memory) (gs : List Nat) {x : Nat} (h : x / 64 ∉ gs) :
    (gs.foldl Memory.poisonGranule m).byte x = m.byte x := by
  induction gs generalizing m with
  | nil => rfl
  | cons g l ih =>
    rw [List.foldl_cons, ih _ (fun hx => h (List.mem_cons_of_mem _ hx)), Memory.byte_poisonGranule, if_neg]
    exact fun e => h (e ▸ List.mem_cons_self)

/-- A byte that no write reaches keeps its value, whatever else is poisoned, unless its granule arrives poisoned in part. -/
theorem Memory.byte_write_other (m : Memory) (a : Nat) (data : List Byte) (arrives : List Nat) {x : Nat}
    (h : ¬(a ≤ x ∧ x < a + data.length)) (hp : arrives.contains (x / 64) = false) :
    (m.write a data arrives).byte x = m.byte x := by
  simp only [Memory.write]
  rw [Memory.byte_poisonGranules]
  · simp only [Memory.byte, smapGet_splice, zeroPoison, List.length_map, List.length_zipIdx]
    rw [if_neg h]
  · intro hx
    rw [List.mem_filter] at hx
    have := hx.2
    rw [hp] at this
    simp at this

/-- A cleared byte reads zero, and every other byte as before. -/
theorem Memory.byte_clear (m : Memory) (lo hi x : Nat) : (m.clear lo hi).byte x = if 64 * lo ≤ x ∧ x < 64 * hi then 0 else m.byte x := by
  simp only [Memory.byte, Memory.clear, smapGet]
  rw [smapFind_filter m.bytes (fun k => decide (k < 64 * lo) || decide (64 * hi ≤ k))]
  by_cases h : 64 * lo ≤ x ∧ x < 64 * hi
  · have : ¬(x < 64 * lo) ∧ ¬(64 * hi ≤ x) := by omega
    simp [h, this]
  · have : x < 64 * lo ∨ 64 * hi ≤ x := by omega
    simp [h, this]

end Sys2Proof.Machine
end

