-- ==== Sys2Proof/Laws/Operations.lean ====
section
/-! SUPPORT. Laws of the shared operations: writes by processors, frames, and writes of engines to memory. -/

namespace Sys2Proof.Machine

/-! ### Register writes (R536) -/

theorem Device.written_processor {a : Nat} (d : Device) (f : Device → Device) (h : isProcessor a = true) : d.written a f = f d := by
  simp [Device.written, h]
theorem Device.written_other {a : Nat} (d : Device) (f : Device → Device) (h : isProcessor a = false) : d.written a f = d := by
  simp [Device.written, h]
theorem Part.written_processor {a : Nat} (p : Part) (f : Part → Part) (h : isProcessor a = true) : p.written a f = f p := by
  simp [Part.written, h]
theorem Part.written_other {a : Nat} (p : Part) (f : Part → Part) (h : isProcessor a = false) : p.written a f = p := by
  simp [Part.written, h]

/-! ### Frames (R423 to R429) -/

/-- A frame for this module acts on what the port leaves. -/
theorem Device.onFrame_mine {d : Device} {p : Nat} {f : MeshHdr} {c : Cell} (act : Device → Device) (h : (d.intake p f c).1 = true) :
    d.onFrame p f c act = act (d.intake p f c).2 := by
  simp [Device.onFrame, h]

/-- Any other frame does not act. -/
theorem Device.onFrame_other {d : Device} {p : Nat} {f : MeshHdr} {c : Cell} (act : Device → Device) (h : (d.intake p f c).1 = false) :
    d.onFrame p f c act = (d.intake p f c).2 := by
  simp [Device.onFrame, h]

/-! ### Writes of engines keep the canonical form -/

/-- A fold of steps that each keep the canonical form keeps it. -/
theorem Part.wf_foldl {α : Type} (f : Part → α → Part) (hf : ∀ p x, p.mem.wf = true → (f p x).mem.wf = true) (l : List α) {p : Part}
    (h : p.mem.wf = true) : (l.foldl f p).mem.wf = true := by
  induction l generalizing p with
  | nil => exact h
  | cons x l ih => exact ih (hf p x h)

theorem Part.wf_writePieces {p : Part} (a : Nat) (data : List Byte) (poison : List Nat) (h : p.mem.wf = true) :
    (p.writePieces a data poison).mem.wf = true := by
  unfold Part.writePieces
  refine Part.wf_foldl _ (fun q x hq => ?_) _ h
  dsimp only
  split
  · exact Memory.wf_write _ _ _ hq
  · exact hq

theorem Part.wf_put {p : Part} (a : Nat) (data : List Byte) (poisoned : Bool) (agent : Nat) (h : p.mem.wf = true) :
    (p.put a data poisoned agent).mem.wf = true := by
  simp only [Part.put]
  split
  · split <;> exact h
  · split
    · exact Part.wf_writePieces _ _ _ h
    · split
      · exact Memory.wf_write _ _ _ h
      · exact h

theorem Part.wf_patch {p : Part} (a : Nat) (data : List Byte) (h : p.mem.wf = true) : (p.patch a data).mem.wf = true :=
  Part.wf_writePieces _ _ _ (Part.wf_touch _ _ h)

theorem Part.wf_seal {p : Part} (a header tenant format source : Nat) (h : p.mem.wf = true) :
    (p.seal a header tenant format source).mem.wf = true :=
  Part.wf_patch _ _ h

end Sys2Proof.Machine
end

