-- ==== Sys2Proof/Laws/Registers.lean ====
section
/-! SUPPORT. Reading a register, a core, an anvil or a tick counter after an update. -/

namespace Sys2Proof.Machine

/-! ### A register after a write -/

/-- The word just written. -/
@[simp] theorem Device.get_set_same (d : Device) (off v : Nat) : (d.set off v).get off = v % 2 ^ 32 := by
  simp [Device.get, Device.set]

/-- Another word than the one written. -/
theorem Device.get_set_other (d : Device) {off off' : Nat} (v : Nat) (h : off' ≠ off) : (d.set off v).get off' = d.get off' := by
  simp only [Device.get, Device.set, smapFind_set_other _ _ h]

/-- A word is below 2^32 once it has been written. -/
theorem Device.get_set_lt (d : Device) (off v : Nat) : (d.set off v).get off < 2 ^ 32 := by
  rw [Device.get_set_same]; exact Nat.mod_lt _ (by decide)

/-- The counter just grown (R94). -/
@[simp] theorem Device.get_count_same (d : Device) (off n : Nat) : (d.count off n).get off = satAdd (d.get off) n := by
  rw [Device.count, Device.get_set_same]
  exact Nat.mod_eq_of_lt (Nat.lt_of_le_of_lt (Nat.min_le_right _ _) (by decide))

/-- Another word than the counter. -/
theorem Device.get_count_other (d : Device) {off off' : Nat} (n : Nat) (h : off' ≠ off) :
    (d.count off n).get off' = d.get off' := Device.get_set_other d _ h

/-- The core just set, and another core. -/
@[simp] theorem Device.core_setCore_same (d : Device) (c : Nat) (x : CoreState) : (d.setCore c x).core c = x := by
  simp [Device.core, Device.setCore]
theorem Device.core_setCore_other (d : Device) {c c' : Nat} (x : CoreState) (h : c' ≠ c) : (d.setCore c x).core c' = d.core c' := by
  simp [Device.core, Device.setCore, smapGet_set_other _ _ _ h]
@[simp] theorem Device.core_onCore_same (d : Device) (c : Nat) (f : CoreState → CoreState) :
    (d.onCore c f).core c = f (d.core c) := by
  simp [Device.onCore]
theorem Device.core_onCore_other (d : Device) {c c' : Nat} (f : CoreState → CoreState) (h : c' ≠ c) :
    (d.onCore c f).core c' = d.core c' := Device.core_setCore_other d _ h

/-- The anvil just set, and another anvil. -/
@[simp] theorem Device.anvil_setAnvil_same (d : Device) (u : Nat) (x : AnvilState) : (d.setAnvil u x).anvil u = x := by
  simp [Device.anvil, Device.setAnvil]
theorem Device.anvil_setAnvil_other (d : Device) {u u' : Nat} (x : AnvilState) (h : u' ≠ u) :
    (d.setAnvil u x).anvil u' = d.anvil u' := by
  simp [Device.anvil, Device.setAnvil, smapGet_set_other _ _ _ h]

/-! ### After Device.set -/

@[simp] theorem Device.set_core (d : Device) (off v : Nat) (c' : Nat) : (d.set off v).core c' = d.core c' := rfl
@[simp] theorem Device.set_anvil (d : Device) (off v : Nat) (u' : Nat) : (d.set off v).anvil u' = d.anvil u' := rfl
@[simp] theorem Device.set_tick (d : Device) (off v : Nat) (p' : Nat) : (d.set off v).tick p' = d.tick p' := rfl

/-! ### After Device.set64 -/

@[simp] theorem Device.set64_core (d : Device) (off v : Nat) (c' : Nat) : (d.set64 off v).core c' = d.core c' := rfl
@[simp] theorem Device.set64_anvil (d : Device) (off v : Nat) (u' : Nat) : (d.set64 off v).anvil u' = d.anvil u' := rfl
@[simp] theorem Device.set64_tick (d : Device) (off v : Nat) (p' : Nat) : (d.set64 off v).tick p' = d.tick p' := rfl

/-! ### After Device.setBits -/

@[simp] theorem Device.setBits_core (d : Device) (off hi lo v : Nat) (c' : Nat) :
    (d.setBits off hi lo v).core c' = d.core c' := rfl
@[simp] theorem Device.setBits_anvil (d : Device) (off hi lo v : Nat) (u' : Nat) :
    (d.setBits off hi lo v).anvil u' = d.anvil u' := rfl
@[simp] theorem Device.setBits_tick (d : Device) (off hi lo v : Nat) (p' : Nat) :
    (d.setBits off hi lo v).tick p' = d.tick p' := rfl

/-! ### After Device.count -/

@[simp] theorem Device.count_core (d : Device) (off n : Nat) (c' : Nat) : (d.count off n).core c' = d.core c' := rfl
@[simp] theorem Device.count_anvil (d : Device) (off n : Nat) (u' : Nat) : (d.count off n).anvil u' = d.anvil u' := rfl
@[simp] theorem Device.count_tick (d : Device) (off n : Nat) (p' : Nat) : (d.count off n).tick p' = d.tick p' := rfl

/-! ### After Device.count64 -/

@[simp] theorem Device.count64_core (d : Device) (off n : Nat) (c' : Nat) : (d.count64 off n).core c' = d.core c' := rfl
@[simp] theorem Device.count64_anvil (d : Device) (off n : Nat) (u' : Nat) : (d.count64 off n).anvil u' = d.anvil u' := rfl
@[simp] theorem Device.count64_tick (d : Device) (off n : Nat) (p' : Nat) : (d.count64 off n).tick p' = d.tick p' := rfl

/-! ### After Device.resetRange -/

@[simp] theorem Device.resetRange_core (d : Device) (lo hi : Nat) (c' : Nat) : (d.resetRange lo hi).core c' = d.core c' := rfl
@[simp] theorem Device.resetRange_anvil (d : Device) (lo hi : Nat) (u' : Nat) : (d.resetRange lo hi).anvil u' = d.anvil u' := rfl
@[simp] theorem Device.resetRange_tick (d : Device) (lo hi : Nat) (p' : Nat) : (d.resetRange lo hi).tick p' = d.tick p' := rfl

/-! ### After Device.elapse -/

@[simp] theorem Device.elapse_get (d : Device) (n : Nat) (off' : Nat) : (d.elapse n).get off' = d.get off' := rfl
@[simp] theorem Device.elapse_core (d : Device) (n : Nat) (c' : Nat) : (d.elapse n).core c' = d.core c' := rfl
@[simp] theorem Device.elapse_anvil (d : Device) (n : Nat) (u' : Nat) : (d.elapse n).anvil u' = d.anvil u' := rfl

/-! ### After Device.reach -/

@[simp] theorem Device.reach_get (d : Device) (t : Nat) (off' : Nat) : (d.reach t).get off' = d.get off' := rfl
@[simp] theorem Device.reach_core (d : Device) (t : Nat) (c' : Nat) : (d.reach t).core c' = d.core c' := rfl
@[simp] theorem Device.reach_anvil (d : Device) (t : Nat) (u' : Nat) : (d.reach t).anvil u' = d.anvil u' := rfl

/-! ### After Device.send -/

@[simp] theorem Device.send_get (d : Device) (o : Out) (off' : Nat) : (d.send o).get off' = d.get off' := rfl
@[simp] theorem Device.send_core (d : Device) (o : Out) (c' : Nat) : (d.send o).core c' = d.core c' := rfl
@[simp] theorem Device.send_anvil (d : Device) (o : Out) (u' : Nat) : (d.send o).anvil u' = d.anvil u' := rfl
@[simp] theorem Device.send_tick (d : Device) (o : Out) (p' : Nat) : (d.send o).tick p' = d.tick p' := rfl

/-! ### After Device.drawn -/

@[simp] theorem Device.drawn_get (d : Device) (off' : Nat) : (d.drawn).get off' = d.get off' := rfl
@[simp] theorem Device.drawn_core (d : Device) (c' : Nat) : (d.drawn).core c' = d.core c' := rfl
@[simp] theorem Device.drawn_anvil (d : Device) (u' : Nat) : (d.drawn).anvil u' = d.anvil u' := rfl
@[simp] theorem Device.drawn_tick (d : Device) (p' : Nat) : (d.drawn).tick p' = d.tick p' := rfl

/-! ### After Device.setCore -/

@[simp] theorem Device.setCore_get (d : Device) (c : Nat) (x : CoreState) (off' : Nat) :
    (d.setCore c x).get off' = d.get off' := rfl
@[simp] theorem Device.setCore_anvil (d : Device) (c : Nat) (x : CoreState) (u' : Nat) :
    (d.setCore c x).anvil u' = d.anvil u' := rfl
@[simp] theorem Device.setCore_tick (d : Device) (c : Nat) (x : CoreState) (p' : Nat) : (d.setCore c x).tick p' = d.tick p' := rfl

/-! ### After Device.onCore -/

@[simp] theorem Device.onCore_get (d : Device) (c : Nat) (f : CoreState → CoreState) (off' : Nat) :
    (d.onCore c f).get off' = d.get off' := rfl
@[simp] theorem Device.onCore_anvil (d : Device) (c : Nat) (f : CoreState → CoreState) (u' : Nat) :
    (d.onCore c f).anvil u' = d.anvil u' := rfl
@[simp] theorem Device.onCore_tick (d : Device) (c : Nat) (f : CoreState → CoreState) (p' : Nat) :
    (d.onCore c f).tick p' = d.tick p' := rfl

/-! ### After Device.setAnvil -/

@[simp] theorem Device.setAnvil_get (d : Device) (u : Nat) (x : AnvilState) (off' : Nat) :
    (d.setAnvil u x).get off' = d.get off' := rfl
@[simp] theorem Device.setAnvil_core (d : Device) (u : Nat) (x : AnvilState) (c' : Nat) :
    (d.setAnvil u x).core c' = d.core c' := rfl
@[simp] theorem Device.setAnvil_tick (d : Device) (u : Nat) (x : AnvilState) (p' : Nat) :
    (d.setAnvil u x).tick p' = d.tick p' := rfl

/-! ### After Device.setFlash -/

@[simp] theorem Device.setFlash_get (d : Device) (u : Nat) (x : AnvilFlash) (off' : Nat) :
    (d.setFlash u x).get off' = d.get off' := rfl
@[simp] theorem Device.setFlash_core (d : Device) (u : Nat) (x : AnvilFlash) (c' : Nat) :
    (d.setFlash u x).core c' = d.core c' := rfl
@[simp] theorem Device.setFlash_anvil (d : Device) (u : Nat) (x : AnvilFlash) (u' : Nat) :
    (d.setFlash u x).anvil u' = d.anvil u' := rfl
@[simp] theorem Device.setFlash_tick (d : Device) (u : Nat) (x : AnvilFlash) (p' : Nat) :
    (d.setFlash u x).tick p' = d.tick p' := rfl

/-! ### After Device.onHist -/

@[simp] theorem Device.onHist_get (d : Device) (f : History → History) (off' : Nat) : (d.onHist f).get off' = d.get off' := rfl
@[simp] theorem Device.onHist_core (d : Device) (f : History → History) (c' : Nat) : (d.onHist f).core c' = d.core c' := rfl
@[simp] theorem Device.onHist_anvil (d : Device) (f : History → History) (u' : Nat) : (d.onHist f).anvil u' = d.anvil u' := rfl
@[simp] theorem Device.onHist_tick (d : Device) (f : History → History) (p' : Nat) : (d.onHist f).tick p' = d.tick p' := rfl

/-! ### After Device.onSync -/

@[simp] theorem Device.onSync_get (d : Device) (f : SyncUnit → SyncUnit) (off' : Nat) : (d.onSync f).get off' = d.get off' := rfl
@[simp] theorem Device.onSync_core (d : Device) (f : SyncUnit → SyncUnit) (c' : Nat) : (d.onSync f).core c' = d.core c' := rfl
@[simp] theorem Device.onSync_anvil (d : Device) (f : SyncUnit → SyncUnit) (u' : Nat) : (d.onSync f).anvil u' = d.anvil u' := rfl
@[simp] theorem Device.onSync_tick (d : Device) (f : SyncUnit → SyncUnit) (p' : Nat) : (d.onSync f).tick p' = d.tick p' := rfl

/-! ### After Device.onHeat -/

@[simp] theorem Device.onHeat_get (d : Device) (f : HeatCtl → HeatCtl) (off' : Nat) : (d.onHeat f).get off' = d.get off' := rfl
@[simp] theorem Device.onHeat_core (d : Device) (f : HeatCtl → HeatCtl) (c' : Nat) : (d.onHeat f).core c' = d.core c' := rfl
@[simp] theorem Device.onHeat_anvil (d : Device) (f : HeatCtl → HeatCtl) (u' : Nat) : (d.onHeat f).anvil u' = d.anvil u' := rfl
@[simp] theorem Device.onHeat_tick (d : Device) (f : HeatCtl → HeatCtl) (p' : Nat) : (d.onHeat f).tick p' = d.tick p' := rfl

/-! ### After Device.onPower -/

@[simp] theorem Device.onPower_get (d : Device) (f : PowerCtl → PowerCtl) (off' : Nat) :
    (d.onPower f).get off' = d.get off' := rfl
@[simp] theorem Device.onPower_core (d : Device) (f : PowerCtl → PowerCtl) (c' : Nat) : (d.onPower f).core c' = d.core c' := rfl
@[simp] theorem Device.onPower_anvil (d : Device) (f : PowerCtl → PowerCtl) (u' : Nat) :
    (d.onPower f).anvil u' = d.anvil u' := rfl
@[simp] theorem Device.onPower_tick (d : Device) (f : PowerCtl → PowerCtl) (p' : Nat) : (d.onPower f).tick p' = d.tick p' := rfl

/-! ### After Device.onServing -/

@[simp] theorem Device.onServing_get (d : Device) (f : Serving → Serving) (off' : Nat) :
    (d.onServing f).get off' = d.get off' := rfl
@[simp] theorem Device.onServing_core (d : Device) (f : Serving → Serving) (c' : Nat) : (d.onServing f).core c' = d.core c' := rfl
@[simp] theorem Device.onServing_anvil (d : Device) (f : Serving → Serving) (u' : Nat) :
    (d.onServing f).anvil u' = d.anvil u' := rfl
@[simp] theorem Device.onServing_tick (d : Device) (f : Serving → Serving) (p' : Nat) : (d.onServing f).tick p' = d.tick p' := rfl

/-! ### After Device.onCommits -/

@[simp] theorem Device.onCommits_get (d : Device) (f : CommitCtl → CommitCtl) (off' : Nat) :
    (d.onCommits f).get off' = d.get off' := rfl
@[simp] theorem Device.onCommits_core (d : Device) (f : CommitCtl → CommitCtl) (c' : Nat) :
    (d.onCommits f).core c' = d.core c' := rfl
@[simp] theorem Device.onCommits_anvil (d : Device) (f : CommitCtl → CommitCtl) (u' : Nat) :
    (d.onCommits f).anvil u' = d.anvil u' := rfl
@[simp] theorem Device.onCommits_tick (d : Device) (f : CommitCtl → CommitCtl) (p' : Nat) :
    (d.onCommits f).tick p' = d.tick p' := rfl

/-! ### After Device.onMems -/

@[simp] theorem Device.onMems_get (d : Device) (die : Nat) (f : MemCtl → MemCtl) (off' : Nat) :
    (d.onMems die f).get off' = d.get off' := rfl
@[simp] theorem Device.onMems_core (d : Device) (die : Nat) (f : MemCtl → MemCtl) (c' : Nat) :
    (d.onMems die f).core c' = d.core c' := rfl
@[simp] theorem Device.onMems_anvil (d : Device) (die : Nat) (f : MemCtl → MemCtl) (u' : Nat) :
    (d.onMems die f).anvil u' = d.anvil u' := rfl
@[simp] theorem Device.onMems_tick (d : Device) (die : Nat) (f : MemCtl → MemCtl) (p' : Nat) :
    (d.onMems die f).tick p' = d.tick p' := rfl

/-! ### After Device.onBillet -/

@[simp] theorem Device.onBillet_get (d : Device) (f : BilletCtl → BilletCtl) (off' : Nat) :
    (d.onBillet f).get off' = d.get off' := rfl
@[simp] theorem Device.onBillet_core (d : Device) (f : BilletCtl → BilletCtl) (c' : Nat) :
    (d.onBillet f).core c' = d.core c' := rfl
@[simp] theorem Device.onBillet_anvil (d : Device) (f : BilletCtl → BilletCtl) (u' : Nat) :
    (d.onBillet f).anvil u' = d.anvil u' := rfl
@[simp] theorem Device.onBillet_tick (d : Device) (f : BilletCtl → BilletCtl) (p' : Nat) :
    (d.onBillet f).tick p' = d.tick p' := rfl

/-! ### After Device.onHk -/

@[simp] theorem Device.onHk_get (d : Device) (f : Housekeeping → Housekeeping) (off' : Nat) :
    (d.onHk f).get off' = d.get off' := rfl
@[simp] theorem Device.onHk_core (d : Device) (f : Housekeeping → Housekeeping) (c' : Nat) : (d.onHk f).core c' = d.core c' := rfl
@[simp] theorem Device.onHk_anvil (d : Device) (f : Housekeeping → Housekeeping) (u' : Nat) :
    (d.onHk f).anvil u' = d.anvil u' := rfl
@[simp] theorem Device.onHk_tick (d : Device) (f : Housekeeping → Housekeeping) (p' : Nat) : (d.onHk f).tick p' = d.tick p' := rfl

/-! ### After Device.onWork -/

@[simp] theorem Device.onWork_get (d : Device) (f : SecWork → SecWork) (off' : Nat) : (d.onWork f).get off' = d.get off' := rfl
@[simp] theorem Device.onWork_core (d : Device) (f : SecWork → SecWork) (c' : Nat) : (d.onWork f).core c' = d.core c' := rfl
@[simp] theorem Device.onWork_anvil (d : Device) (f : SecWork → SecWork) (u' : Nat) : (d.onWork f).anvil u' = d.anvil u' := rfl
@[simp] theorem Device.onWork_tick (d : Device) (f : SecWork → SecWork) (p' : Nat) : (d.onWork f).tick p' = d.tick p' := rfl

/-! ### After Device.onBht -/

@[simp] theorem Device.onBht_get (d : Device) (f : BhtState → BhtState) (off' : Nat) : (d.onBht f).get off' = d.get off' := rfl
@[simp] theorem Device.onBht_core (d : Device) (f : BhtState → BhtState) (c' : Nat) : (d.onBht f).core c' = d.core c' := rfl
@[simp] theorem Device.onBht_anvil (d : Device) (f : BhtState → BhtState) (u' : Nat) : (d.onBht f).anvil u' = d.anvil u' := rfl
@[simp] theorem Device.onBht_tick (d : Device) (f : BhtState → BhtState) (p' : Nat) : (d.onBht f).tick p' = d.tick p' := rfl

/-! ### After Device.onPort -/

@[simp] theorem Device.onPort_get (d : Device) (p : Nat) (f : PortState → PortState) (off' : Nat) :
    (d.onPort p f).get off' = d.get off' := rfl
@[simp] theorem Device.onPort_core (d : Device) (p : Nat) (f : PortState → PortState) (c' : Nat) :
    (d.onPort p f).core c' = d.core c' := rfl
@[simp] theorem Device.onPort_anvil (d : Device) (p : Nat) (f : PortState → PortState) (u' : Nat) :
    (d.onPort p f).anvil u' = d.anvil u' := rfl
@[simp] theorem Device.onPort_tick (d : Device) (p : Nat) (f : PortState → PortState) (p' : Nat) :
    (d.onPort p f).tick p' = d.tick p' := rfl

/-! ### After Device.onConverter -/

@[simp] theorem Device.onConverter_get (d : Device) (p : Nat) (f : Converter → Converter) (off' : Nat) :
    (d.onConverter p f).get off' = d.get off' := rfl
@[simp] theorem Device.onConverter_core (d : Device) (p : Nat) (f : Converter → Converter) (c' : Nat) :
    (d.onConverter p f).core c' = d.core c' := rfl
@[simp] theorem Device.onConverter_anvil (d : Device) (p : Nat) (f : Converter → Converter) (u' : Nat) :
    (d.onConverter p f).anvil u' = d.anvil u' := rfl
@[simp] theorem Device.onConverter_tick (d : Device) (p : Nat) (f : Converter → Converter) (p' : Nat) :
    (d.onConverter p f).tick p' = d.tick p' := rfl

/-! ### After Device.onDie -/

@[simp] theorem Device.onDie_get (d : Device) (die : Nat) (f : DieServing → DieServing) (off' : Nat) :
    (d.onDie die f).get off' = d.get off' := rfl
@[simp] theorem Device.onDie_core (d : Device) (die : Nat) (f : DieServing → DieServing) (c' : Nat) :
    (d.onDie die f).core c' = d.core c' := rfl
@[simp] theorem Device.onDie_anvil (d : Device) (die : Nat) (f : DieServing → DieServing) (u' : Nat) :
    (d.onDie die f).anvil u' = d.anvil u' := rfl
@[simp] theorem Device.onDie_tick (d : Device) (die : Nat) (f : DieServing → DieServing) (p' : Nat) :
    (d.onDie die f).tick p' = d.tick p' := rfl

/-! ### After events and the access log -/

@[simp] theorem Device.notifyEvent_core (d : Device) (page b : Nat) (c' : Nat) : (d.notifyEvent page b).core c' = d.core c' := by
  simp [Device.core]
@[simp] theorem Device.notifyEvent_anvil (d : Device) (page b : Nat) (u' : Nat) :
    (d.notifyEvent page b).anvil u' = d.anvil u' := by
  simp [Device.anvil]
@[simp] theorem Device.notifyEvent_tick (d : Device) (page b : Nat) (p' : Nat) : (d.notifyEvent page b).tick p' = d.tick p' := by
  simp [Device.tick]
@[simp] theorem Device.raise_core (d : Device) (page b : Nat) (c' : Nat) : (d.raise page b).core c' = d.core c' := by
  simp [Device.core]
@[simp] theorem Device.raise_anvil (d : Device) (page b : Nat) (u' : Nat) : (d.raise page b).anvil u' = d.anvil u' := by
  simp [Device.anvil]
@[simp] theorem Device.raise_tick (d : Device) (page b : Nat) (p' : Nat) : (d.raise page b).tick p' = d.tick p' := by
  simp [Device.tick]
@[simp] theorem Device.capture_core (d : Device) (page : Nat) (words : List Nat) (c' : Nat) :
    (d.capture page words).core c' = d.core c' := by
  simp [Device.core]
@[simp] theorem Device.capture_anvil (d : Device) (page : Nat) (words : List Nat) (u' : Nat) :
    (d.capture page words).anvil u' = d.anvil u' := by
  simp [Device.anvil]
@[simp] theorem Device.capture_tick (d : Device) (page : Nat) (words : List Nat) (p' : Nat) :
    (d.capture page words).tick p' = d.tick p' := by
  simp [Device.tick]
@[simp] theorem Device.event_core (d : Device) (page b word0 : Nat) (rest : List Nat) (c' : Nat) :
    (d.event page b word0 rest).core c' = d.core c' := by
  simp [Device.core]
@[simp] theorem Device.event_anvil (d : Device) (page b word0 : Nat) (rest : List Nat) (u' : Nat) :
    (d.event page b word0 rest).anvil u' = d.anvil u' := by
  simp [Device.anvil]
@[simp] theorem Device.event_tick (d : Device) (page b word0 : Nat) (rest : List Nat) (p' : Nat) :
    (d.event page b word0 rest).tick p' = d.tick p' := by
  simp [Device.tick]
@[simp] theorem Device.eventSt_core (d : Device) (page b status : Nat) (rest : List Nat) (c' : Nat) :
    (d.eventSt page b status rest).core c' = d.core c' := by
  simp [Device.core]
@[simp] theorem Device.eventSt_anvil (d : Device) (page b status : Nat) (rest : List Nat) (u' : Nat) :
    (d.eventSt page b status rest).anvil u' = d.anvil u' := by
  simp [Device.anvil]
@[simp] theorem Device.eventSt_tick (d : Device) (page b status : Nat) (rest : List Nat) (p' : Nat) :
    (d.eventSt page b status rest).tick p' = d.tick p' := by
  simp [Device.tick]
@[simp] theorem Device.logAccess_core (d : Device) (kind off data agent : Nat) (c' : Nat) :
    (d.logAccess kind off data agent).core c' = d.core c' := by
  simp [Device.core]
@[simp] theorem Device.logAccess_anvil (d : Device) (kind off data agent : Nat) (u' : Nat) :
    (d.logAccess kind off data agent).anvil u' = d.anvil u' := by
  simp [Device.anvil]
@[simp] theorem Device.logAccess_tick (d : Device) (kind off data agent : Nat) (p' : Nat) :
    (d.logAccess kind off data agent).tick p' = d.tick p' := by
  simp [Device.tick]
@[simp] theorem Device.setWords_core (d : Device) (off : Nat) (l : List Nat) (c' : Nat) :
    (d.setWords off l).core c' = d.core c' := by
  simp [Device.core]
@[simp] theorem Device.setWords_anvil (d : Device) (off : Nat) (l : List Nat) (u' : Nat) :
    (d.setWords off l).anvil u' = d.anvil u' := by
  simp [Device.anvil]
@[simp] theorem Device.setWords_tick (d : Device) (off : Nat) (l : List Nat) (p' : Nat) :
    (d.setWords off l).tick p' = d.tick p' := by
  simp [Device.tick]

end Sys2Proof.Machine
end

