-- ==== Sys2Proof/Laws/Sequencer.lean ====
section
/-! SUPPORT. What the sequencer does with the word in front. -/

namespace Sys2Proof.Machine

/-- No guard holds the word, so none expires. -/
theorem Device.expireGuards_free (d : Device) (c i : Nat) (h : (d.core c).guardsOf i = []) : d.expireGuards c i = d := by
  simp [Device.expireGuards, h]

/-- A word that may issue stays in front. -/
theorem Device.advance_at {d : Device} {c w : Nat} (h : d.AtWord c w) (n : Nat) : Device.advance c n d = d := by
  cases n with
  | zero => rfl
  | succ n =>
    have hx := h.opcode
    have hs : d.wordPtr c ∉ (d.core c).poisoned := by simpa using h.sound
    simp [Device.advance, h.word, hs, h.inHeat, h.named, Device.expireGuards_free d c _ h.free, h.free, hx]

/-- The word in front is the next word whenever it is one of those asked for. -/
theorem Device.next_at {d : Device} {c w : Nat} (h : d.AtWord c w) {wanted : Nat → Bool} (hw : wanted w = true) :
    d.next c wanted = some (d.wordPtr c, w, d.wordTick c w, d.issued c w) := by
  simp [Device.next, Device.advance_at h, h.word, h.issues, hw, Device.wordTick, Device.issued]

/-- A word of another kind does not issue with the command. -/
theorem Device.next_other {d : Device} {c w : Nat} (h : d.AtWord c w) {wanted : Nat → Bool} (hw : wanted w = false) :
    d.next c wanted = none := by
  simp [Device.next, Device.advance_at h, h.word, hw]

end Sys2Proof.Machine
end

