-- ==== Sys2Proof/Machine/Lands.lean ====
section
/-! DEFINITION. The lands, and the levels' clocks, rails and budgets, as they follow from the state (R481, R502, R517, R523, R538,
R595 to R600). -/

namespace Sys2Proof.Machine

/-! ### Sites (R595 to R597) -/

/-- The sites of a SerDes lane's TXP, TXN, RXP and RXN lands, as (row, column): lane i of port p (R596). -/
def laneSites (p i : Nat) : List (Nat × Nat) :=
  let c := 8 * p + 4 + 2 * i
  [(44, c), (44, c + 1), (52, c), (52, c + 1)]

/-- The site of the test land of bus b on die n, 4 for the Phievo die (R597). -/
def testSite (b n : Nat) : Nat × Nat := (22, 10 + 2 * n + b)

/-- The lands of the management land table. -/
inductive Land where
  | pwrOk | resetInN | resetOutN | faultN | thermN | enumInN | enumOutN | bridgeSel | i3cScl | i3cSda | tck | tms | tdi | tdo | trstN
  deriving DecidableEq, Repr

/-- The site of a management land (R597). -/
def Land.site : Land → Nat × Nat
  | .pwrOk => (20, 10) | .resetInN => (20, 11) | .resetOutN => (20, 12) | .faultN => (20, 13) | .thermN => (20, 14)
  | .enumInN => (20, 15) | .enumOutN => (20, 16) | .bridgeSel => (20, 17) | .i3cScl => (20, 20) | .i3cSda => (20, 21)
  | .tck => (20, 24) | .tms => (20, 25) | .tdi => (20, 26) | .tdo => (20, 27) | .trstN => (20, 28)

/-- The land that the TAP covers: every management land but its own (R600). -/
def Land.scanned : Land → Bool
  | .tck | .tms | .tdi | .tdo | .trstN => false
  | _ => true

/-! ### Levels on lands (R481, R517, R523, R538) -/

/-- RESET_OUT_N is driven low (R517, R523). -/
def Device.resetOutLow (d : Device) : Bool := d.power.inReset

/-- An enabled event of a page that is routed to FAULT_N has not been cleared (R538). -/
def Device.eventFault (d : Device) : Bool :=
  d.regs.any (fun r => r.1 % 4096 == 0x10 && Nat.land r.2.toNat (d.get (r.1 + 4)) != 0 && bit (d.get (r.1 + 8)) 5)

/-- BOOT_STAT shows at least a step (R525). -/
def Device.booted (d : Device) (step : Nat) : Bool := !d.power.inReset && decide (step ≤ bits (d.get (pagePwr + 0x164)) 3 0)

/-- FAULT_N is low: until the firmware is verified, and then while a module fault, a quench or a routed event raises it (R43,
R483, R523, R538). -/
def Device.faultLow (d : Device) : Bool := !(d.booted 3) || d.power.fault || d.hk.stopped || d.eventFault

/-- THERM_N is low: until every powered die has had a valid reading, then while a powered die is in WARN or above, or its
reading is invalid in two successive rounds, and while the module is quenched (R481, R483, R523). -/
def Device.thermLow (d : Device) : Bool :=
  d.power.inReset || d.hk.stopped || (List.range 5).any (fun n => d.powered n &&
    (!(d.hk.seen.contains n) || decide (1 ≤ d.therm n) || decide (2 ≤ smapGet d.hk.invalid 0 n)))

/-- The transmitters of a port are in electrical idle (R420, R523). -/
def Device.txIdle (d : Device) (port : Nat) : Bool := d.power.inReset || bit (d.get (pagePort port + 0x104)) 4

/-- The I3C lands are at high impedance (R523). -/
def Device.i3cOff (d : Device) : Bool := !d.managed

/-- A die's test buses reach the analogue test lands (R495, R523). -/
def Device.testLands (d : Device) (p : Nat) : Bool := !d.power.inReset && bit (d.get (pageMon p + 0x11C)) 16

/-- TDO is driven: outside a reset, in the shift states of the TAP (R523, R600). -/
def Device.tdoDriven (d : Device) : Bool := !d.power.inReset && (d.work.tap == 4 || d.work.tap == 11)

/-- A performance level (R502): the core rail in mV, the anvils striking in a core, and the budgets in W of the anvils, of the
Camia digital part, and of the module. -/
structure LevelRow where
  rail : Nat
  anvilsPerCore : Nat
  anvils : Nat
  digital : Nat
  total : Nat
  deriving DecidableEq, Repr

/-- The levels P0 to P5 (R502). DRAM, Phievo and the bridges, oscillator and monitors take 224, 110 and 40 W at every level. -/
def levelRows : List LevelRow :=
  [⟨740, 4, 128, 340, 912⟩, ⟨700, 4, 128, 270, 836⟩, ⟨660, 3, 96, 210, 736⟩, ⟨620, 2, 64, 152, 638⟩, ⟨580, 2, 64, 104, 586⟩,
   ⟨550, 1, 32, 63, 506⟩]

/-- The core rail in mV: that of the level in force, 5 % lower under voltage stress (R502, R505, R579). -/
def Device.railLevel (d : Device) : Nat := if bit d.power.stress 0 then 703 else ((levelRows[d.perfLevel]?).map (·.rail)).getD 550

/-- The core clock in 10 MHz: that of the level in force, 5 % higher under frequency stress (R24, R579). -/
def Device.clockNow (d : Device) : Nat := if bit d.power.stress 1 then 189 else coreClock d.perfLevel

/-- The time of a rail's move between two levels, in ns: 0.1 mV in a nanosecond (R505). -/
def railMove (a b : Nat) : Nat :=
  let mv := fun l => ((levelRows[l]?).map (·.rail)).getD 550
  10 * (mv a - mv b + (mv b - mv a))

end Sys2Proof.Machine
end

