-- ==== Sys2Proof/Tests/Slice0.lean ====
section
/-! SUPPORT. The model's own tests: the refused terms of the well-formedness checks, small results whose expected values stand in
the spec or follow from its rules by hand, and for every statement with hypotheses a concrete state and operands that meet them,
clause by clause. -/

namespace Sys2Proof.Tests

open Sys2Proof.Machine

set_option Elab.async false

/-! ### Small states -/

/-- The state after reset with the device changed. -/
def mk (f : Device → Device) : State := State.reset.withDev (f State.reset.part.dev)

/-- The state after reset with registers set. -/
def regs (l : List (Nat × Nat)) : State := mk (fun d => l.foldl (fun d e => d.set e.1 e.2) d)

/-- A plan word of an opcode with TICK 0 and every class in its mask. -/
def word (op body : Nat) : Nat := op * 2 ^ 102 + 0xFFFF * 2 ^ 86 + body

/-- A device whose dies are out of reset and whose core runs a stream. -/
def runs (c : Nat) (stream : List Nat) (d : Device) : Device :=
  (({ d with power := { d.power with down := [] } }).set (pageSeq c + 0x100) 2).onCore c (fun x => { x with stream := stream })

/-- A state with a core that stands in front of a word. -/
def front (c w : Nat) (f : Device → Device := id) : State := mk (fun d => f (runs c [w] d))

/-- The check of a word in front that can be evaluated. -/
def atWordB (d : Device) (c w : Nat) : Bool :=
  (d.core c).stream[d.wordPtr c]? == some w && !((d.core c).poisoned.contains (d.wordPtr c)) && inClass w (d.cls c) &&
  wordNamed w && wOp w != opExt && (d.core c).guardsOf (d.wordPtr c) == [] && d.issues c w

theorem atWord_of_check (d : Device) (c w : Nat) (h : atWordB d c w = true) : d.AtWord c w := by
  simp only [atWordB, Bool.and_eq_true, beq_iff_eq, Bool.not_eq_true', bne_iff_ne] at h
  obtain ⟨⟨⟨⟨⟨⟨h1, h2⟩, h3⟩, h4⟩, h5⟩, h6⟩, h7⟩ := h
  exact ⟨h1, h2, h3, h4, h5, h6, h7⟩

/-- A processor of the module: the housekeeping processor of node 0. -/
def hkp : Agent := BitVec.ofNat 26 (agentId 0 2 0)

/-! ### The well-formedness checks refuse -/

theorem test_refuses_error_outside_memory : (Instr.walk 0 [(0xFF00000000, .correctable)]).wellFormed = false := by decide
theorem test_refuses_lists_off_the_die :
    (Instr.admission 1 [0x40]).wellFormed = false ∧ (Instr.cowCopyDone 0 [0x41]).wellFormed = false ∧
    (Instr.generateRecord 0 [0x6000000000]).wellFormed = false := by decide
theorem test_refuses_long_walks_of_places : (Instr.transferDone (2 ^ 32)).wellFormed = false := by decide
theorem test_refuses_too_many_pages : (Instr.shardAdmitNote 0 0 0 0 0 65537 0 0).wellFormed = false := by decide

/-- A mesh header, a data header and a BHT packet and message to start from. -/
def hdr : MeshHdr := ⟨true, false, false, 0, 1, 8, 0, 0, true, true, 0, 0⟩
def dhdr : DataHdr := ⟨0, true, true, false, false, false, 1, 0xFF, 0, 0, 0, 0, 0, 0⟩
def pkt : BhtPacket := ⟨1, 1, true, false⟩
def msg : BhtMsg := blankMsg

theorem test_refuses_short_frames :
    (Instr.dataFrame 0 hdr dhdr []).wellFormed = false ∧ (Instr.dataFrame 0 hdr { dhdr with len := 0 } []).wellFormed = false := by decide
theorem test_refuses_packets_without_number :
    (Instr.bhtClose { pkt with pn := 0 }).wellFormed = false ∧ (Instr.bhtFinish { pkt with session := 4097 } 0).wellFormed = false ∧
    (Instr.bhtAckTimer 0).wellFormed = false := by decide
theorem test_refuses_messages_out_of_width :
    (Instr.bhtWrite pkt { msg with sop := 4 }).wellFormed = false ∧ (Instr.bhtAck pkt { msg with msn := 2 ^ 32 }).wellFormed = false := by
  decide
theorem test_refuses_long_reads_and_keys :
    (Instr.storeRead 0 0 0 0x100001).wellFormed = false ∧ (Instr.bhtInit 0 0 none 0 [] 0).wellFormed = false ∧
    (Instr.bhtRetxTimeout 1 (2 ^ 32)).wellFormed = false ∧ (Instr.fetchTimeout (2 ^ 32)).wellFormed = false := by decide
theorem test_refuses_figures_and_batches :
    (Instr.trainingDone 0 [1]).wellFormed = false ∧ (Instr.programBatchStart 0 [8704]).wellFormed = false ∧
    (Instr.programBatchStart 0 [1, 1]).wellFormed = false := by decide
theorem test_refuses_stuck_cells_outside_the_anvil : (Instr.programRowStep 0 [⟨0, 544, .pos, 0⟩]).wellFormed = false := by decide
theorem test_refuses_readings_and_errors :
    (Instr.converterStepDone 0 0x80000).wellFormed = false ∧ (Instr.refMeasure [0, 0, 0, 0, 0, 0]).wellFormed = false := by decide
theorem test_refuses_widths_and_page_lists :
    (Instr.registerWrite 0 0 3 0).wellFormed = false ∧ (Instr.hkCommitSubmit [] 0 false).wellFormed = false ∧
    (Instr.proofCompare (2 ^ 32)).wellFormed = false := by decide
theorem test_accepts_plain_commands :
    (Instr.nop 0).wellFormed = true ∧ (Instr.dataFrame 0 hdr dhdr (List.replicate 64 0)).wellFormed = true := by decide

/-! ### Witnesses: steps, memory and the word in front -/

theorem witness_StepTakesTheFrontCommand :
    ({ State.reset with pending := [.trstN, .nop 0] } : State).pending = .trstN :: [.nop 0] := by decide
theorem witness_EmptyQueueLetsATickPass : State.reset.pending = [] := by decide
theorem witness_StepKeepsMemoryCanonical : State.reset.wf ∧ ∃ t, step State.reset = .next t := ⟨by decide, _, rfl⟩
theorem witness_ResetState : (0 : Nat) ≠ pagePwr + 0x140 := by decide
theorem witness_DeviceCommandsLeaveMemory :
    (Instr.trstN).leavesMemory = true ∧ ∃ t, exec .trstN State.reset = .next t := ⟨by decide, _, rfl⟩

/-- A memory with one byte, and a poisoned granule behind it. -/
def oneByte : Memory := { bytes := [(64, 7)], poison := [2] }

theorem witness_MemoryWriteReadsBack :
    oneByte.wf = true ∧ ¬(64 ≤ 63 ∧ 63 < 64 + [1].length) ∧ (64 ≤ 64 ∧ 64 < 64 + ([1] : List Byte).length) ∧
    (oneByte.write 64 [1] [1]).byte 64 = 0 ∧ (oneByte.write 128 [9] []).poison = [2] ∧
    (oneByte.write 128 (List.replicate 64 9) []).byte 191 = 9 := by decide +kernel

theorem witness_IssuingAWord :
    (front 0 (word opNop 0)).part.dev.AtWord 0 (word opNop 0) ∧ ((front 0 (word opNop 0)).part.dev.core 0).poisoned = [] ∧
    ((front 0 (word opNop 0)).part.dev.core 0).stream.length ≤ 4096 := ⟨atWord_of_check _ _ _ (by decide +kernel), by decide +kernel⟩

theorem witness_PlainWordsIssue :
    (∀ op ∈ [opNop, opHeat, opBound, opWindow], (front 511 (word op 0)).part.dev.AtWord 511 (word op 0) ∧ wOp (word op 0) = op) ∧
    (opNop = 0 ∧ opHeat = 1 ∧ opBound = 15 ∧ opWindow = 14) :=
  ⟨fun op h => ⟨atWord_of_check _ _ _ (by revert op; decide +kernel), by revert op; decide +kernel⟩, by decide⟩

theorem witness_OtherWordsWait :
    (front 0 (word opNop 0)).part.dev.AtWord 0 (word opNop 0) ∧
    (∀ op ∈ [opHeat, opPass, opDrain, opAbort, opFull, opVec, opXfer, opTree, opEpi, opAttn, opSample, opWindow, opBound, opSignal, opWait],
      wOp (word opNop 0) ≠ op) ∧
    (front 0 (word opHeat 0)).part.dev.AtWord 0 (word opHeat 0) ∧ wOp (word opHeat 0) ≠ opNop :=
  ⟨atWord_of_check _ _ _ (by decide +kernel), by decide +kernel, atWord_of_check _ _ _ (by decide +kernel), by decide +kernel⟩

/-- A TREE word of ROLE 1, and the part of the peer that it names. -/
def treeAddWord : Nat := word opTree (2 ^ 85)
def peerPart : TreePart := { node := 0x1FF, core := 0, entry := 0, shape := 0, absent := false, main := [], side := [], clampN := 0, zeroN := 0, nzN := 0, heavyN := 0, chkN := 0, kN := 0, conds := [], poison := [] }

/-- A device in which core 0 holds words of the given queues. -/
def queues (e : List Queued) (t : List TreeOp) (d : Device) : Device :=
  d.onCore 0 (fun x => { x with epiQ := e, treeQ := t, fullQ := e, vecQ := e })

/-- The device in which the word in front of core 0 has issued. -/
def after0 (w : Nat) (f : Device → Device := id) : CoreState := ((front 0 w f).part.dev.issued 0 w).core 0

theorem witness_QueuedWords :
    (∀ op ∈ [opFull, opVec, opEpi, opAttn, opTree], (front 0 (word op 0)).part.dev.AtWord 0 (word op 0) ∧ wOp (word op 0) = op) ∧
    (let x := after0 (word opEpi 0)
     ¬ 5 ≤ x.fullQ.length ∧ ¬ 2 ≤ x.epiQ.length ∧ ¬ 3 ≤ x.attnQ.length ∧ x.treeFull = false) ∧
    (let q : List Queued := List.replicate 5 ⟨0, 0, false⟩
     let t : List TreeOp := List.replicate 3 ⟨0, 0, none⟩
     atWordB (front 0 treeAddWord (queues q t)).part.dev 0 treeAddWord = true ∧
     5 ≤ (after0 treeAddWord (queues q t)).fullQ.length ∧ 5 ≤ (after0 treeAddWord (queues q t)).vecQ.length ∧
     3 ≤ (after0 treeAddWord (queues q t)).epiQ.length ∧ (after0 treeAddWord (queues q t)).treeFull = true) ∧
    (0 % 16 = 0 ∧ (1 : Nat) % 16 ≠ 0) ∧
    (treeWord (word opTree 0)).add = false ∧ (treeWord treeAddWord).add = true ∧ wOp treeAddWord = opTree ∧
    (let s := front 0 treeAddWord (fun d => d.onCore 0 (fun x => { x with parts := [peerPart] }))
     atWordB s.part.dev 0 treeAddWord = true ∧ ((s.part.dev.issued 0 treeAddWord).core 0).treeFull = false ∧
     ((s.part.dev.issued 0 treeAddWord).core 0).parts.find? ((s.part.dev.issued 0 treeAddWord).partFor (treeWord treeAddWord)) = some peerPart) ∧
    (let s := front 0 treeAddWord
     atWordB s.part.dev 0 treeAddWord = true ∧ ((s.part.dev.issued 0 treeAddWord).core 0).treeFull = false ∧
     ((s.part.dev.issued 0 treeAddWord).core 0).parts.find? ((s.part.dev.issued 0 treeAddWord).partFor (treeWord treeAddWord)) = none) :=
  ⟨fun op h => ⟨atWord_of_check _ _ _ (by revert op; decide +kernel), by revert op; decide +kernel⟩, by decide +kernel⟩

/-- A SIGNAL word of an operation for the own module. -/
def sigWord (sop : Nat) : Nat := word opSignal (0x1FF * 2 ^ 77 + sop * 2 ^ 61)

theorem witness_SignalWords :
    ∀ sop ∈ [1, 2, 3], (front 0 (sigWord sop)).part.dev.AtWord 0 (sigWord sop) ∧ wOp (sigWord sop) = opSignal ∧
      (signalWord (sigWord sop)).sop = sop :=
  fun sop h => ⟨atWord_of_check _ _ _ (by revert sop; decide +kernel), by revert sop; decide +kernel⟩

/-- A WAIT word of a condition with GUARD 1, and an undecided guard that holds word 0. -/
def waitFor (cond : Nat) : Nat := word opWait (cond * 2 ^ 70)
def guard0 : Guard := ⟨5, 0, 0, false, 9, 0, 1, none⟩

theorem witness_WaitsAndGuards :
    (∀ cond ∈ [0, 1, 2], (front 0 (waitFor cond)).part.dev.AtWord 0 (waitFor cond) ∧ wOp (waitFor cond) = opWait ∧
      (waitWord (waitFor cond)).cond = cond) ∧
    (∀ status ∈ [stOk, stTimeout], ∀ late ∈ [true, false],
      let o : WaitOutcome := ⟨State.reset.part.dev.seqAgent 0, 5, 0, 0, false, 9, status⟩
      let s := mk (fun d => ({ runs 0 [word opNop 0] d with
        ticks := d.ticks.map (fun _ => if late then 5 else 0), sync := { d.sync with outcomes := [o] } } : Device).onCore 0
        (fun x => { x with guards := [guard0] }))
      let d := s.part.dev
      d.sync.outcomes = [o] ∧ o.agent = d.seqAgent 0 ∧ (d.core 0).guards = [guard0] ∧ guard0.obj = o.obj ∧ guard0.cond = o.cond ∧
      guard0.value = o.value ∧ guard0.consume = o.consume ∧ guard0.deadline = o.deadline ∧ guard0.met = none ∧
      d.guardLate 0 guard0 = late) ∧
    (let w := word opNop 0
     let s := front 0 w (fun d => d.onCore 0 (fun x => { x with guards := [guard0] }))
     let d := s.part.dev
     let i := d.wordPtr 0
     (d.core 0).stream[i]? = some w ∧ i + 1 < 8192 ∧ (d.core 0).stream[i + 1]? = none ∧ i ∉ (d.core 0).poisoned ∧
     inClass w (d.cls 0) = true ∧ wordNamed w = true ∧ d.issues 0 w = true ∧ (d.core 0).guards = [guard0] ∧ guard0.met = none ∧
     guard0.lo ≤ i ∧ i < guard0.hi) :=
  ⟨fun cond h => ⟨atWord_of_check _ _ _ (by revert cond; decide +kernel), by revert cond; decide +kernel⟩, by decide +kernel⟩

/-! ### Witnesses: passes, joins, drains -/

/-- An issue of one token, a run of it, and a pass done. -/
def issue1 : PassIssue := { serial := 0, entry := 0, join := 0, slot := 0, tileId := 0, mode := 0, split := false, codes := [[]] }
def run1 : PassRun := { issue := issue1 }
def done1 : PassDone := { issue := issue1, token := 0, half := 0, sums := [], exact := [], squares := [], ok := true, heavy := 0, clamps := 0 }

/-- A state with an anvil of core 0. -/
def anvil0 (x : AnvilState) (trims : Nat) : State := mk (fun d => (d.setAnvil 67 x).set (pageAnv 67 + 0x100) trims)

theorem witness_PassesReachAndStartAnvils :
    ((front 0 (word opPass 0)).part.dev.AtWord 0 (word opPass 0) ∧ wOp (word opPass 0) = opPass ∧ (front 0 (word opPass 0)).part.mem.ecc = []) ∧
    (∀ v ∈ [(2 ^ 31, true), (0, false)], let s := anvil0 { queue := some issue1 } v.1
      (s.part.dev.anvil 67).run = none ∧ (s.part.dev.anvil 67).queue = some issue1 ∧ s.part.dev.trimValid 67 = v.2) ∧
    ((anvil0 { run := some run1 } 0).part.dev.anvil 67).run.isSome = true ∧ ((anvil0 {} 0).part.dev.anvil 67).queue = none :=
  ⟨⟨atWord_of_check _ _ _ (by decide +kernel), by decide +kernel⟩, by decide +kernel⟩

theorem witness_AnvilStrikesAPlane :
    ((anvil0 { run := some run1 } 0).part.dev.anvil 67).run = some run1 ∧ run1.plane + 1 < planesOf run1.issue.mode ∧
    (let r := { run1 with plane := planesOf 0 - 1 }
     ((anvil0 { run := some r } 0).part.dev.anvil 67).run = some r ∧ planesOf r.issue.mode ≤ r.plane + 1) ∧
    (planeOut {} 0 0 0 0 0 0 false []).1 = [] := by decide +kernel

/-- A tile, and a join of one pass that has delivered into it. -/
def tile0 : Tile := { tileId := 0, region := 0, fmt := 1, shape := 0, transposed := false, inFmt := 0, mode := 0, split := false, rt := 0, thr := 0, openIdx := 0, amax := [0], sx := [0], scol := .one }
def join0 (l : List SlotState) : Join := { entry := 0, join := 0, tileId := 0, idx := 0, shape := 0, mode := 0, last := false, found := true, tick := 0, n := 1, seen := 1, slots := l }

theorem witness_ResultsJoinAndPromote :
    ((anvil0 { tree := [done1] } 0).part.dev.anvil 67).tree = done1 :: [] ∧ ((anvil0 {} 0).part.dev.anvil 67).tree = [] ∧
    (let j := join0 [.delivered, .waiting, .waiting, .waiting]
     let x : CoreState := { joins := [j], tiles := [(0, tile0)] }
     x.readyJoin = some j ∧ j.found = true ∧ j.slots.all (fun q => q == .waiting || q == .delivered) = true ∧ x.tile j.entry = some tile0 ∧
     j.last = false) ∧
    (let j := join0 [.failed 4, .waiting, .waiting, .waiting]
     let x : CoreState := { joins := [j] }
     x.readyJoin = some j ∧ SlotState.failed 4 ∈ j.slots ∧ x.tile j.entry = none) ∧
    (let j := join0 [.failed 4, .waiting, .waiting, .waiting]
     let x : CoreState := { joins := [j], tiles := [(0, tile0)] }
     x.readyJoin = some j ∧ x.tile j.entry = some tile0 ∧ tile0.tileId = j.tileId) := by decide +kernel

/-- An ABORT word of logical anvil 0, and drains in the core. -/
def abortWord : Nat := word opAbort (2 ^ 22)
def drain0 : Drain := { obj := 0, sigen := true, abort := false, parts := [(0, 1)] }

theorem witness_DrainsAndAborts :
    (∀ w ∈ [word opDrain 0, abortWord], (front 0 w).part.dev.AtWord 0 w) ∧ wOp (word opDrain 0) = opDrain ∧ wOp abortWord = opAbort ∧
    ((front 0 abortWord).part.dev.issued 0 abortWord).maskAnvils 0 (drainWord abortWord).mask ≠ [] ∧
    (let w := word opAbort 0
     atWordB (front 0 w).part.dev 0 w = true ∧ ((front 0 w).part.dev.issued 0 w).maskAnvils 0 (drainWord w).mask = []) ∧
    (State.reset.part.dev.core 0).drains.find? (fun q => !q.abort && q.parts.all State.reset.part.dev.partDrained) = none ∧
    (let s := mk (fun d => d.onCore 0 (fun x => { x with drains := [drain0] }))
     (s.part.dev.core 0).drains.find? (fun q => !q.abort && q.parts.all s.part.dev.partDrained) = some drain0) ∧
    ((anvil0 { aborts := 1 } 0).part.dev.anvil 67).aborts ≠ 0 ∧ ((anvil0 {} 0).part.dev.anvil 67).aborts = 0 :=
  ⟨fun w h => atWord_of_check _ _ _ (by revert w; decide +kernel), by decide +kernel⟩

/-! ### Witnesses: the engines -/

/-- A FULL word of a SUB, a queued one, and a core with it at the head of its queue and a tile of its entry. -/
def fullOf (sub : Nat) : Queued := ⟨0, word opFull (sub * 2 ^ 82), false⟩
def tileT : Tile := { tile0 with transposed := true }
def fuller (sub : Nat) (tiles : SMap Tile) : State := mk (fun d => d.onCore 0 (fun x => { x with fullQ := [fullOf sub], tiles := tiles }))

theorem witness_FullerOperations :
    (∀ sub ∈ [0, 1, 2, 3, 4, 6, 7], ∀ t ∈ [tile0, tileT], let s := fuller sub [(0, t)]
      let f := fullWord (fullOf sub).word
      headWaiting (s.part.dev.core 0).fullQ = some (fullOf sub) ∧ (s.part.dev.core 0).tileShaped f.tile f.shape = some t ∧
      s.part.mem.ecc = [] ∧ f.sub = sub) ∧
    (headWaiting ((fuller 5 []).part.dev.core 0).fullQ = some (fullOf 5) ∧ (fuller 5 []).part.mem.ecc = [] ∧
      (fullWord (fullOf 5).word).sub = 5) ∧
    (tileT.hasSide = true ∧ ({ tile0 with fmt := 0 } : Tile).hasSide = false ∧ tileT.transposed = true ∧ tile0.transposed = false) ∧
    (let q : Queued := { fullOf 0 with ran := true }
     ((mk (fun d => d.onCore 0 (fun x => { x with fullQ := [q] }))).part.dev.core 0).fullQ = q :: [] ∧ q.ran = true) := by decide +kernel

theorem witness_FullerOperations_without_a_tile :
    ∀ sub ∈ [0, 1, 2, 3, 4, 6, 7], let s := fuller sub []
      let f := fullWord (fullOf sub).word
      headWaiting (s.part.dev.core 0).fullQ = some (fullOf sub) ∧ (s.part.dev.core 0).tileShaped f.tile f.shape = none ∧ f.sub = sub := by
  decide +kernel

/-- A VEC word of a VOP with COUNT 1 and FP32 codes, and a core with it at the head of its queue. -/
def vecOf (vop : Nat) : Queued := ⟨0, word opVec (vop * 2 ^ 80 + 2 ^ 13 + 5 * 2 ^ 9 + 5 * 2 ^ 5), false⟩
def vector (vop : Nat) : State := mk (fun d => d.onCore 0 (fun x => { x with vecQ := [vecOf vop] }))

theorem witness_VectorOutputs :
    ∀ vop ∈ List.range 0x17, headWaiting ((vector vop).part.dev.core 0).vecQ = some (vecOf vop) ∧ (vector vop).part.mem.ecc = [] ∧
      (vecWord (vecOf vop).word).vop = vop := by decide +kernel

theorem witness_VectorReductionsAndConversion :
    (∀ vop ∈ [0x17, 0x18, 0x19, 0x1A, 0x1B], headWaiting ((vector vop).part.dev.core 0).vecQ = some (vecOf vop) ∧
      (vector vop).part.mem.ecc = [] ∧ (vecWord (vecOf vop).word).vop = vop) ∧
    (reduce fAdd (List.replicate 64 (0x3F800000 : U32))).isSome = true ∧
    (let q : Queued := { vecOf 0 with ran := true }
     ((mk (fun d => d.onCore 0 (fun x => { x with vecQ := [q] }))).part.dev.core 0).vecQ = q :: [] ∧ q.ran = true) := by decide +kernel

/-- An XFER word of one granule from the core's DRAM, its EXT word, and a transfer in flight. -/
def xferOf : Nat := word opXfer (2 ^ 30)
def extOf : Nat := word opExt (0x1FF * 2 ^ 77)
def transfer0 : Transfer := { core := 0, engine := 0, node := 0x1FF, dst := 0, data := List.replicate 64 7, poison := [], absent := false, obj := 0, sop := 1, defer := false, idx := 0 }
def inFlight (t : Transfer) : State := mk (fun d => { d with transfers := [t] })

theorem witness_TransfersMoveTheirBytes :
    (let s := mk (fun d => runs 0 [xferOf, extOf] d)
     s.part.dev.AtWord 0 xferOf ∧ wOp xferOf = opXfer ∧ (s.part.dev.issued 0 xferOf).extWord 0 = some extOf ∧
     ((((s.part.dev.issued 0 xferOf).count (pageSeq 0 + 0x114)).bump 0).engineFull (engineOf 0 (xferWord xferOf extOf).eng)) = false) ∧
    (let s := mk (fun d => { runs 0 [xferOf, extOf] d with transfers := List.replicate 64 { transfer0 with engine := engineOf 0 (xferWord xferOf extOf).eng } })
     atWordB s.part.dev 0 xferOf = true ∧
     ((((s.part.dev.issued 0 xferOf).count (pageSeq 0 + 0x114)).bump 0).engineFull (engineOf 0 (xferWord xferOf extOf).eng)) = true) ∧
    (let s := front 0 xferOf
     atWordB s.part.dev 0 xferOf = true ∧ (s.part.dev.issued 0 xferOf).extWord 0 = none) ∧
    (∀ t ∈ [transfer0, { transfer0 with data := [1] }, { transfer0 with node := 7 }], let d := (inFlight t).part.dev
      d.transfers[0]? = some t ∧ d.oldestOf t = 0 ∧ d.waitsRouter t = false ∧ d.inReset t.dst t.data.length = false) ∧
    (let d := (inFlight transfer0).part.dev
     d.ownModule transfer0.node = true ∧ d.ownModule 7 = false ∧ isNarrow 0 transfer0.data.length = false ∧
     isNarrow 0 ([1] : List Byte).length = true ∧ d.reachable 0 = true) ∧
    (let d := (mk (fun d => { d with power := { d.power with coreResets := [⟨3, 0, 0, 0, true⟩] }, transfers := [transfer0] })).part.dev
     d.waitsRouter transfer0 = false ∧ d.inReset 0 64 = true) ∧
    (let t := { transfer0 with dst := 0x8000000000 }
     let d := (mk (fun d => { d with transfers := [t], fabric := { d.fabric with closing := [(0, [])] } })).part.dev
     d.transfers[0]? = some t ∧ d.oldestOf t = 0 ∧ d.waitsRouter t = true) :=
  ⟨⟨atWord_of_check _ _ _ (by decide +kernel), by decide +kernel⟩, by decide +kernel⟩

theorem witness_TransferLandsByteForByte :
    State.reset.part.mem.wf = true ∧ 64 % 64 = 0 ∧ transfer0.data.length % 64 = 0 ∧
    State.reset.part.dev.allHere 64 (transfer0.data.length / 64) = true ∧ ¬(64 ≤ 63 ∧ 63 < 64 + transfer0.data.length) ∧
    (64 ≤ 64 ∧ 64 < 64 + transfer0.data.length) ∧ (64 ≤ 127 ∧ 127 < 64 + transfer0.data.length) := by decide +kernel

/-- A TREE word in the adder's queue, an EPI word, and an epilogue's output. -/
def treeOp0 (part : Option TreePart) : TreeOp := ⟨0, word opTree (if part.isSome then 2 ^ 85 else 0), part⟩
def epiOf (gated : Bool) : Queued := ⟨0, word opEpi (if gated then 2 ^ 73 else 0), false⟩
def epiOut0 : EpiOut := ⟨[0], 0, 0, [], []⟩

def poisonPart : TreePart := { peerPart with poison := [0] }

theorem witness_TreeAndEpilogues :
    (∀ o ∈ [treeOp0 none, treeOp0 (some peerPart), treeOp0 (some poisonPart), { treeOp0 (some peerPart) with part := none }],
      let s := mk (fun d => d.onCore 0 (fun x => { x with treeQ := [o], tiles := [(0, tile0)] }))
      let q := treeWord o.word
      let d0 := s.part.dev.setCore 0 { s.part.dev.core 0 with treeQ := [] }
      (s.part.dev.core 0).treeQ = o :: [] ∧ (s.part.dev.core 0).treeReady o = true ∧ (d0.core 0).tileShaped q.tile q.shape = some tile0 ∧
      (((d0.settle 0 q.tile o.idx opTree).core 0).tile q.tile).isSome = true ∧ peerPart.poison = [] ∧ poisonPart.poison ≠ []) ∧
    (∀ gated ∈ [false, true],
      let s := mk (fun d => d.onCore 0 (fun x => { x with epiQ := [epiOf gated], tiles := [(0, tile0)] }))
      let w := epiWord (epiOf gated).word
      (s.part.dev.core 0).epiQ = epiOf gated :: [] ∧ (s.part.dev.core 0).epiReady (epiOf gated) = true ∧ s.part.mem.ecc = [] ∧
      (s.part.dev.core 0).tileShaped w.tile w.shape = some tile0 ∧ w.gated = gated ∧
      (s.part.dev.core 0).tileShaped w.tile2 w.shape = some tile0) ∧
    ((mk (fun d => d.onCore 0 (fun x => { x with epiOut := [epiOut0] }))).part.dev.core 0).epiOut = epiOut0 :: [] := by decide +kernel
/-! ### Witnesses: the sync unit -/

/-- A state whose sync unit holds object 5, and a processor's command for it. -/
def unit5 (x : SyncObj) (arg0 : Nat := 0) (waiters : List Waiter := []) : State := mk (fun d =>
  ((({ d with sync := { d.sync with objs := [(5, x)], waiters := waiters } } : Device).set (pageSync + 0x140) 5).set (pageSync + 0x144) arg0))
def counterOf (v : Nat) : SyncObj := { val := .counter v }
def flagOf (b : Bool) : SyncObj := { val := .flag b }
def barrierOf (pcount : Nat) (cur next : List Nat) (asc : Bool) (parent : Option (Nat × Nat)) : SyncObj :=
  { val := .barrier pcount cur next [] false asc false parent }

theorem witness_CounterAddSaturates :
    ∀ old ∈ [0, 0xFFFFFFFF], let s := unit5 (counterOf old) 1
      s.part.dev.obj 5 = some (counterOf old) ∧ old < 2 ^ 32 ∧ (∀ w ∈ s.part.dev.sync.waiters, w.obj ≠ 5) ∧
      isProcessor hkp.toNat = true ∧ s.part.dev.opObj = 5 ∧ s.part.dev.opArg0 = (1 : U32).toNat := by decide +kernel

theorem witness_FlagSetOnce :
    ∀ b ∈ [false, true], let s := unit5 (flagOf b)
      s.part.dev.obj 5 = some (flagOf b) ∧ (∀ w ∈ s.part.dev.sync.waiters, w.obj ≠ 5) ∧ isProcessor hkp.toNat = true ∧ s.part.dev.opObj = 5 := by
  decide +kernel

theorem witness_BarrierRounds :
    (∀ x ∈ [barrierOf 2 [] [] false none, barrierOf 1 [hkp.toNat] [] false none, barrierOf 1 [1] [2] false none],
      (unit5 x).part.dev.obj 5 = some x) ∧ isProcessor hkp.toNat = true ∧
    (hkp.toNat ∉ ([] : List Nat) ∧ ([] : List Nat).length + 1 < 2) ∧
    (¬(hkp.toNat ∉ [hkp.toNat] ∧ [hkp.toNat].length < 1) ∧ hkp.toNat ∉ ([] : List Nat) ∧ ([] : List Nat).length < 1) ∧
    (¬(hkp.toNat ∉ [1] ∧ [1].length < 1) ∧ ¬(hkp.toNat ∉ [2] ∧ [2].length < 1)) ∧
    (∀ parent ∈ [none, some (1, 2)], let x := barrierOf 2 [1] [] false parent
      (unit5 x).part.dev.obj 5 = some x ∧ hkp.toNat ∉ [1] ∧ [1].length + 1 = 2 ∧ ([] : List Nat).length < 2) ∧
    (let x := barrierOf 1 [1] [] true (some (1, 2))
     (unit5 x).part.dev.obj 5 = some x ∧ ([] : List Nat).length ≠ 1) := by decide +kernel

/-- A waiter on object 5. -/
def waiter5 : Waiter := ⟨5, 0, 1, false, 3, 9, 0⟩

theorem witness_WaitsAreJudged :
    ((unit5 (counterOf 1)).part.dev.obj 5 = some (counterOf 1) ∧ (counterOf 1).val = .counter 1 ∧ (1 : U32).toNat ≤ 1 ∧
      (unit5 (counterOf 1)).part.dev.tick 4 ≤ (0 : Tick).toNat) ∧
    ((unit5 (flagOf true)).part.dev.obj 5 = some (flagOf true) ∧ (flagOf true).val = .flag true) ∧
    ((unit5 (counterOf 0)).part.dev.obj 5 = some (counterOf 0) ∧ 0 < (1 : U32).toNat ∧ (unit5 (counterOf 0)).part.dev.sync.waiters.length < 4096) ∧
    ((unit5 (flagOf false)).part.dev.obj 5 = some (flagOf false) ∧ (flagOf false).val = .flag false) ∧
    (4096 ≤ (unit5 (counterOf 0) 0 (List.replicate 4096 waiter5)).part.dev.sync.waiters.length) ∧
    (let s := mk (fun _ => { (unit5 (counterOf 0)).part.dev with ticks := #v[0, 0, 0, 0, 1] })
     s.part.dev.obj 5 = some (counterOf 0) ∧ condOf (counterOf 0).val = 0 ∧ (0 : Tick).toNat < s.part.dev.tick 4) ∧
    (∀ x ∈ [.barrier 2 [] [] [] false false true none, .barrier 2 [] [] [3] false false false none, .barrier 2 [3] [] [] false false false none,
        .barrier 2 [3] [3] [] false false false none, (.barrier 2 [] [] [] false false false none : ObjVal)],
      (unit5 { val := x }).part.dev.obj 5 = some { val := x } ∧ (2 : Fin 3).val = 2 ∧ (unit5 { val := x }).part.dev.tick 4 ≤ (0 : Tick).toNat ∧
      (unit5 { val := x }).part.dev.sync.waiters.length < 4096) ∧ (3 : Agent).toNat = 3 ∧
    (let s := mk (fun _ => { (unit5 (barrierOf 2 [] [] false none)).part.dev with ticks := #v[0, 0, 0, 0, 1] })
     s.part.dev.obj 5 = some (barrierOf 2 [] [] false none) ∧ (0 : Tick).toNat < s.part.dev.tick 4) ∧
    State.reset.part.dev.obj 5 = none ∧ condOf (counterOf 0).val ≠ 1 ∧
    (unit5 (counterOf 0) 0 [waiter5]).part.dev.sync.waiters[0]? = some waiter5 := by decide +kernel

theorem witness_NoSatisfiedWaiterIsLeft :
    let d := ((unit5 (counterOf 0) 0 [waiter5]).part.dev).serve 5
    waiter5 ∈ d.sync.waiters ∧ waiter5.obj = 5 ∧ d.tick 4 ≤ waiter5.deadline ∧ d.obj 5 = some (counterOf 0) := by decide +kernel

theorem witness_SyncPageCommands :
    isProcessor hkp.toNat = true ∧
    (∀ x ∈ [counterOf 0, counterOf 1, flagOf true], (unit5 x).part.dev.obj (unit5 x).part.dev.opObj = some x ∧ condOf x.val < 2) ∧
    State.reset.part.dev.obj State.reset.part.dev.opObj = none ∧ ((0 : BitVec 4) = 0 ∧ 0xA ≤ (0xA : BitVec 4).toNat) := by decide +kernel

theorem witness_OverrunIsSticky :
    let x : SyncObj := { val := .counter 0, overrun := true }
    (unit5 x).part.dev.obj 5 = some x ∧ x.overrun = true ∧ isProcessor hkp.toNat = true ∧ (unit5 x).part.dev.opObj = 5 ∧ condOf x.val < 2 := by
  decide +kernel

/-! ### Witnesses: plans, heats, admission and requests -/

/-- A plan of one heat program of a KIND, and a state in which it is started, with more registers and heat control. -/
def entry0 (kind : Nat) : HeatEntry := ⟨0, kind, 0, [], []⟩
def plan0 (kind : Nat) : Plan := { addr := 0x1000, planId := 0, hopNs := 0, bndGap := 0, relLead := 0, levels := 32, entry := 0, totalLen := 0, heats := [entry0 kind] }
def started (kind : Nat) (f : HeatCtl → HeatCtl := id) : State :=
  mk (fun d => (d.set (pageHeat + 0x100) 2).onHeat (fun h => f { h with plan := some (plan0 kind), started := true }))

theorem witness_PlanCommands :
    (let d := (regs [(pageTb 4 + 0x108, 1)]).part.dev
     isProcessor hkp.toNat = true ∧ d.safe = false ∧ d.heat.loading = none ∧ d.heat.started = false ∧ bit (d.get (pageTb 4 + 0x108)) 0 = true) ∧
    (regs [(pagePwr + 0x160, 16)]).part.dev.safe = true ∧ State.reset.part.dev.heat.loading = none ∧
    bit (State.reset.part.dev.get (pageTb 4 + 0x108)) 0 = false ∧
    (mk (fun d => { d with power := { d.power with fault := true } })).part.dev.power.fault = true ∧
    (regs [(pageTb 4 + 0x108, 1)]).part.dev.power.fault = false ∧
    (regs [(pagePwr + 0x104, 2)]).part.dev.allAwake = false ∧ State.reset.part.dev.planRuns = false ∧
    (let s := mk (fun d => d.onHeat (fun h => { h with loading := some 0 }))
     s.part.dev.heat.loading = some 0 ∧ s.part.dev.allAwake = true ∧ s.part.mem.ecc = []) ∧
    (let d := (started 0).part.dev
     d.isRoot = true ∧ d.planRuns = true ∧ d.heat.release = none ∧ d.heat.kind ≠ 2) := by decide +kernel

/-- A release of the heat of HEAT_NUM 0 at tick 0. -/
def release0 : Release := ⟨0, 0, 0, false, false, [0]⟩
def heatRun0 (kind : Nat) : HeatRun := ⟨0, none, false, false, 0, 0, 0, entry0 kind⟩

theorem witness_HeatBoundary :
    (let s := started 0
     let n := s.part.dev.nextProgram (plan0 0)
     s.part.dev.heat.plan = some (plan0 0) ∧ s.part.dev.hist.fences.contains 0 = false ∧ s.part.mem.ecc = [] ∧
     (fetchStream s.part.mem (plan0 0) n.1 n.2 0).dead = false) ∧
    (heatRun0 0).armed = false := by decide +kernel

/-- A started plan at its release, and the module once the due commits have been applied. -/
def atStart (kind : Nat) : State := started kind (fun h => { h with release := some release0 })
def atStartPart (kind : Nat) : Part :=
  let p := ((atStart kind).part.onDev (·.reach release0.start)).applyDue release0.start false
  (if kind = 1 then p.applyDue release0.start true else p).startPrograms release0.start
def planE : Plan := { plan0 0 with heats := [] }

theorem witness_HeatBoundary_start :
    (∀ kind ∈ [0, 1, 2], let s := atStart kind
      s.part.dev.heat.plan = some (plan0 kind) ∧ s.part.dev.heat.release = some release0 ∧ s.part.dev.heat.started = true ∧
      (let p1 := (s.part.onDev (·.reach release0.start)).applyDue release0.start false
       p1.dev.heatRun (plan0 kind) release0 = some (heatRun0 kind)) ∧ ((heatRun0 kind).entry.kind = 1 ↔ kind = 1) ∧
      (atStartPart kind).dev.heatRun (plan0 kind) release0 = some (heatRun0 kind)) ∧
    (let s := mk (fun _ => (atStart 0).part.dev.onHeat (fun h => { h with plan := some planE }))
     let p1 := (s.part.onDev (·.reach release0.start)).applyDue release0.start false
     s.part.dev.heat.plan = some planE ∧ s.part.dev.heat.release = some release0 ∧ s.part.dev.heat.started = true ∧
     p1.dev.heatRun planE release0 = none ∧ (p1.startPrograms release0.start).dev.heatRun planE release0 = none) ∧
    State.reset.part.dev.heat.plan = none := by decide +kernel

/-- A device with what one die control processor holds. -/
def dieHas (f : DieServing → DieServing) (d : Device) : Device := d.onDie 0 f
def copy0 : PageCopy := ⟨3, 0, 0, 0, 0⟩
def sequence0 : Sequence := { seqId := 1, tenant := 0, die := 0, dir := 0, ovf := 0, striped := false, modelGen := 0, shard := 0, nshard := 1 }
def slotUse0 : SlotUse := { entry := 0, kind := 1, seq := 3, ntok := 1, awaited := [7] }

theorem witness_Admission :
    (∀ kind ∈ [0, 1, 2], let d := (started kind).part.dev.addSpace 0 []
      d.heat.plan = some (plan0 kind) ∧ d.heat.started = true ∧ d.heat.proposals.any (fun e => e.1 == 0) = false ∧ d.replaying = false ∧
      ∃ h, (plan0 kind).heats[0]? = some h ∧ h.kind = kind) ∧
    (let s := mk (fun _ => dieHas (fun y => { y with filled := true }) ((started 0 (fun h => { h with replays := 1 })).part.dev))
     s.part.dev.replaying = true ∧ (s.part.dev.dieServing 0).filled = true ∧ s.part.dev.heat.started = true) ∧
    (let s := mk (dieHas (fun y => { y with copies := [copy0] }))
     ((s.part.dev.addSpace 0 []).dieServing 0).copies = copy0 :: [] ∧ (s.part.dev.addSpace 0 []).sequence copy0.seq = none ∧
     ((mk (fun _ => s.part.dev.setSequence 3 sequence0)).part.dev.addSpace 0 []).sequence copy0.seq = some sequence0) ∧
    (((mk (dieHas (fun y => { y with adpNext := [4] }))).part.dev.dieServing 0).adpNext[(0 : Fin 16).val]? = some 4) ∧
    ((mk (dieHas (fun y => { y with next := [slotUse0] }))).part.dev.dieServing 0).next.find?
      (fun u => u.entry == (0 : Fin 4096).val && u.awaited.contains (7 : Node).toNat) = some slotUse0 := by
  refine ⟨?_, by decide +kernel⟩
  intro kind h
  refine ⟨by revert kind; decide +kernel, by revert kind; decide +kernel, by revert kind; decide +kernel, by revert kind; decide +kernel,
    entry0 kind, rfl, rfl⟩

/-! ### Witnesses: request records -/

/-- A structure of 128 bytes from fields, as offset, bytes and value. -/
def structOf (l : List (Nat × Nat × Nat)) : List Byte := l.foldl (fun (s : List Byte) (e : Nat × Nat × Nat) => s.take e.1 ++ leBytes e.2.1 e.2.2 ++ s.drop (e.1 + e.2.1)) (List.replicate 128 0)

/-- A record of a kind for tenant 0 with its prompt at 0x100000 and its output at 0x101000. -/
def record0 (kind : Nat) : List Byte := structOf ([(6, 1, kind), (0xC, 4, 1), (0x10, 8, 0x100000), (7, 1, 1), (0x18, 8, 0x101000)] ++
  (if kind = 0 then [(0x20, 4, 16), (0x24, 4, 8), (0x44, 4, 0x3F800000), (0x4C, 2, 0xFFFF)] else []))

/-- A module with tenant 0: its records at 0x10000, the tenant serving table at 0x20000, the adapter table at 0x30000, the
grammar directory at 0x50000, its region from 0x100000, its sync objects from 0, and more memory. -/
def tenant0 (mem : List (Nat × List Byte)) (f : Device → Device := id) (adapters : Byte := 1) : State :=
  let s := regs [(pageAdp + 0x100, 0x10000), (pageAdp + 0x108, 0x20000), (pageAdp + 0x110, 0x30000), (pageAdp + 0x124, 0x50000),
    (pageAdp + 0x118, 0x200000), (pageAdp + 0x120, 1), (pageTen + 0x100, 2 ^ 31 + 0x10), (pageTen + 0x104, 0x10), (pageSync + 0x200, 2 ^ 16)]
  let bytes := (mem ++ [(0x20000, [0, 0, 1, 0, 9, 0, 0, 0, adapters, 0, 1])]).flatMap (fun (e : Nat × List Byte) => cellsFrom e.1 e.2)
  { s with part := { dev := f s.part.dev, mem := { bytes := bytes } } }

/-- The same with record 0 of a kind found. -/
def foundOf (kind : Nat) (tenant : Nat) (adapters : Byte := 1) : State :=
  tenant0 [(0x10000, record0 kind)] (dieHas (fun y => { y with found := [(0, tenant, 0)] })) adapters

theorem witness_RequestRecords :
    (let s := tenant0 [(0x10080, [1])]
     let p := s.part.onDev (·.onSync (fun u => { u with notify := dropFirst (fun n => n == (0, 9)) u.notify }))
     p.submitTenant 9 = some 0 ∧ p.recRange 0 = (0, 1) ∧ recordDie 0 = 0 ∧ p.mem.nat (p.dev.recAddr 0 + 0x80) 1 = 1 ∧ p.dev.request 0 = none ∧
     (p.dev.dieServing 0).found.any (fun f => f.1 == 0) = false) ∧
    (∀ kind ∈ [0, 1, 2, 3, 4], let p := (foundOf kind 1).part
      p.foundRecord 0 kind = some (1, 0, record0 kind) ∧ p.recordProblem 0 1 (record0 kind) = some stTenant) ∧
    (∀ kind ∈ [0, 1, 2, 3, 4], let p := (foundOf kind 0).part
      p.foundRecord 0 kind = some (0, 0, record0 kind) ∧ p.recordProblem 0 0 (record0 kind) = none) ∧
    (let p := (foundOf 1 0).part
     p.adaptersHeld 0 < p.mem.nat (p.dev.tenSrv 0 + 8) 2) ∧
    (let p := (foundOf 1 0 0).part
     p.foundRecord 0 1 = some (0, 0, record0 1) ∧ p.recordProblem 0 0 (record0 1) = none ∧
     p.mem.nat (p.dev.tenSrv 0 + 8) 2 ≤ p.adaptersHeld 0) ∧ rcAdapter (record0 0) = 0 := by decide +kernel

/-- The part of memory that a generate record 0 of tenant 0 leaves once its sequence is granted from an offered space. -/
def granted0 (space : List Nat) : Option Part :=
  let p := (((foundOf 0 0).part.onDev (·.addSpace 0 space)).touchRecord 0).touch (rcPrompt (record0 0)) (4 * rcPromptLen (record0 0))
  let d := p.dev
  let nshard := bits (d.get (pageKv + 0x10C)) 4 0
  let gen := d.get (pageBlt + 0x100)
  let chain := digestChain (d.scopeKey 0) gen (List.replicate 16 0) ((promptBlocks p.mem (record0 0)).map (·.1))
  (p.newSequence 0 { seqId := d.newSeqId, tenant := 0, die := 0, dir := 0, ovf := 0, striped := decide (1 < nshard), modelGen := gen
                     shard := d.node % 16 % nshard, nshard := nshard, digests := chain }).bind (·.writeChain 0 chain)

theorem witness_RequestRecords_generate :
    (∀ tenant ∈ [0, 1], let p := ((foundOf 0 tenant).part.onDev (·.addSpace 0 [0x300000, 0x300040])).touchRecord 0
      p.foundRecord 0 0 = some (tenant, 0, record0 0) ∧ p.recordProblem 0 tenant (record0 0) = (if tenant = 0 then none else some stTenant)) ∧
    rcAdapter (record0 0) = 0 ∧ 0 < rcPromptLen (record0 0) ∧ granted0 [] = none ∧
    (granted0 [0x300000, 0x300040]).any (fun p1 => !((p1.acceptRecord 0 0 0 (record0 0) (fun q =>
      { q with seqId := 0, adpSlot := 0xFFFF, gstate := 0, draftNext := 0 })).onDev (·.drawn)).dev.pfxOn) = true := by decide +kernel

/-- The digest of no bytes (FIPS 180-4), the image of a load of length 0. -/
def sha0 : List Byte := beBytes 32 0xe3b0c44298fc1c149afbf4c8996fb92427ae41e4649b934ca495991b7852b855
theorem test_sha256_of_nothing : sha256 [] = sha0 := by decide +kernel

def loadRequest : Request := { copy := List.replicate 64 0 ++ sha0 ++ List.replicate 32 0, tenant := 0, state := 2, tArrive := 0 }

theorem witness_RequestRecords_load :
    let s := mk (fun d => (d.onServing (fun v => { v with loads := [(5, 0)] })).setRequest 5 loadRequest)
    let p := s.part.onDev (·.onServing (fun v => { v with loads := v.loads.filter (fun l => l.1 != 5) }))
    s.part.dev.serving.loads.find? (fun l => l.1 == 5) = some (5, 0) ∧ s.part.dev.request 5 = some loadRequest ∧ s.part.mem.ecc = [] ∧
    (imageUse p.mem (rcPrompt loadRequest.copy) (rcPromptLen loadRequest.copy) 0).any (·.stranger) = false ∧
    (imageUse p.mem (rcPrompt loadRequest.copy) (rcPromptLen loadRequest.copy) 0).filter (·.crcFail) = [] ∧
    64 * rcPromptLen loadRequest.copy = 0 ∧ rcHash loadRequest.copy = sha0 := by decide +kernel

/-! ### Witnesses: walks, samples and reheats -/

/-- An ATTN word of one slot-table entry, entry 0 live at 0x40000, and core 0 with more. -/
def attn1 : AttnOp := { idx := 0, word := word opAttn (2 ^ 62) }
def bellows (kind : Nat) (f : CoreState → CoreState) : State :=
  let s := mk (fun d => ((d.set (pageSrv 0 + 0x104) 0x40000).onHeat (fun h => { h with kind := kind })).onCore 0 f)
  { s with part := { s.part with mem := { bytes := [(0x40004, 1)] } } }
def window0 : Window := ⟨64, 1, 0, 0, 0, 0⟩

theorem witness_WalksSamplesAndReheats :
    (∀ kind ∈ [0, 1], let s := bellows kind (fun x => { x with attnQ := [attn1] })
      ((s.part.onMem (·.arise [])).dev.core (clusterCore 0)).attnQ = attn1 :: [] ∧ (s.part.onMem (·.arise [])).dev.heat.kind = kind ∧
      (s.part.onMem (·.arise [])).liveEntries (clusterDie 0) (attnWord attn1.word) attn1.done = 0 :: []) ∧
    (∀ v ∈ [(some window0, false), (none, true), (none, false)],
      let s := bellows 0 (fun x => { x with retries := [⟨0, 0, 0⟩], window := v.1, bound := v.2 })
      (s.part.dev.core (clusterCore 0)).retries = ⟨0, 0, 0⟩ :: [] ∧ (s.part.dev.core (clusterCore 0)).window = v.1 ∧
      (s.part.dev.core (clusterCore 0)).bound = v.2) ∧
    (let p := (mk (fun d => (d.set (pageSrv 0 + 0x104) 0x40000).onCore 0 (fun x => { x with attnQ := [attn1] }))).part.onMem (·.arise [])
     (p.dev.core (clusterCore 0)).attnQ = attn1 :: [] ∧ p.dev.heat.kind ≠ 1 ∧ p.liveEntries (clusterDie 0) (attnWord attn1.word) attn1.done = []) ∧
    (∀ c ∈ [0, 1], (front c (word opSample 0)).part.dev.AtWord c (word opSample 0) ∧ wOp (word opSample 0) = opSample ∧
      (front c (word opSample 0)).part.dev.heat.kind ≠ 1) ∧
    (let x : CoreState := { sampling := [5, 6, 7] }
     (x.takeSample 0 0).isNone = true ∧ (({} : CoreState).takeSample 0 0).isSome = true) :=
  ⟨by decide +kernel, by decide +kernel, by decide +kernel, fun c h =>
    ⟨atWord_of_check _ _ _ (by revert c; decide +kernel), by decide +kernel, by revert c; decide +kernel⟩, by decide +kernel⟩

/-- A core in its window with a due tile, whose threshold set asks for a response. -/
def dueTile (thr : Nat) : Tile := { tile0 with due := true, thr := thr }
def inWindow (thr left : Nat) : State := mk (fun d => d.onCore 0 (fun x =>
  { x with window := some { window0 with left := left }, tiles := [(0, dueTile thr)] }))

theorem witness_WalksSamplesAndReheats_reheat :
    (∀ left ∈ [0, 2], let s := inWindow (2 ^ 24) left
      (s.part.dev.core 0).window = some { window0 with left := left } ∧ (s.part.dev.core 0).eligible = (0, dueTile (2 ^ 24)) :: [] ∧
      s.part.mem.ecc = [] ∧ s.part.dev.formOf s.part.mem 0 0 (dueTile (2 ^ 24)) = some (.split 1)) ∧
    (let s := inWindow (2 ^ 25) 0
     (s.part.dev.core 0).eligible = (0, dueTile (2 ^ 25)) :: [] ∧ s.part.dev.formOf s.part.mem 0 0 (dueTile (2 ^ 25)) = none) ∧
    reheatCost 0 1 0 false (.split 1) = 2 ∧ reheatCost 0 0 0 false (.split 1) ≤ 0 := by decide +kernel

/-! ### Witnesses: the mesh -/

/-- A module with port 0 in a mode and a larger configuration, and the headers of an express and of a bulk frame for it. -/
def port0 (cfg : Nat) (l : List (Nat × Nat) := []) (f : Device → Device := id) : State :=
  mk (fun _ => f (regs ([(pagePort 0 + 0x100, cfg)] ++ l)).part.dev)
def express : MeshHdr := { hdr with express := true }
def takes (s : State) (f : MeshHdr) (c : Cell) : Bool := (s.part.dev.intake 0 f c).1

theorem witness_FrameChecks :
    hdr.fecUncorrectable = 0 ∧ ({ hdr with fecUncorrectable := 1 } : MeshHdr).fecUncorrectable ≠ 0 ∧
    (let d := (port0 0x1001).part.dev.fecSeen 0 express 0; d.portMode 0 = 1 ∧ bit (d.get (pagePort 0 + 0x100)) 12 = true) ∧
    ((port0 2).part.dev.fecSeen 0 express 0).portMode 0 = 2 ∧ takes (port0 1) express (.train 0 0 0 0) = true ∧
    ({ express with fcsOk := false } : MeshHdr).fcsOk = false ∧ ({ express with toOwn := false } : MeshHdr).toOwn = false ∧
    bits ((port0 1).part.dev.get (pageMesh + 0x100)) 21 16 = 0 ∧
    (port0 1).part.dev.portMode 0 = 1 ∧ (port0 2).part.dev.portMode 0 ≠ 1 ∧ (port0 0).part.dev.portMode 0 ≠ 1 ∧
    (express.fcsOk = true ∧ express.macsecOk = true ∧ express.express = (Cell.train 0 0 0 0).express ∧ express.toOwn = true) ∧
    ({ express with dst := 5 } : MeshHdr).dst.toNat ≠ (port0 1).part.dev.node ∧
    ({ express with macsecOk := false } : MeshHdr).macsecOk = false ∧ bit ((port0 0x1001).part.dev.get (pagePort 0 + 0x100)) 12 = true ∧
    hdr.express ≠ (Cell.train 0 0 0 0).express ∧
    (let groups := bits ((port0 1 [(pageMesh + 0x100, 2 ^ 16)]).part.dev.get (pageMesh + 0x100)) 21 16
     express.hops.toNat ≠ 0 ∧ groups ≠ 0 ∧ groups * 16 ≤ (16 : Node).toNat ∧ (15 : Node).toNat < groups * 16) ∧
    ({ express with hops := 0 } : MeshHdr).hops.toNat = 0 := by decide +kernel

theorem witness_CellsActOnThisModule :
    (∀ c ∈ [Cell.signal 1 1 1 1 false, .signal 1 1 1 1 true, .barArrive 1 1, .barRelease 1, .barFault 1, .heatArrive 0 false false false 0 0 0x1FF false,
      .heatRelease 0 0 0 false false [0], .fault 3 1], takes (port0 1) express c = true ∧ takes (port0 0) express c = false) ∧
    (1 : BitVec 16).toNat ≠ 0xFFFF := by decide +kernel

/-- A relayed operation of session 1 that awaits its DONE frame. -/
def op7 : BhtOp := { opid := 7, node := 3, awaited := true }
def session1 : BhtSession := { role := 0xFF, isOpen := true, since := 0, transcript := [] }
def withSession (x : BhtSession) (d : Device) : Device := (((d.set (pageMesh + 0x100) 0x1000).set (pageBht + 0x124) (2 ^ 31))).setSession 1 x

/-- The module after the port has taken a DATA frame. -/
def takenPart (h : DataHdr) (s : State) : Part := { s.part with dev := (s.part.dev.intake 0 hdr (.data h [])).2 }
def resetAt0 (d : Device) : Device := { d with power := { d.power with coreResets := [⟨3, 0, 0, 0, true⟩] } }

theorem witness_DataAndDoneFrames :
    (∀ h ∈ [dhdr, { dhdr with sig := true, last := true }], takes (port0 1) hdr (.data h []) = true ∧
      (let m := takenPart h (port0 1)
       m.dev.mesh.broken = [] ∧ h.bht = false ∧ h.tenant = 0xFF ∧ m.dev.inReset h.addr.toNat (64 * h.len) = false ∧
       isNarrow h.addr.toNat (64 * h.len) = false ∧ m.frameStatus h = stOk ∧ m.dev.allHere h.addr.toNat h.len = true)) ∧
    (takes (port0 0) hdr (.data dhdr []) = false ∧ (port0 0).part.dev.drops 0 hdr = false) ∧
    (let f := { hdr with fcsOk := false }
     takes (port0 1) f (.data dhdr []) = false ∧ (port0 1).part.dev.drops 0 f = true) ∧
    (let h := { dhdr with tenant := 5 }
     takes (port0 1) hdr (.data h []) = true ∧ h.tenant ≠ 0xFF ∧
     (takenPart h (port0 1)).tenantMay h.tenant.toNat h.addr.toNat (64 * h.len) true = false ∧ (takenPart h (port0 1)).frameStatus h = stTenant) ∧
    (let s := port0 1 [] resetAt0
     takes s hdr (.data dhdr []) = true ∧ (takenPart dhdr s).dev.inReset dhdr.addr.toNat (64 * dhdr.len) = true) ∧
    (let h := { dhdr with addr := 4 }
     (takenPart h (port0 1)).dev.inReset h.addr.toNat (64 * h.len) = false ∧ isNarrow h.addr.toNat (64 * h.len) = true) ∧
    (let h := { dhdr with bht := true }
     let s := port0 1 [] (fun d => { d with mesh := { d.mesh with broken := [frameKey 0 h] } })
     takes s hdr (.data h []) = true ∧ (takenPart h s).dev.mesh.broken.contains (frameKey 0 h) = true ∧ (takenPart h s).frameStatus h = stOk) ∧
    takes (port0 1) hdr (.done 7 0 1) = true ∧ takes (port0 0) hdr (.done 7 0 1) = false ∧
    ((port0 1).part.dev.intake 0 hdr (.done 7 0 1)).2.session 1 = none ∧
    ((((port0 1).part.dev.intake 0 hdr (.done 7 1 1)).2).count (pageMesh + 0x11C)).session 1 = none ∧
    (∀ l ∈ [[op7], []], let r := (port0 1 [] (withSession { session1 with ops := l })).part.dev.intake 0 hdr (.done 7 0 1)
      r.1 = true ∧ r.2.session 1 = some { session1 with ops := l } ∧
      l.find? (fun q => q.opid == (7 : U32).toNat && q.awaited) = l.head?) := by decide +kernel

/-- Whatever place Config.partOffset gives an address, a clause of the statement about DATA frames meets it. -/
theorem witness_DataAndDoneFrames_part :
    Config.partOffset dhdr.addr.toNat = none ∨ ∃ off, Config.partOffset dhdr.addr.toNat = some off := by
  cases Config.partOffset dhdr.addr.toNat with
  | none => exact .inl rfl
  | some off => exact .inr ⟨off, rfl⟩

theorem witness_TimingMessages_masterGone (draw : Nat) : Config.masterGone draw = true ∨ Config.masterGone draw = false := by
  cases Config.masterGone draw <;> simp

theorem witness_TimingMessages :
    bit (State.reset.part.dev.get (pageMesh + 0x110)) 31 = false ∧ bit ((regs [(pageMesh + 0x110, 2 ^ 31)]).part.dev.get (pageMesh + 0x110)) 31 = true ∧
    (regs [(pageTb 4 + 0x108, 1)]).part.dev.locked = true ∧ State.reset.part.dev.locked = false ∧
    takes (port0 1) express (.timing 0 0 0 0 0 0) = true ∧
    (∀ stepped ∈ [false, true], let s := port0 1 [] (fun d => { d with mesh := { d.mesh with stepped := stepped } })
      let r := s.part.dev.intake 0 express (.timing 1 0 0 0 0 0)
      r.1 = true ∧ Int.tdiv (((0 : Int) - 0) - ((0 : Int) - 0)) 2 ≤ (bits (r.2.get (pagePort 0 + 0x108)) 15 0 : Int) ∧
      r.2.locked = false ∧ r.2.mesh.stepped = stepped ∧ r.2.planRuns = false) ∧
    20 < (21 : Int).natAbs ∧ 6 < (-7 : Int).natAbs ∧ (-20 : Int).natAbs ≤ 20 ∧ (6 : Int).natAbs ≤ 6 := by decide +kernel

theorem witness_TimingMessages_lock :
    (let d := (regs [(pageTb 4 + 0x108, 1)]).part.dev
     d.locked = true ∧ bit (d.get (pageMesh + 0x110)) 31 = false ∧ (d.loseLock d.masterOffset).heat.started = false) ∧
    (let d := (mk (fun _ => ((started 0).part.dev.set (pageTb 4 + 0x108) 1).set (pageMesh + 0x104) 3)).part.dev
     d.locked = true ∧ bit (d.get (pageMesh + 0x110)) 31 = false ∧ (d.loseLock d.masterOffset).heat.started = true) ∧
    takes (port0 0) express (.timing 0 0 0 0 0 0) = false ∧ takes (port0 0) express (.timing 1 0 0 0 0 0) = false ∧
    (let r := (port0 1).part.dev.intake 0 express (.timing 1 0 0 0 0 0)
     bits (r.2.get (pagePort 0 + 0x108)) 15 0 = 0) :=
  ⟨by decide +kernel, by decide +kernel, by decide +kernel, by decide +kernel, by decide +kernel⟩

theorem witness_TimingMessages_late : (0 : Int) < Int.tdiv (((0xFF : Int) - 0) - ((0 : Int) - 0)) 2 := by decide

theorem witness_TrainingAndLinks :
    (let d := (port0 (2 ^ 31 + 1) [(pagePort 0 + 0x104, 1)]).part.dev
     bit (d.get (pagePort 0 + 0x100)) 31 = true ∧ bits (d.get (pagePort 0 + 0x100)) 1 0 = 1 ∧ bit (d.get (pagePort 0 + 0x104)) 0 = true) ∧
    (let d := (port0 (2 ^ 31 + 2)).part.dev
     bit (d.get (pagePort 0 + 0x100)) 31 = true ∧ bits (d.get (pagePort 0 + 0x100)) 1 0 ≠ 0 ∧ bits (d.get (pagePort 0 + 0x100)) 1 0 ≠ 1) ∧
    takes (port0 0) express (.train 0 0 0 0) = false ∧ isProcessor (0 : Agent).toNat = false ∧
    (let r := (port0 1).part.dev.intake 0 express (.train 1 0 0 0)
     r.1 = true ∧ (r.2.port 0).training = false ∧ ((r.2.now : Int) - 0 - 0) / 2 ≤ (bits (r.2.get (pagePort 0 + 0x108)) 15 0 : Int)) ∧
    (let s := port0 1 [] (fun d => { d with ticks := d.ticks.map (fun _ => 1000000) })
     let r := s.part.dev.intake 0 express (.train 1 0 0 0)
     r.1 = true ∧ (r.2.port 0).training = false ∧ (bits (r.2.get (pagePort 0 + 0x108)) 15 0 : Int) < ((r.2.now : Int) - 0 - 0) / 2) ∧
    (let d := (port0 1).part.dev
     let e := (d.setBits (pagePort 0 + 0x104) 3 3 0).calibrateLanes 0
     d.planRuns = false ∧ bits (e.get (pagePort 0 + 0x104)) 1 0 ≠ 3) ∧
    bit ((port0 1).part.dev.get (pagePort 0 + 0x100)) 31 = false ∧ bits ((port0 0).part.dev.get (pagePort 0 + 0x100)) 1 0 = 0 ∧
    (∀ role ∈ [0, 1], let r := (port0 1 [] (fun d => d.onPort 0 (fun x => { x with training := true }))).part.dev.intake 0 express (.train role 0 0 0)
      r.1 = true ∧ (r.2.port 0).training = true) ∧
    ((port0 1).part.dev.port 0).training = false ∧ isProcessor hkp.toNat = true ∧ (started 0).part.dev.planRuns = true ∧
    (let d := (port0 1 [(pagePort 0 + 0x104, 3)]).part.dev
     let e := (d.setBits (pagePort 0 + 0x104) 3 3 0).calibrateLanes 0
     d.planRuns = false ∧ bits (e.get (pagePort 0 + 0x104)) 1 0 = 3 ∧ e.portMode 0 = 1) := by decide +kernel

/-- The device after port 0 has gone down. -/
def portDown (d : Device) : Device :=
  ((((d.set (pagePort 0 + 0x104) (withBits (d.get (pagePort 0 + 0x104)) 3 0 0)).count (pagePort 0 + 0x164)).portEvent 0 1 stOk 0 0 0).linkRecord
    0).onPort 0
    (fun x => { x with training := false, figures := [] })

theorem witness_TrainingAndLinks_down :
    (portDown (port0 0).part.dev).portMode 0 ≠ 1 ∧ ((portDown (port0 1).part.dev).portMode 0 = 1 ∧ (portDown (port0 1).part.dev).isRoot = true) ∧
    (let e := portDown (port0 1 [(pageMesh + 0x104, 3), (pagePort 1 + 0x100, 1), (pagePort 1 + 0x104, 3)]).part.dev
     e.portMode 0 = 1 ∧ e.isRoot = false ∧ (e.faultPort 0).isSome = true) ∧
    (let e := portDown (port0 1 [(pageMesh + 0x104, 3)]).part.dev
     e.portMode 0 = 1 ∧ e.isRoot = false ∧ e.faultPort 0 = none) := by decide +kernel

/-- A bridge, and a port of it or of another module. -/
def bridge (f : Device → Device := id) : State := port0 1 [] (fun d => f { d with mesh := { d.mesh with bridgeSel := true } })

def allReported : State := bridge (fun d => { d with mesh := { d.mesh with reports := (List.range 15).map (fun i => (i + 1, true)) } })

theorem witness_Enumeration :
    State.reset.part.dev.mesh.bridgeSel = false ∧ bridge.part.dev.mesh.bridgeSel = true ∧ bridge.part.dev.mesh.closed = none ∧
    bridge.part.dev.mesh.groupFailed = false ∧ (bridge (fun d => { d with mesh := { d.mesh with groupFailed := true } })).part.dev.mesh.groupFailed = true ∧
    takes (port0 0) express (.hello 0 0 0 0 true true false true) = false ∧ takes (port0 0) express (.ringDisc 0 0 0) = false ∧
    (port0 1).part.dev.mesh.bridgeSel = false ∧ takes (port0 1) express (.hello 1 0 0 0 true true true true) = true ∧ express.hops.toNat ≠ 0 ∧
    takes (port0 1) { express with hops := 0 } (.hello 1 0 0 0 true true true true) = true ∧
    (bridge (fun d => { d with mesh := { d.mesh with closed := some (0, 0) } })).part.dev.mesh.closed ≠ none ∧
    (1 ≤ 1 ∧ 1 ≤ 15 ∧ ((1, true) : Nat × Bool) ∉ bridge.part.dev.mesh.reports) ∧
    (∀ n ∈ List.range 16, 1 ≤ n → (n, true) ∈ allReported.part.dev.mesh.reports) ∧
    (State.reset.part.dev.mesh.token = false ∧ 1 ≤ (1 : BitVec 5).toNat ∧ (15 : BitVec 5).toNat ≤ 15 ∧ (0 : BitVec 5).toNat = 0 ∧ 15 < (16 : BitVec 5).toNat) ∧
    (let r := (port0 1 [(pageMesh + 0x100, 0x2000)]).part.dev.intake 0 express (.hello 0 0 0 0 true true false true)
     r.1 = true ∧ r.2.mesh.bridgeSel = false ∧ r.2.enumBit 13 = true ∧ r.2.enumBit 14 = false) ∧
    takes (port0 1) express (.hello 1 0 0 0 true true false true) = true ∧
    (bridge.part.dev.intake 0 express (.hello 1 0 0 0 true true true true)).1 = true ∧
    (∀ origin ∈ [0, 1], let r := bridge.part.dev.intake 0 express (.ringDisc origin 0 0)
      r.1 = true ∧ r.2.mesh.bridgeSel = true ∧ (origin = r.2.serial ↔ origin = 0)) := by decide +kernel

theorem witness_FramesAndMessagesReadBack :
    (Cell.signal 1 1 1 1 true).fits ∧ (Cell.data dhdr (List.replicate 64 7)).fits ∧ (Cell.fault 511 0xFFFF).fits ∧
    (Cell.timing 1 0 0 0 255 255).fits ∧ (511 : Nat) < 512 ∧ (7 : Nat) < 8 ∧ (0xFF : Nat) < 2 ^ 8 ∧ msg.msn < 2 ^ 32 ∧
    msg.ackMsn < 2 ^ 32 ∧ msg.len < 2 ^ 32 ∧ msg.sop < 2 ^ 8 := by
  simp only [Cell.fits]
  decide +kernel
/-! ### Witnesses: sessions and messages -/

theorem leBytes_leNat (l : List Byte) : leBytes l.length (leNat l) = l := by
  induction l with
  | nil => rfl
  | cons b l ih =>
    have h1 : (b.toNat + 256 * leNat l) / 256 = leNat l := by have := b.isLt; omega
    have h2 : BitVec.ofNat 8 (b.toNat + 256 * leNat l) = b := by apply BitVec.eq_of_toNat_eq; have := b.isLt; simp; omega
    show BitVec.ofNat 8 (b.toNat + 256 * leNat l) :: leBytes l.length ((b.toNat + 256 * leNat l) / 256) = b :: l
    rw [h1, h2, ih]

theorem leNat_lt (l : List Byte) : leNat l < 256 ^ l.length := by
  induction l with
  | nil => decide
  | cons b l ih =>
    show b.toNat + 256 * leNat l < 256 ^ (l.length + 1)
    have := b.isLt
    rw [Nat.pow_succ]
    omega

theorem shaRound_length (v : List U32) (k w : U32) (h : v.length = 8) : (shaRound v k w).length = 8 := by
  unfold shaRound
  split <;> simp_all

theorem shaRounds_length (l : List (U32 × U32)) : ∀ v : List U32, v.length = 8 → (l.foldl (fun v wk => shaRound v wk.2 wk.1) v).length = 8 := by
  induction l with
  | nil => exact fun _ h => h
  | cons e l ih => exact fun v h => ih _ (shaRound_length v e.2 e.1 h)

theorem shaBlocks_length (l : List (List Byte)) : ∀ h : List U32, h.length = 8 → (l.foldl shaBlock h).length = 8 := by
  induction l with
  | nil => exact fun _ h => h
  | cons e l ih =>
    intro h hh
    refine ih _ ?_
    simp only [shaBlock, List.length_zipWith, hh, shaRounds_length _ h hh, Nat.min_self]

theorem beBytes_words_length (l : List U32) : (l.flatMap (fun w => beBytes 4 w.toNat)).length = 4 * l.length := by
  induction l with
  | nil => rfl
  | cons w l ih => simp only [List.flatMap_cons, List.length_append, ih]; simp [beBytes, leBytes]; omega

theorem sha256_length (l : List Byte) : (sha256 l).length = 32 := by
  simp only [sha256, beBytes_words_length, shaBlocks_length _ shaInit rfl]

/-- Some 256-bit number spells a digest. -/
theorem digest_is_spelt (l : List Byte) : ∃ c : BitVec 256, leBytes 32 c.toNat = sha256 l := by
  refine ⟨BitVec.ofNat 256 (leNat (sha256 l)), ?_⟩
  have h := leNat_lt (sha256 l)
  rw [sha256_length] at h
  have e : (BitVec.ofNat 256 (leNat (sha256 l))).toNat = leNat (sha256 l) := by
    rw [BitVec.toNat_ofNat]; exact Nat.mod_eq_of_lt h
  rw [e]
  have := leBytes_leNat (sha256 l)
  rwa [sha256_length] at this

/-- A bridge whose engine runs, with session 1, and with a key. -/
def bridged (x : Option BhtSession) (keys : SMap (List Byte) := []) : State :=
  mk (fun d => let e := ((({ d with sec := { d.sec with keys := keys } } : Device).set (pageMesh + 0x100) 0x1000).set (pageBht + 0x124) (2 ^ 31 + 2 ^ 16))
    match x with
    | some x => e.setSession 1 x
    | none => e)
def shut1 : BhtSession := { session1 with isOpen := false }
def seen1 : BhtSession := { session1 with pnHigh := 1026, pnSeen := [2, 1026] }

theorem witness_BhtPacketsAndHandshakes :
    State.reset.part.dev.bhtOn = false ∧ (bridged none).part.dev.bhtOn = true ∧ (bridged none).part.dev.session 1 = none ∧
    ((bridged (some shut1)).part.dev.session 1 = some shut1 ∧ shut1.isOpen = false) ∧
    ((bridged (some seen1)).part.dev.session 1 = some seen1 ∧ seen1.isOpen = true ∧ 1 + 1024 < seen1.pnHigh ∧ 2 ∈ seen1.pnSeen ∧
      seen1.pnHigh ≤ 3 + 1024 ∧ 3 ∉ seen1.pnSeen ∧ pkt.tagOk = true ∧ ({ pkt with tagOk := false } : BhtPacket).tagOk = false) ∧
    (isRole 64 = false ∧ isRole 63 = true ∧ isRole 0xFE = true ∧ isRole 0xFF = true) ∧
    (¬(bits ((bridged none).part.dev.get (pageBht + 0x124)) 23 16 ≤ 0)) ∧
    bits ((regs [(pageBht + 0x124, 2 ^ 31)]).part.dev.get (pageBht + 0x124)) 23 16 ≤ 0 ∧
    (let r := (bridged (some shut1) [(0xFF, [1])]).part.dev.takePacket pkt true
     r.1 = true ∧ r.2.session 1 = some { shut1 with pnHigh := 1, pnSeen := [1] }) ∧
    (let k := { pkt with pn := 2 ^ 62 + 1 }
     (bridged (some session1)).part.dev.session 1 = some session1 ∧ session1.pnHigh ≤ k.pn + 1024 ∧ k.pn ∉ session1.pnSeen ∧ k.tagOk = true) ∧
    pkt.ce = false ∧ ({ pkt with ce := true } : BhtPacket).ce = true ∧
    (let r := (bridged (some session1)).part.dev.takePacket pkt true
     r.1 = true ∧ r.2.session 1 = some { session1 with pnHigh := 1, pnSeen := [1] }) ∧
    ((bridged none).part.dev.takePacket pkt true).1 = false ∧
    ((bridged (some session1)).part.dev.takePacket pkt false).1 = true ∧ ((bridged none).part.dev.takePacket pkt false).1 = false ∧
    isProcessor hkp.toNat = true ∧ isProcessor (0 : Agent).toNat = false ∧ (bridged none).part.dev.enumBit 12 = true ∧
    State.reset.part.dev.enumBit 12 = false := by decide +kernel

theorem witness_BhtPacketsAndHandshakes_free : ∃ n, (bridged none).part.dev.freeSession = some n := by
  have h : (bridged none).part.dev.bht.sessions = [] := by decide +kernel
  unfold Device.freeSession freshFrom
  rw [h]
  simp

/-- A bridge whose engine runs with every session number in use. -/
def crowded : Device := (bridged none).part.dev.onBht (fun b => { b with sessions := (List.range 4096).map (fun i => (i + 1, session1)) })

theorem witness_BhtPacketsAndHandshakes_none : crowded.freeSession = none ∧ crowded.bhtOn = true ∧
    ¬16 ≤ (crowded.bht.sessions.filter (fun e => !e.2.isOpen)).length := by
  have keeps : ∀ (d : Device) (f : BhtState → BhtState), (d.onBht f).bhtOn = d.bhtOn := fun _ _ => rfl
  refine ⟨?_, by rw [crowded, keeps]; decide +kernel, ?_⟩
  · have h : crowded.bht.sessions.map (·.1 - 1) = List.range 4096 := by simp [crowded, Device.onBht, Function.comp_def]
    simp only [Device.freeSession, freshFrom, h, Option.map_eq_none_iff, List.find?_eq_none]
    intro v hv
    obtain ⟨k, -, rfl⟩ := List.mem_map.mp hv
    simp [Nat.mod_lt]
  · have h : crowded.bht.sessions.filter (fun e => !e.2.isOpen) = [] := by
      simp [crowded, Device.onBht, session1]
    rw [h]; decide

theorem witness_BhtPacketsAndHandshakes_digests (source second : Nat) :
    (∃ c : BitVec 256, leBytes 32 c.toNat = (bridged none).part.dev.cookie source second) ∧
    (∃ c : Option (BitVec 256), c.map (fun c => leBytes 32 c.toNat) ≠ some ((bridged none).part.dev.cookie source second)) ∧
    (∃ proof : BitVec 256, (bridged (some shut1) [(0xFF, [1])]).part.dev.roleProof shut1 = some (leBytes 32 proof.toNat)) ∧
    (∀ proof : BitVec 256, (bridged (some shut1)).part.dev.roleProof shut1 ≠ some (leBytes 32 proof.toNat)) := by
  refine ⟨?_, ⟨none, by simp⟩, ?_, fun proof => ?_⟩
  · unfold Device.cookie hmac256
    exact digest_is_spelt _
  · have h : smapFind (bridged (some shut1) [(0xFF, [1])]).part.dev.sec.keys shut1.role = some [1] := by decide +kernel
    obtain ⟨c, hc⟩ := digest_is_spelt ((padTo 64 0 (if ([1] : List Byte).length > 64 then sha256 [1] else [1])).map (· ^^^ 0x5c) ++
      sha256 ((padTo 64 0 (if ([1] : List Byte).length > 64 then sha256 [1] else [1])).map (· ^^^ 0x36) ++ (asciiBytes "BHT1 role" ++ shut1.transcript)))
    refine ⟨c, ?_⟩
    unfold Device.roleProof hmac256
    rw [h, hc]
    rfl
  · have h : smapFind (bridged (some shut1)).part.dev.sec.keys shut1.role = none := by decide +kernel
    unfold Device.roleProof
    rw [h]
    simp

/-- A message of session 1 for this module, and a tenant's session with sync object 0. -/
def ask (addr len : Nat) : BhtMsg := { msg with first := true, addr := BitVec.ofNat 64 addr, len := len }
def tenantSession : BhtSession := { session1 with role := 0 }
def tenanted (x : BhtSession) : State := mk (fun _ => ((bridged (some x)).part.dev).set (pageSync + 0x200) (2 ^ 16))

/-- The operator's session of a bridge whose group has node 3. -/
def grouped (x : BhtSession) : State :=
  mk (fun _ => let d := (tenanted x).part.dev; { d with mesh := { d.mesh with reports := [(3, true)] } })
def narrowOp : BhtOp := { opid := 0, node := 0, conds := [stNarrow] }
def plainOp (node : Nat) : BhtOp := { opid := 0, node := node }

theorem witness_BhtDataPackets :
    (((bridged (some session1)).part.dev.takePacket pkt false).1 = true ∧ ((bridged none).part.dev.takePacket pkt false).1 = false) ∧
    3 ∉ [1, 2, 5, 7, 10] ∧ msg.msn = 0 ∧ (bridged none).part.dev.session 1 = none ∧
    (let p := (grouped session1).part
     p.dev.session 1 = some session1 ∧ session1.role = 0xFF ∧ p.dev.groupNode 0 = true ∧ p.dev.ownNode 0 = true ∧
     p.dev.groupNode 3 = true ∧ p.dev.ownNode 3 = false ∧ p.dev.groupNode 5 = false) ∧
    (let p := (grouped tenantSession).part
     p.dev.session 1 = some tenantSession ∧ tenantSession.role < 64 ∧ p.dev.mayObject tenantSession.role 0 = true ∧
     p.dev.mayObject tenantSession.role 5 = false ∧ tenantSession.watch.length < 64 ∧ (∀ w ∈ tenantSession.watch, w.1 ≠ 0)) ∧
    ((grouped { tenantSession with role := 0xFE }).part.dev.session 1 = some { tenantSession with role := 0xFE }) ∧
    (msg.value = 0 ∧ ({ msg with value := 1 } : BhtMsg).value = 1 ∧ (ask 0 64).first = true ∧ msg.first = false) := by decide +kernel

/-- The refusals of a WRITE segment, and what lets one pass. -/
theorem witness_BhtDataPackets_write :
    (stNarrow ∈ narrowOp.conds ∧ stNarrow ∉ (plainOp 0).conds ∧ { plainOp 0 with absent := true }.absent = true) ∧
    (let p := (grouped tenantSession).part
     p.dev.groupNode (plainOp 5).node = false ∧ (64 ≤ 0xFE) ∧
     (p.dev.ownNode (plainOp 0).node = true ∧ p.tenantMay 0 0 64 true = false) ∧
     (p.dev.groupNode (plainOp 3).node = true ∧ ¬64 ≤ tenantSession.role ∧ p.dev.ownNode (plainOp 3).node = false)) ∧
    (let region := fun d : Device => (d.set (pageTen + 0x100) (2 ^ 31 + 0x10)).set (pageTen + 0x104) 0x10
     let p := (mk (fun _ => region (grouped tenantSession).part.dev)).part
     let q := (mk (fun _ => resetAt0 (region (grouped tenantSession).part.dev))).part
     p.tenantMay 0 0x100000 64 true = true ∧ p.dev.touchesAbsent 0x100000 64 = false ∧ p.dev.inReset 0x100000 64 = false ∧
     q.tenantMay 0 0x100000 64 true = true ∧ q.dev.inReset 0x100000 64 = true ∧ isNarrow 0x100000 64 = false ∧ isNarrow 0x100000 1 = true ∧
     p.segmentStatus (plainOp 0) 0 0x100000 64 = stOk) := by decide +kernel

/-- What a READ may ask, and STORE_DATA of the storage session. -/
theorem witness_BhtDataPackets_read :
    (let p := (bridged (some session1)).part
     let m := ask 0 64
     p.dev.session 1 = some session1 ∧ p.dev.ownNode m.node.toNat = true ∧ m.addr.toNat % 2 ^ 40 < 0xFF00000000 ∧
     p.dev.touchesAbsent 0 64 = false ∧ p.dev.inReset 0 64 = false ∧ p.dev.touchesAbsent 0x9000000000 64 = true ∧
     (0xFF00000000 ≤ (ask 0xFF00000000 4).addr.toNat % 2 ^ 40 ∧ 0xFF00000000 + 4 ≤ 2 ^ 40)) ∧
    ((mk (fun _ => resetAt0 (bridged (some session1)).part.dev)).part.dev.inReset 0 64 = true) ∧
    ((tenanted tenantSession).part.tenantMay tenantSession.role 0 64 false = false ∧ tenantSession.role ≠ 0xFF) ∧
    (let x := { session1 with role := 0xFE }
     let q : StoreReq := { opid := 0, node := 0, object := 0, offset := 0, len := 64 }
     let d := (bridged (some x)).part.dev.onBht (fun b => { b with stores := [q] })
     d.session 1 = some x ∧ d.bht.stores.find? (fun q => q.opid == msg.opid.toNat) = some q ∧ msg.status = 0 ∧
     ({ msg with status := 4 } : BhtMsg).status ≠ 0 ∧ (bridged (some x)).part.dev.bht.stores.find? (fun q => q.opid == msg.opid.toNat) = none) := by
  decide +kernel

/-- Whatever Config.remoteMay draws, a clause of the statement meets it. -/
theorem witness_BhtDataPackets_remote (draw : Nat) : Config.remoteMay draw = true ∨ Config.remoteMay draw = false := by
  cases Config.remoteMay draw <;> simp

def out1 (timeouts : Nat) : BhtOut := { op := 3, msg := { msg with msn := 1 }, timeouts := timeouts }
def storage1 : BhtSession := { session1 with role := 0xFE }

theorem witness_BhtTimersStorageAndNeighbours :
    (∀ n ∈ [0, 6, 7], let x := { session1 with flying := [out1 n] }
      (bridged (some x)).part.dev.session 1 = some x ∧ x.flying.find? (fun o => o.msg.msn == 1) = some (out1 n) ∧ (out1 n).timeouts = n) ∧
    (∀ t ∈ [none, some 0, some 1], let x := { session1 with watch := [(5, t)] }
      let d : Device := { (bridged (some x)).part.dev with ticks := #v[0, 0, 0, 0, 10000] }
      d.session 1 = some x ∧ x.watch.find? (fun w => w.1 == 5) = some (5, t) ∧ d.now = 10000 ∧ (t = some 1 ↔ d.now < t.getD 0 + 10000)) ∧
    ((bridged none).part.dev.bhtOn = true ∧ (bridged none).part.dev.storeSession = none ∧ (bridged (some storage1)).part.dev.storeSession = some 1) ∧
    (let x := { session1 with watch := [(3 * 2 ^ 14 + 5, none)] }
     (bridged (some x)).part.dev.session 1 = some x ∧ x.watch.find? (fun w => w.1 % 2 ^ 14 == 5) = some (3 * 2 ^ 14 + 5, none) ∧
     2 ^ 14 ≤ 3 * 2 ^ 14 + 5) ∧
    (session1.flying.find? (fun o => o.msg.msn == 1) = none ∧ session1.watch.find? (fun w => w.1 % 2 ^ 14 == 5) = none ∧
     session1.unacked = 0 ∧ (bridged (some { session1 with unacked := 1 })).part.dev.session 1 = some { session1 with unacked := 1 }) ∧
    State.reset.part.dev.bhtOn = false ∧
    ((port0 (2 ^ 31 + 2) [] (fun d => d.onPort 0 (fun x => { x with solicited := true }))).part.dev.port 0).solicited = true ∧
    ((port0 (2 ^ 31 + 2)).part.dev.port 0).solicited = false ∧
    ((port0 (2 ^ 31 + 2)).part.dev.hostPort 0 = true ∧ (port0 2).part.dev.hostPort 0 = false) ∧
    ((port0 2).part.dev.ip6 0x100 = 0 ∧ (port0 2).part.dev.ip6 0x110 = 0) := by decide +kernel

/-- A link-local address has 0xFE80 in front, so a small target is none. -/
theorem witness_BhtTimersStorageAndNeighbours_stranger :
    ¬((1 : BitVec 128).toNat = linkLocal (Config.portMac 0).toNat ∨ (1 : BitVec 128).toNat = (port0 2).part.dev.ip6 0x100) := by
  rintro (h | h)
  · have e : ∀ n, 0xFE80 * 2 ^ 112 ≤ linkLocal n := fun n => by
      unfold linkLocal
      exact Nat.le_trans (Nat.le_add_right _ _) (Nat.le_trans (Nat.le_add_right _ _) (Nat.le_add_right _ _))
    exact absurd (h ▸ e _) (by decide)
  · revert h
    decide +kernel

/-! ### Witnesses: billets and programming -/

/-- A module with a state of BLT_STATE, more of the billet controller, and memory. -/
def billet (st : Nat) (f : BilletCtl → BilletCtl) (m : Memory) : State :=
  let s := mk (fun _ => (regs [(pageBlt + 0x128, st)]).part.dev.onBillet f)
  { s with part := { s.part with mem := m } }
def req0 (again : Nat) : FetchReq := { index := 0, sent := 0, again := again }

/-- A load descriptor of KIND 1 and LENGTH 0 at address 0. -/
def descriptor : Memory := { bytes := [(0, 1), (2, 1)] }

/-- A shard without sections, for the billet's region at 0: its header for this module's core set, and its digest. -/
def shardHead : List Byte :=
  [0x4E, 0x42, 0x58, 0x42, 1, 0, 0, 0] ++ List.replicate 8 0 ++ State.reset.part.dev.coreset ++ [0, 0, 1, 0, 0, 0, 0, 0, 0x80] ++ List.replicate 39 0
def shard0 : Memory :=
  { bytes := cellsFrom 0 (shardHead ++ sha256 (shardHead ++ List.replicate 32 0)) }
def verified (kind : Nat) : State :=
  billet 2 (fun b => { b with kind := kind, length := 0x80, sha := sha256 (shardHead ++ List.replicate 32 0) }) shard0

theorem witness_BilletLoad :
    isProcessor hkp.toNat = true ∧
    (∀ st ∈ [1, 2, 4], let d := (billet st id {}).part.dev; ¬(d.bltState ≠ 1 ∧ d.bltState ≠ 2 ∧ d.bltState ≠ 4)) ∧
    (∀ v ∈ [(({ poison := [0] } : Memory), true, false), ({}, false, false), (descriptor, false, true)], ∀ st ∈ [0, 3, 5], let s := billet st id v.1
      let a := s.part.dev.get64 (pageBlt + 0x118) % 2 ^ 40
      let p := s.part.touch a 64
      (p.dev.bltState ≠ 1 ∧ p.dev.bltState ≠ 2 ∧ p.dev.bltState ≠ 4) ∧ p.mem.poisoned a 64 = v.2.1 ∧
      p.dev.acceptsLoad (p.mem.read a 64) = v.2.2) ∧
    isProcessor (0 : Agent).toNat = false ∧ State.reset.part.dev.billet.reqs.find? (fun r => r.index == 0) = none ∧
    ((billet 3 id {}).part.dev.bltState = 3 ∧ State.reset.part.dev.bltState ≠ 3 ∧ State.reset.part.dev.bltState ≠ 2) ∧
    (∀ n ∈ [0, 2, 3], let s := billet 1 (fun b => { b with reqs := [req0 n] }) {}
      s.part.dev.billet.reqs.find? (fun r => r.index == 0) = some (req0 n) ∧ (req0 n).again = n) ∧
    (let s := billet 2 id {}
     let p := s.part.touch s.part.dev.stageRegion s.part.dev.billet.length
     s.part.dev.bltState = 2 ∧ (p.dev.shardFailure p.mem).isSome = true) := by decide +kernel

theorem witness_BilletLoad_verified :
    ∀ kind ∈ [0, 1], let s := verified kind
      let p := s.part.touch s.part.dev.stageRegion s.part.dev.billet.length
      let q := p.onDev (·.bltEvent 0 stOk 0 0 0)
      s.part.dev.bltState = 2 ∧ p.dev.shardFailure p.mem = none ∧ q.dev.billet.kind = kind ∧
      q.dev.toProgram (readHead q.mem s.part.dev.stageRegion) (readSections q.mem s.part.dev.stageRegion q.dev.billet.length) = [] := by
  decide +kernel

/-- A batch of anvil 0 at a row. -/
def batchAnvil0 : BatchAnvil := { anvil := 0, logical := 0, spare := false, shard := 0 }
def batching (row : Nat) (settled : Bool) : State :=
  billet 0 (fun b => { b with batches := [(0, { anvils := [batchAnvil0], row := row, settled := settled })] }) {}

/-- A shard at 0 with one section, the weights of logical anvil 0 at 0x1000. -/
def shard1 (poison : List Nat) : Memory := { bytes := [(0x34, 1), (0x89, 0x10), (0x90, 64)], poison := poison }
/-- The anvils that a batch of anvil 0 holds over a memory, and those of them with a poisoned section. -/
def batchOf (m : Memory) : List BatchAnvil × List BatchAnvil :=
  let r := [0].foldl (Device.joinBatch 0) ([], State.reset.part.dev)
  let held := (r.1.filter (fun b => (sectionOf (shardSections m b.shard) 0 b.logical).isSome)).map (fun b =>
    { b with layer := layerOf (shardSections m b.shard) b.logical })
  let p := held.foldl (fun p b => p.touchSections b (shardSections p.mem b.shard)) { State.reset.part with mem := m, dev := r.2 }
  (held, held.filter (fun b => p.sectionPoisoned b (shardSections p.mem b.shard)))
/-- A module that loads anvil 0, which awaits retirement in a core without spares. -/
def spareless : Device := (State.reset.part.dev.onBillet (fun b => { b with retire := [0], todo := [0] })).onHist (fun h => { h with fences := [0] })

theorem witness_Programming :
    smapFind State.reset.part.dev.billet.batches 0 = none ∧ State.reset.part.dev.noSpareLeft = false ∧ spareless.noSpareLeft = true ∧
    smapFind spareless.billet.batches 0 = none ∧ ((batchOf (shard1 [])).1 ≠ [] ∧ (batchOf (shard1 [])).2 = []) ∧
    (batchOf (shard1 [64])).2 ≠ [] ∧
    State.reset.part.dev.toProgram (readHead (shard1 []) 0) (shardSections (shard1 []) 0) ≠ [] ∧
    (∀ v ∈ [(0, false), (1023, false), (1024, false), (1024, true)],
      smapFind (batching v.1 v.2).part.dev.billet.batches 0 = some { anvils := [batchAnvil0], row := v.1, settled := v.2 }) ∧
    ((-7 : Int) ≤ -7 ∧ (7 : Int) ≤ 7 ∧ (7 : Int) ≤ ((7 : Nat) : Int) ∧ -((7 : Nat) : Int) ≤ -7) ∧
    nearestPair 7 (plainPair 7) (some 0) none = ⟨0, 0⟩ ∧ (nearestPair (-7) (plainPair (-7)) none (some 3)).weight = -3 := by decide +kernel

/-! ### Witnesses: memory, monitor and heat -/

def clearing (c : ClearRange) : State := mk (fun d => d.onMems 0 (fun m => { m with clears := [c] }))
def scrubbing (l : List (Nat × Nat)) (m : Memory) : State :=
  let s := regs ([(pageMem 0 + 8, 2), (pageMem 0 + 0x100, 1), (pageMem 0 + 0x104, 1), (pageMem 4 + 8, 2), (pageMem 4 + 0x104, 1)] ++ l)
  { s with part := { s.part with mem := m } }
def off0 : State := regs [(pageMem 0 + 8, 0), (pageMem 4 + 8, 0)]

theorem witness_MemoryUpkeep :
    (∀ v ∈ [(2 ^ 31, true), (0, false)], let d := (regs [(pageMem 0 + 0x150, v.1)]).part.dev
      bit (d.get (pageMem 0 + 0x150)) 31 = v.2) ∧
    (let d := (regs [(pageMem 0 + 0x14C, 0)]).part.dev
     dramBase 0 ≤ d.get (pageMem 0 + 0x148) / 64 * 64 + bits (d.get (pageMem 0 + 0x14C)) 7 0 * 2 ^ 32 ∧
     d.get (pageMem 0 + 0x148) / 64 * 64 + bits (d.get (pageMem 0 + 0x14C)) 7 0 * 2 ^ 32 + 64 * (bits (d.get (pageMem 0 + 0x14C)) 31 12 + 1) ≤ dramBase 1 ∧
     ¬(dramBase 1 ≤ d.get (pageMem 0 + 0x148) / 64 * 64)) ∧
    (let c : ClearRange := { lo := 0, hi := 256 }
     (smapGet (clearing c).part.dev.mems {} 0).clears = c :: [] ∧ (mapGranule (64 * 0) (64 * 256) 0).isSome = true ∧
     (mapGranule (64 * 0) (64 * 256) 1).isSome = true ∧ (mapGranule 0 64 0).isSome = true ∧ mapGranule 0 64 1 = none) ∧
    (off0.part.dev.scrubs 0 0x100 = false ∧ off0.part.dev.scrubs 0 0x104 = false ∧ off0.part.dev.scrubs 4 0x104 = false) ∧
    (let s := scrubbing [] { valid := [0] }
     s.part.dev.scrubs 0 0x100 = true ∧ s.part.dev.scrubs 0 0x104 = true ∧ s.part.dev.scrubs 4 0x104 = true ∧
     nextValid s.part.mem.valid 0 0 (s.part.dev.get (pageMem 0 + 0x108 + 4 * 0)) = some (0, false) ∧ stackGranule 0 + 1 < stackGranules ∧
     s.part.dev.get (pageMem 0 + 0x110) % 131072 + 1 < 98304) ∧
    isProcessor hkp.toNat = true ∧ isProcessor (0 : Agent).toNat = false ∧ (smapGet State.reset.part.dev.mems {} 0).clears = [] ∧
    (scrubbing [] {}).part.dev.scrubs 0 0x100 = true ∧
    nextValid ({} : Memory).valid 0 0 ((scrubbing [] {}).part.dev.get (pageMem 0 + 0x108)) = none ∧
    (let m : Memory := { ecc := [(0, .correctable)] }
     m.errorsIn (64 * 0) 64 .correctable = [0] ∧ m.errorsIn (64 * 0) 64 .uncorrectable = [] ∧ m.errorsOf (64 * 0) 64 isParity = []) ∧
    (2 ≤ (regs [(pagePwr + 0x104, 2)]).part.dev.sleepState 0) ∧ State.reset.part.mem.writebacks.find? (fun w => w.page == 0) = none ∧
    (smapGet State.reset.part.dev.mems {} 0).copy = none ∧
    (let m : Memory := { ecc := [(0, .uncorrectable)] }
     m.errorsIn (64 * 0) 64 .uncorrectable ≠ [] ∧ m.errorsIn (64 * 0) 64 .correctable = [] ∧ m.errorsIn (64 * 1) 64 .uncorrectable = []) ∧
    (∀ stale ∈ [false, true], let m : Memory := { writebacks := [⟨0, 0, true, stale⟩] }
      State.reset.part.dev.sleepState 0 < 2 ∧ m.writebacks.find? (fun w => w.page == 0) = some ⟨0, 0, true, stale⟩) ∧
    (smapGet (mk (fun d => d.onMems 0 (fun m => { m with copy := some (0, 0) }))).part.dev.mems {} 0).copy = some (0, 0) := by decide +kernel

theorem witness_MonitorConverters :
    (∀ v ∈ [(1, 1), (0, 0), (4, 0), (0, 1)], let s := mk (fun _ => (regs [(pageMon 0 + 0x104, v.1)]).part.dev.onConverter 0 (fun c => { c with cfg := v.2 }))
      s.part.dev.mcStat 0 = v.1 ∧ (s.part.dev.converter 0).cfg = v.2) ∧
    isProcessor (0 : Agent).toNat = false ∧
    (let d := (mk (fun d => d.onConverter 0 (fun c => { c with cfg := 2 ^ 19 }))).part.dev
     bit (d.converter 0).cfg (16 + 3) = true ∧ bit (d.mcStat 0) 2 = false ∧ bit (State.reset.part.dev.converter 0).cfg (16 + 3) = false) ∧
    (∀ v ∈ [(4, false), (12, true)], let d := (mk (fun _ => (regs [(pageMon 0 + 0x104, v.1)]).part.dev.onConverter 0 (fun c => { c with cfg := 2 ^ 19 }))).part.dev
      bit (d.converter 0).cfg (16 + 3) = true ∧ bit (d.mcStat 0) 2 = true ∧ bit (d.mcStat 0) 3 = v.2) ∧
    (bit 1 0 = true ∧ (bit 0 2 = false ∧ bit 0 0 = false) ∧ bit 4 2 = true ∧ bit 4 0 = false) ∧
    (3 : Fin 4).val ∉ (State.reset.part.dev.converter 0).alarms ∧
    (2 : Fin 4).val ∈ ((mk (fun d => d.onConverter 0 (fun c => { c with alarms := [2] }))).part.dev.converter 0).alarms ∧
    isProcessor hkp.toNat = true ∧ bit ((regs [(pageMon 0 + 0x100, 1)]).part.dev.get (pageMon 0 + 0x100)) 0 = true ∧
    bit (State.reset.part.dev.get (pageMon 0 + 0x100)) 0 = false ∧ (2 : Int).natAbs ≤ 2 ∧ ¬((-3 : Int).natAbs ≤ 2) := by decide +kernel

def hot (f : Housekeeping → Housekeeping) (l : List (Nat × Nat) := []) : State := mk (fun _ => (regs l).part.dev.onHk f)

theorem witness_ThermalControl :
    (320 < (321 : Int) ∧ (1760 : Int) ≤ 1760) ∧ ((320 : Int) ≤ 320 ∧ (1759 : Int) < 1760 ∧ 128 < (129 : Int) ∧ (1680 : Int) ≤ 1680) ∧
    ((128 : Int) ≤ 128 ∧ (1679 : Int) < 1680 ∧ 64 < (65 : Int)) ∧ ((64 : Int) ≤ 64 ∧ (0 : Int) < 1) ∧
    (State.reset.part.dev.now / 1000000 + 1) * 1000000 < 2 ^ 64 ∧
    (hot id).part.dev.hk.coolSince = none ∧
    (∀ w ∈ [(0, true), (0x10, false)], let d := (hot (fun h => { h with coolSince := some 0 }) [(pageHeat + 0x138, w.1)]).part.dev
      d.hk.coolSince = some 0 ∧ (bits (d.get (pageHeat + 0x138)) 6 4 ≤ bits (d.get (pageHeat + 0x138)) 2 0 ↔ w.2 = true)) ∧
    isProcessor hkp.toNat = true ∧ (hot id).part.dev.hk.stopped = false ∧
    (∀ n ∈ [99, 100], let d := (hot (fun h => { h with stopped := true, clearRounds := n })).part.dev
      d.hk.stopped = true ∧ d.hk.clearRounds = n) ∧
    0 ∈ State.reset.part.dev.power.down ∧ smapFind State.reset.part.dev.hk.passes 0 = none ∧
    smapFind (hot (fun h => { h with passes := [(0, 0)] })).part.dev.hk.passes 0 = some 0 := by decide +kernel

/-- The module at the end of a housekeeping round, before it acts. -/
def roundEnd (d : Device) (power : Nat) : Device :=
  let a := d.reach ((d.now / 1000000 + 1) * 1000000)
  let b := (List.range 5).foldl (fun d n => d.evaluateDie n) a
  let c := (List.range 5).foldl (fun d n => if (d.converter n).droops = 0 then d else d.onConverter n (fun c => { c with droops := 0 })) b
  let e := c.watchStress.soakAll.set (pagePwr + 0x120) power
  let f : Device := { e with power := { e.power with rounds := (power :: e.power.rounds).take 8 } }
  f.onHk (fun h => { h with
    coolSince := if f.allCool then (match h.coolSince with | some t => some t | none => some f.now) else none
    clearRounds := if f.allBelow then h.clearRounds + 1 else 0 })

theorem witness_ThermalControl_rounds :
    (∀ v ∈ [(7, 3), (1, 2), (0, 0)], let d := roundEnd (hot (fun h => { h with invalid := [(4, v.1)] })).part.dev 0
      d.therm 4 = v.2 ∧ (∀ n ∈ List.range 4, d.therm n = 0) ∧ d.mayStep = true) ∧
    (State.reset.part.dev.hk.stopped = false ∧ (hot (fun h => { h with stopped := true })).part.dev.hk.stopped = true) ∧
    (let d := roundEnd (hot (fun h => { h with invalid := [(4, 1)], lastStep := some 0 })).part.dev 0
     d.therm 4 = 2 ∧ d.mayStep = false) ∧
    isProcessor (0 : Agent).toNat = false ∧ State.reset.part.dev.soaks = false ∧ State.reset.part.dev.soakDuty 0 = 0 ∧
    (let d := (hot (fun h => { h with temps := [(0, [some 5000])] })).part.dev
     (smapGet d.hk.temps [] 0).headD none = some 5000 ∧ d.proofTj ≤ 5000) ∧
    (let d := (mk (fun d => { d with power := { d.power with down := [] } })).part.dev
     ¬(d.hk.stopped = true ∨ 0 ∈ d.power.down ∨ 2 ≤ d.sleepState 0)) := by decide +kernel
/-! ### Witnesses: power, resets and boot -/

/-- A module with its dies out of reset and registers and power control as given. -/
def powered (l : List (Nat × Nat)) (f : PowerCtl → PowerCtl := id) : State :=
  mk (fun _ => (regs l).part.dev.onPower (fun p => f { p with down := [] }))

/-- The same with a plan that runs, whose next issue lies in the word of core 0 at a tick. -/
def running (tick : Nat) : State := mk (fun _ => ((runs 0 [word opNop 0 + tick * 2 ^ 108] (powered [(pageHeat + 0x100, 2), (pagePwr + 0x108, 1)]).part.dev).onHeat (fun h => { h with len := 5000 })))

theorem witness_SleepAndLevels :
    (let d := (powered [(pagePwr + 0x108, 1), (pagePwr + 0x10C, 1), (pagePwr + 0x110, 2 ^ 31)]).part.dev
     d.get (pagePwr + 0x108) ≠ 0 ∧ d.get (pagePwr + 0x10C) ≠ 0 ∧ bit (d.get (pagePwr + 0x110)) 31 = true ∧ d.planRuns = false ∧
     d.maySleep 0 1 = true ∧ d.maySleep 0 2 = true ∧ d.maySleep 0 3 = true) ∧
    (State.reset.part.dev.maySleep 0 1 = false ∧ State.reset.part.dev.maySleep 0 2 = false ∧ State.reset.part.dev.maySleep 0 3 = false) ∧
    (∀ st ∈ [0, 1, 2, 3], (powered [(pagePwr + 0x104, st)]).part.dev.sleepState 0 = st) ∧
    ((powered [(pagePwr + 0x104, 1), (pageHeat + 0x100, 2)]).part.dev.planRuns = true) ∧
    0 ∉ (powered []).part.dev.power.waking ∧
    (let d := (powered [(pagePwr + 0x104, 2)] (fun p => { p with waking := [0] })).part.dev
     0 ∈ d.power.waking ∧ d.sleepState 0 ≠ 3) ∧ isProcessor hkp.toNat = true ∧
    (∀ v ∈ [(0, false, false), (0x1000, true, false), (0x1100, true, true)], let d := (powered [(pagePwr + 0x100, v.1)]).part.dev
      d.changing = v.2.1 ∧ d.slowing = v.2.2) ∧
    isProcessor (0 : Agent).toNat = false ∧ (powered []).part.dev.power.clockDone = true ∧
    (powered [] (fun p => { p with railDone := false })).part.dev.power.railDone = false ∧
    (powered [] (fun p => { p with clockDone := false })).part.dev.power.clockDone = false ∧ (powered []).part.dev.power.railDone = true := by
  decide +kernel

theorem witness_SleepAndLevels_plan :
    let d := (running 3200).part.dev
    d.now + wakeLead + 1000 ≤ d.nextIssue 0 ∧ d.planRuns = true ∧ ¬((running 3199).part.dev.now + wakeLead + 1000 ≤ (running 3199).part.dev.nextIssue 0) := by
  decide +kernel

/-- A management-class frame of node 0 on port 0, which accepts group resets, is up and takes only checked frames. -/
def groupPort (l : List (Nat × Nat)) : State := port0 0x1001 ([(pagePwr + 0x144, 1), (pagePort 0 + 0x104, 11)] ++ l)
def fromHead : MeshHdr := { express with src := 0 }

theorem witness_ManagementResetsLoseMemory :
    isProcessor hkp.toNat = true ∧ isProcessor (0 : Agent).toNat = false ∧ (0xFFFF : BitVec 16).toNat = 0xFFFF ∧
    (let d := (powered [] (fun p => { p with inReset := true })).part.dev
     d.power.inReset = true ∧ d.power.pwrOk = true ∧ d.power.resetIn = false ∧ d.power.inputOk = true) ∧
    State.reset.part.dev.power.inReset = false ∧
    (let r := (groupPort []).part.dev.intake 0 fromHead (.fault 0 0xFFFF)
     r.1 = true ∧ bit (r.2.get (pagePwr + 0x144)) 0 = true ∧ bit (r.2.get (pagePort 0 + 0x104)) 3 = true ∧ fromHead.src.toNat = r.2.node / 16 * 16 ∧
     bit (r.2.get (pagePort 0 + 0x100)) 12 = true ∧ fromHead.macsecOk = true) ∧
    (let r := (groupPort []).part.dev.intake 0 express (.fault 1 0xFFFF)
     r.1 = true ∧ express.src.toNat ≠ r.2.node / 16 * 16) ∧
    ((port0 0).part.dev.intake 0 express (.fault 1 0xFFFF)).1 = false := by decide +kernel

def oldSvn : FlashCopy := { ok := false }
def reset0 (acting : Bool) : CoreReset := ⟨1, 0, 0, 4000, acting⟩

theorem witness_BootAndCoreResets :
    (∀ step ∈ List.range 11, (powered [] (fun p => { p with step := step })).part.dev.power.step = step) ∧
    ((mk (fun d => { d with rom := { d.rom with firmware := [oldSvn, oldSvn] } })).part.dev.goodFirmware = none ∧
      State.reset.part.dev.goodFirmware = some 0) ∧
    isProcessor hkp.toNat = true ∧ isProcessor (0 : Agent).toNat = false ∧ (powered []).part.dev.locked = false ∧
    (powered [(pageTb 4 + 0x108, 1)]).part.dev.locked = true ∧
    (State.reset.part.dev.power.coreResets.find? (fun r => !r.acting) = none ∧ State.reset.part.dev.power.coreResets.find? (·.acting) = none) ∧
    (bits (State.reset.part.dev.get (pagePwr + 0x150)) 1 0 = 0) ∧
    (∀ v ∈ [(999, true), (1000, false)], let d := (powered [(pagePwr + 0x150, 1), (pagePwr + 0x154, v.1)]).part.dev
      bits (d.get (pagePwr + 0x150)) 1 0 ≠ 0 ∧
      (d.get64 (pagePwr + 0x154) < d.now + 1000 + wakeDelay (d.sleepState (bits (d.get (pagePwr + 0x150)) 5 4)) ↔ v.2 = true)) ∧
    (∀ st ∈ [1, 2], let d := (powered [(pagePwr + 0x104, st)] (fun p => { p with coreResets := [reset0 false] })).part.dev
      d.power.coreResets.find? (fun r => !r.acting) = some (reset0 false) ∧ d.sleepState (reset0 false).die = st) ∧
    ((powered [] (fun p => { p with coreResets := [reset0 true] })).part.dev.power.coreResets.find? (·.acting) = some (reset0 true)) ∧
    (State.reset.part.dev.isDead 5 = false ∧ 5 ∉ State.reset.part.dev.fabric.failed) ∧
    (mk (fun d => d.onHist (fun h => { h with dead := [5] }))).part.dev.isDead 5 = true ∧
    5 ∈ (mk (fun d => d.onFabric (fun f => { f with failed := [5] }))).part.dev.fabric.failed := by decide +kernel

/-! ### Witnesses: commits and pages -/

/-- A commit of one page, the anvil control page of anvil 0, as it was submitted and as it is held. -/
def commit0 : Commit := { tag := 1, pages := [pageAnv 0], hk := true, apply := 100000 }
def held0 : Commit := { commit0 with pending := true }
def commits (l : List Commit) (r : List (Nat × Nat) := []) : State :=
  mk (fun _ => (regs r).part.dev.onCommits (fun c => { c with commits := l, nextTag := 2 }))

theorem witness_StagedCommits :
    isProcessor (0 : Agent).toNat = false ∧ State.reset.part.dev.commits.commits.find? (fun c => !c.pending) = none ∧
    State.reset.part.dev.pendingCommits.find? (fun c => c.tag == 1) = none ∧
    (let c : Commit := { commit0 with hk := false, list := 0x1000, n := 1 }
     let p := (commits [c]).part.touch c.list (4 * Nat.min c.n 256)
     (commits [c]).part.dev.commits.commits.find? (fun c => !c.pending) = some c ∧
     (p.controllerFailure c (if (p.rule01 c).isSome then [] else p.commitPages c)).isSome = true) ∧
    isProcessor hkp.toNat = true ∧
    (∀ c ∈ State.reset.part.dev.pendingCommits, c.tag ≠ 7) ∧ held0 ∈ (commits [held0]).part.dev.pendingCommits ∧
    (let p := (commits [commit0]).part
     p.dev.commits.commits.find? (fun c => !c.pending) = some commit0 ∧ p.mem.ecc = [] ∧ p.rule01 commit0 = none ∧
     p.controllerFailure commit0 (p.commitPages commit0) = none ∧ p.setFailure commit0.maint (p.commitPages commit0) = none) ∧
    (let c := { commit0 with apply := 0 }
     let p := (commits [c] [(pageCom + 0x120, 1)]).part
     p.controllerFailure c (p.commitPages c) = some (5, 0)) ∧
    (started 0).part.dev.planRuns = true ∧
    (let d := (commits [held0]).part.dev
     d.planRuns = false ∧ d.pendingCommits.find? (fun c => c.tag == (1 : BitVec 16).toNat) = some held0) ∧
    (∀ e ∈ stagedWords (pageAnv 0), pageAnv 0 + 4 ≠ pageAnv 0 + e.1) := by decide +kernel

/-- A set that a page's rule refuses: the staged trims of a serving page with a reserved code. -/
theorem witness_StagedCommits_rule :
    ∃ page word v, let p := (regs [(page + 0x800 + word, v)]).part
      (p.setFailure false [page]).isSome = true := ⟨pageNum 0, 0x140, 0xFFFFFFFF, by decide +kernel⟩

theorem witness_CaptureHoldsTheFirstError :
    (∀ w ∈ [0xFFFFFFFF], w < 2 ^ 32) ∧ ([0xFFFFFFFF] : List Nat).length ≤ 8 ∧ bit (State.reset.part.dev.get (pageCom + 0x1C)) 0 = false ∧
    bit ((regs [(pageCom + 0x1C, 1)]).part.dev.get (pageCom + 0x1C)) 0 = true ∧ isProcessor hkp.toNat = true ∧
    State.reset.part.dev.pageHere (pageOf pageCom) = true ∧ pageOf pageCom ≠ pageBht ∧ pageOf 0 ≠ pageOf pageCom := by decide +kernel

theorem witness_EventBits :
    (31 < 32) ∧ bit (State.reset.part.dev.get (pageCom + 0x10)) 31 = false ∧ bit ((regs [(pageCom + 0x10, 2 ^ 31)]).part.dev.get (pageCom + 0x10)) 31 = true ∧
    bit ((regs [(pageCom + 0x14, 2 ^ 31)]).part.dev.get (pageCom + 0x14)) 31 = true ∧ bit ((regs [(pageCom + 0x14, 0)]).part.dev.get (pageCom + 0x14)) 31 = false ∧
    pageCom + 0x14 ≠ pageBrd + 0x108 ∧ isProcessor hkp.toNat = true ∧ State.reset.part.dev.pageHere (pageOf pageCom) = true ∧ pageOf pageCom ≠ pageBht := by
  decide +kernel

/-- A numeric control page, which stages RT entries, held or not. -/
def paged (stat : Nat) : Device := (regs [(pageNum 0 + 0x40, stat)]).part.dev

theorem witness_PageWrites :
    isProcessor hkp.toNat = true ∧ ((8 : Nat) ≠ 4 ∧ 2 % 4 ≠ 0) ∧ State.reset.part.dev.pageHere (pageOf 0xF0000000) = false ∧ 0xF0000000 % 4 = 0 ∧
    (State.reset.part.dev.pageHere (pageOf (pageNum 0 + 0xF00)) = true ∧ pageOf (pageNum 0 + 0xF00) ≠ pageBht ∧ 0xF00 ≤ offByte (pageNum 0 + 0xF00)) ∧
    (let off := pageNum 0 + 0x940
     0x900 ≤ offByte off ∧ offByte off < 0xF00 ∧ (pageKind off).isSome = true ∧
     (∀ stat ∈ [0, 256], ((stagedWords (pageOf off)).find? (fun e => e.1 + 0x800 == offByte off)).isSome = true ∧
       (paged stat).pageHeld (pageOf off) = (stat == 256))) ∧
    (let off := pageNum 0 + 0x900
     ∀ e ∈ stagedWords (pageOf off), e.1 + 0x800 ≠ offByte off) ∧
    (State.reset.part.dev.pageHere pageBht = true ∧ pageOf pageBht = pageBht ∧ State.reset.part.dev.enumBit 12 = false ∧
      (regs [(pageMesh + 0x100, 0x1000)]).part.dev.enumBit 12 = true) ∧
    (pageKind (pageNum 0 + 0x14) = some .numerics ∧ offByte (pageNum 0 + 0x14) = 0x14 ∧ offByte (pageNum 0 + 0x18) = 0x18 ∧
      regRow .numerics 0x6F0 = none ∧ (regRow .numerics 0x100).any (fun r => r.rw == 0 && r.rwl == 0) = true) ∧
    State.reset.part.dev.commits.resets.find? (fun r => r.1 == pageOf (pageNum 0)) = none ∧ counterOffs (pageMap 0) = [] ∧
    (hasLock pagePwr = true ∧ hasLock pageSync = false ∧ counterOffs pagePwr ≠ []) ∧
    (pageKind (pageSeq 0) = some .sequencer ∧ (pageInfo .sequencer).blkReset = true ∧ pageKind (pageNum 0) = some .numerics ∧
      (pageInfo .numerics).blkReset = false) ∧ (0 : Nat) ≠ idType .sequencer (pageSeq 0) * 0x10000 + 0xA5C3 ∧
    ((mk (fun d => d.onCommits (fun c => { c with resets := [(pageNum 0, 64)] }))).part.dev.commits.resets.find? (fun r => r.1 == pageOf (pageNum 0)) =
      some (pageNum 0, 64)) ∧
    (0 < 6 ∧ pageCom + 0x13C < pageCom + 0x140 ∧ pageCom + 0x158 ≤ pageCom + 0x158) := by decide +kernel

theorem witness_PageWrites_plain :
    ∃ k o r, pageKind (pageHeat + o) = some k ∧ 0x100 ≤ o ∧ o < 0x700 ∧ regRow k o = some r ∧ r.rw = 0xFFFFFFFF ∧ r.rwl = 0 ∧
      k ≠ .commit ∧ k ≠ .sync ∧ k ≠ .monitor := ⟨.heatControl, 0x160, _, by decide +kernel, by decide, by decide, rfl, rfl, rfl, by decide, by decide, by decide⟩

/-! ### Witnesses: security, history and the board -/

def secured (f : SecWork → SecWork) (l : List (Nat × Nat) := []) : State := mk (fun _ => (regs l).part.dev.onWork f)

theorem witness_SecurityProcessor :
    isProcessor hkp.toNat = true ∧
    (let w := State.reset.part.dev.work
     w.challenge = none ∧ w.quote = none ∧ w.keyLoad = none) ∧
    (∀ mr ∈ [0, 7], (regs [(pageSec + 0x110, mr)]).part.dev.get (pageSec + 0x110) % 8 = mr) ∧ State.reset.part.mem.ecc = [] ∧
    (∀ v ∈ [(0, false), (16, true)], bit ((regs [(pageSec + 0x100, v.1)]).part.dev.get (pageSec + 0x100)) 4 = v.2) ∧
    ((secured (fun w => { w with tries := 3 })).part.dev.work.tries = 3 ∧ (secured (fun w => { w with tries := 2 })).part.dev.work.tries < 3) ∧
    State.reset.part.unlocks = false ∧
    ((secured (fun w => { w with blowing := true })).part.dev.work.blowing = true ∧ State.reset.part.dev.work.blowing = false) ∧
    (secured (fun w => { w with challenge := some 0 })).part.dev.work.challenge = some 0 ∧
    (secured (fun w => { w with quote := some (0, []) })).part.dev.work.quote = some (0, []) ∧
    ((regs [(pageTen + 0x500, 64)]).part.dev.keyName = none ∧ (regs [(pageTen + 0x500, 63)]).part.dev.keyName = some 63 ∧
      (regs [(pageTen + 0x500, 0xFF)]).part.dev.keyName = some 0xFF) ∧
    ((regs [(pageSec + 0x100, 4)]).part.dev.unlocked = true ∧ (regs [(pageSec + 0x100, 0)]).part.dev.unlocked = false) ∧
    (secured (fun w => { w with keyLoad := some (0, [1]) })).part.dev.work.keyLoad = some (0, [1]) := by decide +kernel

/-- An attempt unlocks in the time of its challenge when the signature verifies, which Config leaves open. -/
theorem witness_SecurityProcessor_unlock
    (h : Config.signatureValid (leBytes 32 Config.debugKey.toNat) (secured (fun w => { w with challenge := some 0 })).part.dev.challengeBytes
      (secured (fun w => { w with challenge := some 0 })).part.response = true) :
    (secured (fun w => { w with challenge := some 0 })).part.unlocks = true := by
  have e : (secured (fun w => { w with challenge := some 0 })).part.dev.work.challenge = some 0 := by decide +kernel
  have e2 : (secured (fun w => { w with challenge := some 0 })).part.dev.planRuns = false := by decide +kernel
  have e3 : decide ((secured (fun w => { w with challenge := some 0 })).part.dev.now < 0 + 600000000000) = true := by decide +kernel
  unfold Part.unlocks
  rw [h, e, e2]
  simpa using e3

/-- The proof table of one entry at 0, with heat program 0 or 1, and the programme that ran. -/
def proving (heat : Nat) (bytes : List Host.Cell) (held : Bool := true) : State :=
  let s := secured (fun w => { w with proof := some (0, false, held) }) [(pageHis + 0x118, 1)]
  { s with part := { s.part with mem := { bytes := (if heat = 0 then [] else [(4, 1)]) ++ bytes } } }

/-- The comparison of proof entry 0 as far as its counted touch of the output and the expected bytes. -/
def compared (s : State) : Part × ProofEntry :=
  let p := s.part.touch (s.part.dev.get64 (pageHis + 0x110) % 2 ^ 40) 32
  let e := p.proofEntry 0
  (((p.touch e.out e.len).touch e.expected e.len).onDev (·.count (pageHis + 0x130)), e)

theorem witness_HistoryAndBoard_proof :
    State.reset.part.dev.work.proof = none ∧ isProcessor (0 : Agent).toNat = false ∧
    (∀ heat ∈ [0, 1], ∀ held ∈ [true, false], let s := proving heat [] held
      s.part.dev.work.proof = some (0, false, held) ∧ 0 < s.part.dev.get (pageHis + 0x118) ∧ s.part.dev.planRuns = false ∧
      (compared s).2.heat = heat) ∧
    (let s := mk (fun _ => ((started 1 (fun h => { h with kind := 1, len := 5 })).part.dev.onWork (fun w => { w with proof := some (0, false, true) })))
     s.part.dev.work.proof = some (0, false, true) ∧ s.part.dev.planRuns = true ∧ s.part.dev.heat.kind = 1 ∧
     s.part.dev.now < s.part.dev.heat.start + s.part.dev.heat.len) ∧
    (let c := compared (proving 0 [])
     c.1.proofMatches c.2 = true) ∧
    (let c := compared (proving 0 [(0xC, 1), (0x10, 64), (0x18, 128), (64, 7)])
     c.1.proofMatches c.2 = false) := by decide +kernel

theorem witness_HistoryAndBoard :
    isProcessor hkp.toNat = true ∧
    (let d := (regs [(pageHis + 0x11C, sramBase % 2 ^ 32), (pageHis + 0x120, sramBase / 2 ^ 32), (pageHis + 0x128, 1)]).part.dev
     d.planRuns = false ∧ d.work.dump = none ∧ 1 ≤ d.get (pageHis + 0x128) ∧ d.get (pageHis + 0x128) ≤ 4096 ∧
     sramBase ≤ d.get64 (pageHis + 0x11C) % 2 ^ 40 ∧ d.get64 (pageHis + 0x11C) % 2 ^ 40 + 4096 * d.get (pageHis + 0x128) + 32 ≤ sramBase + 0x4000000) ∧
    (regs [(pageHis + 0x128, 4097)]).part.dev.get (pageHis + 0x128) = 4097 ∧
    (secured (fun w => { w with dump := some (0, 0, 1) })).part.dev.work.dump = some (0, 0, 1) ∧ State.reset.part.dev.work.dump = none ∧
    (∀ v ∈ [(4, 0, true, false), (3, 0, false, false), (4, 1, true, true)],
      let d := (regs [(pagePwr + 0x164, v.1), (pageBrd + 0x100, v.2.1)]).part.dev
      d.managed = v.2.2.1 ∧ d.i2cMode = v.2.2.2) ∧
    (let d := (secured (fun w => { w with i3cOffset := pageBrd }) [(pagePwr + 0x164, 4), (pageBrd + 0x104, 1)]).part.dev
     d.answersBoard = true ∧ offDie d.work.i3cOffset = 8 ∧ (d.readReg d.work.i3cOffset).isSome = true ∧ offDie 0 ≠ 8 ∧
     pageOf pageBrd = pageBrd ∧ pageOf 0 ≠ pageBrd) ∧
    State.reset.part.dev.answersBoard = false ∧ 15 < 16 := by decide +kernel

theorem witness_OnlyProcessorsWrite :
    isProcessor (BitVec.ofNat 26 (agentId 0 0 0)).toNat = false ∧ (Instr.wake (BitVec.ofNat 26 (agentId 0 0 0))).writer = some (BitVec.ofNat 26 (agentId 0 0 0)) := by
  decide +kernel

/-! ### Worked examples of the spec -/

/-- 01_module_anatomy.md: core 5 of cluster 6 on C2 has its store at 0x82_6500_0000 and the register unit 0xE5. -/
theorem test_core_addresses : storeBase (2 * 128 + 16 * 6 + 5) = 0x8265000000 ∧ offUnit (pageSeq 357) = 0xE5 := by decide +kernel

/-- 02_anvil_engines.md: the control page of anvil 66 of core 101 on C2 stands at 0x2E58_2000, and its ID reads 0x0A40_6542. -/
theorem test_anvil_page : pageAnv (68 * 357 + 66) = 0x2E582000 ∧ State.reset.part.dev.readReg 0x2E582000 = some 0x0A406542 := by decide +kernel

/-- 02_anvil_engines.md: the witness sums of the example give −11,750 ppm, +102 in 1/256 unit and 2,277 ppm. -/
def witnessSums : List Int := [40000000, 119200000, 198400000, 276480000, -39200000, -118400000, -197600000, -275680000]
theorem test_witness_registers :
    witGain witnessSums 40000000 = -11750 ∧ witOffs witnessSums 1000000 = 102 ∧ witResid witnessSums = 2277 := by decide +kernel

/-- 02_anvil_engines.md: the digits of the row sums 200, −300, 17 and 447. -/
theorem test_checksum_digits :
    digitsOf 200 = [3, 1, 0] ∧ digitsOf (-300) = [-5, 3, -4] ∧ digitsOf 17 = [0, 2, 1] ∧ digitsOf 447 = [7, 0, -1] := by decide +kernel

/-- 02_anvil_engines.md: weight −6 with the positive cell stuck at level 3 becomes −4. -/
theorem test_nearest_weight : (nearestPair (-6) (plainPair (-6)) (some 3) none).weight = -4 := by decide +kernel

/-- 02_anvil_engines.md: the planes of +5, −3, +7 and −8 and their weights; the pass gives +2. -/
theorem test_planes_of_a_pass :
    (List.range 4).map (fun p => [5, -3, 7, -8].map (planeBit 0 p)) =
      [[true, true, true, false], [false, false, true, false], [true, true, true, false], [false, true, false, true]] ∧
    sumInt (((List.range 4).map (planeWeight 0)).zipWith (· * ·) [-2, 2, -2, -1]) = 2 := by decide +kernel

/-- 03_numerics_and_bounds.md: the INT8 input −100 is struck as −7 and then as 12. -/
theorem test_nibbles : halfCode 2 0 (-100) = -7 ∧ halfCode 2 1 (-100) = 12 ∧ 16 * (-7 : Int) + 12 = -100 := by decide +kernel

/-- 05_plans_and_heats.md: rung 2 over three joins, 8 tokens and SPLIT costs 84 units. -/
theorem test_reheat_cost : reheatCost 0 3 3 true (.rung 2) = 84 := by decide +kernel

/-- 10_memory_integrity.md: granule 0x0123_4567 of stack 1 of die C1 stands at 0x18_91A2_B9C0. -/
theorem test_stack_granule : stackGranule (0x1891A2B9C0 / 64) = 0x01234567 ∧ inStack 1 1 (0x1891A2B9C0 / 64) = true := by decide +kernel

/-- 11_links_and_host.md: node 6 of group 5 sends to node 0 of its group on port 0; a full DATA frame is 4,162 bytes long. -/
theorem test_route : (regs [(pageMesh + 0x104, 0x56)]).part.dev.portTo 0x50 false = 0 ∧ (Cell.data { dhdr with len := 64 } []).size = 4162 := by
  decide +kernel

/-- 12_housekeeping_measurement.md: 80.6 °C after 71.0 °C is a rise of 9.6 °C, which is THROTTLE; a rise of 20.8 °C is QUENCH. -/
theorem test_rise_throttles :
    riseOf (some 1290) [some 1280, some 1136] = 154 ∧ State.reset.part.dev.thermalState (some 1290) 154 0 = 2 ∧
    State.reset.part.dev.thermalState (some 1290) 333 0 = 3 := by decide +kernel

/-- 12_housekeeping_measurement.md: at 58.5 °C the sets 2,010 and −3 at 45 °C, 1,950 and −5 at 65 °C give 1,970 and −4. -/
theorem test_interpolated_trims : interpolate [(0, 0), (2010, -3), (1950, -5), (0, 0), (0, 0)] 936 = (1970, -4) := by decide +kernel

/-- 14_register_pages_and_commit.md: the anvil map page of core 101 on C2 has the offset 0x2E53_F000. -/
theorem test_map_page : pageKind 0x2E53F000 = some .anvilMap ∧ pageCore 0x2E53F000 = some 357 := by decide +kernel

/-- 15_security_and_tenancy.md: TRB 0x8518_4000 and TRS 0x0004_0000 give tenant 5 the 16 GiB from 0x18_4000_0000. -/
theorem test_tenant_region :
    let d := (regs [(pageTen + 0x100, 0x85184000), (pageTen + 0x104, 0x40000)]).part.dev
    d.inRegion 5 0x1840000000 64 true = true ∧ d.inRegion 5 0x1C3FFFFFC0 64 true = true ∧ d.inRegion 5 0x1C40000000 64 true = false := by
  decide +kernel

/-- 16_reliability_and_field_test.md: three failures within 694 h are due, within 736 h they are not. -/
theorem test_permanent_slot :
    (⟨4, 0, 3, 1000000, 0, 3500000, 1900000, 1000000⟩ : ClassSlot).due = true ∧ (⟨4, 0, 3, 1000000, 0, 3650000, 1900000, 1000000⟩ : ClassSlot).due = false := by
  decide +kernel

/-- The check value of CRC-32C (RFC 3720, B.4): 32 bytes of zeros give 0x8A9136AA. -/
theorem test_crc32c : crc32c (List.replicate 32 0) = 0x8A9136AA := by decide +kernel

/-- SHA-256 of "abc" (FIPS 180-4). -/
theorem test_sha256_abc :
    sha256 [0x61, 0x62, 0x63] = beBytes 32 0xba7816bf8f01cfea414140de5dae2223b00361a396177a9cb410ff61f20015ad := by decide +kernel

/-! ### Results by hand from the rules -/

/-- R97: 1.5 + 2.25 = 3.75, 1 / 3 and √2 are rounded to nearest even, and the smallest subnormal doubles to the next one. -/
theorem test_fp32 :
    fAdd 0x3FC00000 0x40100000 = 0x40700000 ∧ fDiv 0x3F800000 0x40400000 = 0x3EAAAAAB ∧ fSqrt 0x40000000 = 0x3FB504F3 ∧
    fMul 0x00000001 0x40000000 = 0x00000002 := by decide +kernel

/-- 07_bellows_and_kv_pages.md: 6.1 / 0.015625 = 390.4 rounds in E4M3 to 384, and 480 becomes 448. -/
theorem test_e4m3 :
    (convertFp e4m3 (fMul 0x40C33333 0x42800000)).code = 0x7C ∧ toF32 (e4m3.decode 0x7C) = toF32 (Fp.ofInt 384) ∧ (convertFp e4m3 0x43F00000).code = 0x7E ∧
    toF32 (e4m3.decode 0x7E) = toF32 (Fp.ofInt 448) := by decide +kernel

/-- R228: 0xFFFF_FFFF + 1 saturates with OVERRUN. -/
theorem test_counter_saturates :
    (match exec (.syncCounterAdd 5 1 hkp) (unit5 (counterOf 0xFFFFFFFF)) with
     | .next t => (t.part.dev.obj 5).map (fun x => (x.val, x.overrun))
     | _ => none) = some (.counter 0xFFFFFFFF, true) := by decide +kernel

/-- R514: a power-on reset leaves RST_CAUSE with PWR_OK alone, whatever it held. -/
theorem test_power_on_cause :
    (match exec .pwrOkRise (regs [(pagePwr + 0x140, 0x3F)]) with
     | .next t => t.part.dev.get (pagePwr + 0x140)
     | _ => 0) = 2 := by decide +kernel

/-- R510 (13_power_reset_boot.md): a die whose next issue lies 2,000 ticks ahead stays awake, and one with 3,200 sleeps. -/
theorem test_s1_needs_a_gap :
    (match exec (.idleS1Expire 0) (running 2000), exec (.idleS1Expire 0) (running 3200) with
     | .next a, .next b => (a.part.dev.sleepState 0, b.part.dev.sleepState 0)
     | _, _ => (9, 9)) = (0, 1) := by decide +kernel

end Sys2Proof.Tests
end

section
/-! SUPPORT. Frames and messages read back from their bytes (R9, R422 to R425, R446): what the fields of a big-endian structure read,
what each of its flags and group classes reads, and from these the cells, the frames and the BHT bodies. -/

namespace Sys2Proof.Machine

/-! ### Big-endian fields (R9) -/

@[simp] theorem leBytes_length (n v : Nat) : (leBytes n v).length = n := by
  induction n generalizing v with
  | zero => rfl
  | succ n ih => exact congrArg (· + 1) (ih (v / 256))

@[simp] theorem beBytes_length (n v : Nat) : (beBytes n v).length = n := by simp [beBytes]

/-- The last byte of a big-endian number is its low byte. -/
theorem beBytes_succ (n v : Nat) : beBytes (n + 1) v = beBytes n (v / 256) ++ [BitVec.ofNat 8 v] := by
  simp [beBytes, leBytes]

theorem beNat_beBytes (n v : Nat) : beNat (beBytes n v) = v % 256 ^ n := by
  induction n generalizing v with
  | zero => simp [beBytes, leBytes, beNat, Nat.mod_one]
  | succ n ih =>
    have snoc : beNat (beBytes (n + 1) v) = beNat (beBytes n (v / 256)) * 256 + v % 256 := by
      simp [beBytes_succ, beNat]
    rw [snoc, ih, Nat.pow_succ', Nat.mod_mul]
    omega

/-- What lies at or after the end of the number in front stands behind it. -/
theorem drop_beBytes {n k : Nat} (h : n ≤ k) (v : Nat) (l : List Byte) : (beBytes n v ++ l).drop k = l.drop (k - n) := by
  rw [List.drop_append, List.drop_eq_nil_of_le (by simpa using h), beBytes_length, List.nil_append]

/-- The number in front of a structure reads as it was written. -/
@[simp] theorem beField_front {n v : Nat} (h : v < 256 ^ n) (l : List Byte) : beField (beBytes n v ++ l) 0 n = v := by
  rw [beField, List.drop_zero, List.take_left' (beBytes_length n v), beNat_beBytes, Nat.mod_eq_of_lt h]

/-- A field at or after the end of the number in front is one of what stands behind it. -/
@[simp] theorem beField_behind {n off : Nat} (h : n ≤ off) (v m : Nat) (l : List Byte) :
    beField (beBytes n v ++ l) off m = beField l (off - n) m := by
  rw [beField, drop_beBytes h, beField]

@[simp] theorem beField_cons {off : Nat} (h : 1 ≤ off) (b : Byte) (m : Nat) (l : List Byte) : beField (b :: l) off m = beField l (off - 1) m := by
  obtain ⟨k, rfl⟩ := Nat.exists_eq_add_of_le' h
  rfl

theorem beNat_zeros (k : Nat) : beNat (List.replicate k 0#8) = 0 := by
  induction k with
  | zero => rfl
  | succ k ih => simpa [beNat, List.replicate_succ] using ih

@[simp] theorem beField_zeros (k off n : Nat) : beField (List.replicate k 0#8) off n = 0 := by
  rw [beField, List.drop_replicate, List.take_replicate, beNat_zeros]

/-! ### Flags and classes (R424) -/

theorem flag_lt (b : Bool) : flag b < 2 := by cases b <;> decide

@[simp] theorem bit_flag (b : Bool) : bit (flag b) 0 = b := by cases b <;> rfl

theorem flagByte_cons (b : Bool) (l : List Bool) : flagByte (b :: l) = flag b + 2 * flagByte l := rfl

theorem flagByte_lt (l : List Bool) : flagByte l < 2 ^ l.length := by
  induction l with
  | nil => decide
  | cons b l ih =>
    have := flag_lt b
    rw [flagByte_cons, List.length_cons, Nat.pow_succ]
    omega

theorem flagByte_lt_256 {l : List Bool} (h : l.length ≤ 8) : flagByte l < 256 :=
  Nat.lt_of_lt_of_le (flagByte_lt l) (Nat.pow_le_pow_right (by decide) h)

/-- The first flag of a byte reads as it was written. -/
@[simp] theorem bit_flagByte_zero (b : Bool) (l : List Bool) : bit (flagByte (b :: l)) 0 = b := by
  have low : bit (flagByte (b :: l)) 0 = bit (flag b) 0 := by simp [bit, flagByte_cons]
  rw [low, bit_flag]

/-- The flags behind it are those of the rest. -/
@[simp] theorem bit_flagByte_succ (b : Bool) (l : List Bool) (i : Nat) : bit (flagByte (b :: l)) (i + 1) = bit (flagByte l) i := by
  have := flag_lt b
  have half : flagByte (b :: l) / 2 = flagByte l := by rw [flagByte_cons]; omega
  rw [← half, bit, bit, Nat.add_comm, Nat.shiftRight_add]
  rfl

@[simp] theorem classBytes_length (l : List Nat) : (classBytes l).length = 16 := by simp [classBytes]

/-- A list of 2n elements is the list of its n pairs. -/
theorem flatMap_getD_pairs (n : Nat) (l : List Nat) (h : l.length = 2 * n) :
    (List.range n).flatMap (fun i => [l.getD (2 * i) 0, l.getD (2 * i + 1) 0]) = l := by
  induction n generalizing l with
  | zero => simpa [eq_comm] using h
  | succ n ih =>
    match l, h with
    | a :: b :: l, h =>
      have tail := ih l (by simpa [Nat.mul_succ] using h)
      rw [List.range_succ_eq_map, List.flatMap_cons, List.flatMap_map]
      simpa [Nat.mul_succ] using tail

/-- Group classes read back from their nibbles. -/
theorem bytesClasses_classBytes (l : List Nat) (hlen : l.length = 32) (hlt : ∀ k ∈ l, k < 16) : bytesClasses (classBytes l) = l := by
  have class_lt : ∀ j, l.getD j 0 < 16 := fun j => by
    rw [List.getD_eq_getElem?_getD]
    cases h : l[j]? with
    | none => decide
    | some k => exact hlt k (List.mem_of_getElem? h)
  have nibbles_of (a b : Nat) (ha : a < 16) (hb : b < 16) :
      [(BitVec.ofNat 8 (16 * (a % 16) + b % 16)).toNat / 16, (BitVec.ofNat 8 (16 * (a % 16) + b % 16)).toNat % 16] = [a, b] := by
    rw [BitVec.toNat_ofNat]
    congr 1
    · omega
    · congr 1; omega
  calc bytesClasses (classBytes l)
      = (List.range 16).flatMap (fun i => [l.getD (2 * i) 0, l.getD (2 * i + 1) 0]) := by
        simp only [bytesClasses, classBytes, List.flatMap_map, nibbles_of _ _ (class_lt _) (class_lt _)]
    _ = l := flatMap_getD_pairs 16 l hlen

/-! ### Payloads (R424, R425) -/

theorem padTo_of_le {α : Type} {n : Nat} {l : List α} (h : l.length ≤ n) (a : α) : padTo n a l = l ++ List.replicate (n - l.length) a := by
  rw [padTo, List.take_of_length_le h]

/-- A cell's contents fit its 30 bytes of payload. -/
theorem Cell.payload_length_le (c : Cell) (h : c.express = true) : c.payload.length ≤ 30 := by
  cases c with
  | data | done => simp [Cell.express] at h
  | timing role => by_cases hr : role = 1 <;> simp [Cell.payload, hr]
  | _ => simp [Cell.payload]

/-- What follows the Tchivin header is the contents and zeros up to the end of the payload. -/
theorem Cell.framed_payload (c : Cell) :
    ∃ k, (if c.express then padTo 30 0 c.payload else c.payload) = c.payload ++ List.replicate k 0 := by
  cases h : c.express with
  | true => exact ⟨_, padTo_of_le (c.payload_length_le h) 0⟩
  | false => exact ⟨0, by simp⟩

/-- A DATA frame reads back its header and granules. -/
theorem readData_payload (h : DataHdr) (l rest : List Byte) (hlen : h.len < 2 ^ 8) (hl : l.length = 64 * h.len) :
    readData ((Cell.data h l).payload ++ rest) = .data h l := by
  have flags := flagByte_lt_256 (l := [h.sched, h.last, h.sig, h.defer, h.bht]) (by simp)
  have hpad : padTo (64 * h.len) 0#8 l = l := by rw [padTo_of_le (by omega)]; simp [hl]
  simp (disch := omega) [readData, Cell.payload, dataHeader, hpad, drop_beBytes, List.take_left' hl]

/-- Every type of frame reads back its contents, whatever zeros pad them. -/
theorem readCell_payload (c : Cell) (h : c.fits) (k : Nat) : readCell c.type (c.payload ++ List.replicate k 0) = some c := by
  cases c with
  | data hdr l =>
    obtain ⟨hlen, hl⟩ := h
    exact congrArg some (readData_payload hdr l _ hlen hl)
  | signal o sop v agent defer =>
    have := flag_lt defer
    simp only [Cell.fits] at h
    simp (disch := omega) [Cell.type, readCell, Cell.payload, Nat.mod_eq_of_lt]
  | heatArrive n replay failed unlock level cls missing stress =>
    have := flagByte_lt_256 (l := [replay, failed, unlock, stress]) (by simp)
    simp only [Cell.fits] at h
    simp (disch := omega) [Cell.type, readCell, Cell.payload, Nat.mod_eq_of_lt]
  | heatRelease n start level replay failed classes =>
    have := flagByte_lt_256 (l := [replay, failed]) (by simp)
    obtain ⟨hn, hstart, hlevel, hlen, hlt⟩ := h
    simp (disch := omega) [Cell.type, readCell, Cell.payload, drop_beBytes, -List.drop_one, List.take_left' (classBytes_length classes),
      bytesClasses_classBytes classes hlen hlt]
  | timing role t1 t2 t3 master group =>
    obtain ⟨hrole, h1, h2, h3, hmaster, hgroup, unsaid⟩ := h
    by_cases hr : role = 1
    · subst hr
      simp (disch := omega) [Cell.type, readCell, Cell.payload]
    · obtain ⟨rfl, rfl⟩ := unsaid hr
      simp (disch := omega) [Cell.type, readCell, Cell.payload, hr]
  | hello node group port serial nodeValid groupValid report ok =>
    have := flagByte_lt_256 (l := [nodeValid, groupValid, report, ok]) (by simp)
    simp only [Cell.fits] at h
    simp (disch := omega) [Cell.type, readCell, Cell.payload]
  | barArrive | barRelease | barFault | train | ringDisc | fault | done =>
    simp only [Cell.fits] at h
    simp (disch := omega) [Cell.type, readCell, Cell.payload, Nat.mod_eq_of_lt]

/-! ### BHT bodies (R446) -/

/-- A message reads back from its body, with its OP. -/
theorem readBody_bhtBody (op : Nat) (m : BhtMsg) (hop : op < 2 ^ 8) (hmsn : m.msn < 2 ^ 32) (hack : m.ackMsn < 2 ^ 32) (hlen : m.len < 2 ^ 32)
    (hsop : m.sop < 2 ^ 8) : readBody (bhtBody op m) = (op, m) := by
  have flags := flagByte_lt_256 (l := [m.first, m.last, m.sig, m.ece]) (by simp)
  simp (disch := omega) [readBody, bhtBody, drop_beBytes]

/-! ### Frames (R422, R423) -/

/-- The mesh MAC address of a node's port is no broadcast address. -/
theorem meshMac_lt {node port : Nat} (hn : node < 512) (hp : port < 8) : meshMac node port < 0xFFFFFFFFFFFF := by
  unfold meshMac; omega

theorem Cell.type_lt (c : Cell) : c.type < 256 := by cases c <;> simp [Cell.type]

/-- A frame to a port reads there as its header and what its type and payload spell. -/
theorem readFrame_meshFrame (node port srcMac : Nat) (src dst : Node) (hops : BitVec 8) (seq heat : U32) (c : Cell) (fcsOk macsecOk : Bool)
    (hn : node < 512) (hp : port < 8) :
    readFrame node port (meshFrame (meshMac node port) srcMac src.toNat dst.toNat hops.toNat seq.toNat heat.toNat c) fcsOk macsecOk =
      (readCell c.type (if c.express then padTo 30 0 c.payload else c.payload)).map (fun x =>
        ({ toOwn := true, broadcast := false, express := c.express, dst := dst, src := src, hops := hops, seq := seq, heat := heat
           fcsOk := fcsOk, macsecOk := macsecOk }, x)) := by
  have mac := meshMac_lt hn hp
  have flags := flag_lt c.express
  have type := c.type_lt
  have notAll : (meshMac node port == 0xFFFFFFFFFFFF) = false := beq_false_of_ne (Nat.ne_of_lt mac)
  have version : (0x10 + flag c.express) / 16 = 1 := by omega
  have express : bit (0x10 + flag c.express) 0 = c.express := by cases c.express <;> rfl
  simp (disch := omega) [readFrame, meshFrame, tchivinHeader, drop_beBytes, version, express, notAll]

/-- Settles O42: a frame reads back as its header and its contents behind zeros, a body as its OP and message. -/
theorem framesAndMessagesReadBack : Obligations.FramesAndMessagesReadBack := by
  refine ⟨fun node port srcMac src dst hops seq heat c fcsOk macsecOk hn hp hc => ?_, readBody_bhtBody⟩
  obtain ⟨k, hk⟩ := c.framed_payload
  rw [readFrame_meshFrame node port srcMac src dst hops seq heat c fcsOk macsecOk hn hp, hk, readCell_payload c hc, Option.map_some]

end Sys2Proof.Machine
end

section
/-! SUPPORT. What the timers, notifications and storage reads of BHT sessions do in each of their cases, and what a host port sends
besides (R443, R444, R449, R451 to R453, R456, R457). -/

namespace Sys2Proof.Machine

/-! ### Timers (R449, R451 to R453) -/

section Timers
variable {d : Device} {n msn : Nat} {x : BhtSession} {o : BhtOut}

theorem opRetxTimeout_no_session (h : d.session n = none) : opRetxTimeout n msn d = d := by simp [opRetxTimeout, h]

theorem opRetxTimeout_not_flying (h : d.session n = some x) (ho : x.flying.find? (fun o => o.msg.msn == msn) = none) :
    opRetxTimeout n msn d = d := by
  simp [opRetxTimeout, h, ho]

/-- The eighth timeout of one message closes the session. -/
theorem opRetxTimeout_eighth (h : d.session n = some x) (ho : x.flying.find? (fun o => o.msg.msn == msn) = some o) (h8 : 7 ≤ o.timeouts) :
    opRetxTimeout n msn d = ((d.closeSession n).count (pageBht + 0x150)).bhtEvent 2 stTimeout n x.pnOut := by
  have last : 8 ≤ o.timeouts + 1 := by omega
  simp [opRetxTimeout, h, ho, last]

/-- An earlier one halves the window and sends the message again. -/
theorem opRetxTimeout_again (h : d.session n = some x) (ho : x.flying.find? (fun o => o.msg.msn == msn) = some o) (h7 : o.timeouts < 7) :
    opRetxTimeout n msn d =
      (((d.setSession n (BhtSession.halve { x with flying := x.flying.map (fun (q : BhtOut) =>
        if q.msg.msn == msn then { o with timeouts := o.timeouts + 1, again := true, sentAt := d.now } else q) } d.now)).count
          (pageBht + 0x148)).sendPacket n o.op o.msg) := by
  have notLast : ¬8 ≤ o.timeouts + 1 := by omega
  simp only [opRetxTimeout, h, ho, notLast, if_false]

theorem opAckTimer_no_session (h : d.session n = none) : opAckTimer n d = d := by simp [opAckTimer, h]

theorem opAckTimer_none_owed (h : d.session n = some x) (hx : x.unacked = 0) : opAckTimer n d = d := by simp [opAckTimer, h, hx]

theorem opAckTimer_owed (h : d.session n = some x) (hx : x.unacked ≠ 0) : opAckTimer n d = d.sendPacket n 4 blankMsg := by
  simp [opAckTimer, h, hx, Device.sendAck]

end Timers

/-! ### Notifications (R456) -/

section Notifications
variable {d : Device} {n o : Nat} {x : BhtSession} {w : Nat × Option Nat}

theorem opBhtNotify_no_session (h : d.session n = none) : opBhtNotify n o d = d := by simp [opBhtNotify, h]

theorem opBhtNotify_not_watched (h : d.session n = some x) (hw : x.watch.find? (fun w => w.1 % 2 ^ 14 == o) = none) :
    opBhtNotify n o d = d := by
  simp only [opBhtNotify, h, Option.bind_some, hw]

/-- Sooner than 10 µs after the last notification nothing is sent. -/
theorem opBhtNotify_soon {t : Nat} (h : d.session n = some x) (hw : x.watch.find? (fun w => w.1 % 2 ^ 14 == o) = some w)
    (ht : w.2 = some t) (hsoon : d.now < t + 10000) : opBhtNotify n o d = d := by
  simp only [opBhtNotify, h, Option.bind_some, hw, ht, hsoon, decide_true, if_true]

/-- Otherwise the notification is noted and sent, with the value of an object of this node, or a free one of another. -/
theorem opBhtNotify_due (h : d.session n = some x) (hw : x.watch.find? (fun w => w.1 % 2 ^ 14 == o) = some w)
    (hdue : ∀ t, w.2 = some t → t + 10000 ≤ d.now) :
    opBhtNotify n o d =
      (let e := d.onSession n (fun x => { x with watch := x.watch.map (fun v => if v.1 == w.1 then (w.1, some d.now) else v) })
       if 2 ^ 14 ≤ w.1 then e.drawn.sendMessage n 8 { blankMsg with
          node := BitVec.ofNat 8 (w.1 / 2 ^ 14 - 1), obj := BitVec.ofNat 14 o, value := BitVec.ofNat 32 (Config.remoteValue e.free).toNat }
       else e.sendMessage n 8 { blankMsg with
          node := BitVec.ofNat 8 (e.node % 16), obj := BitVec.ofNat 14 o, value := BitVec.ofNat 32 (dbgValue (e.obj o)) }) := by
  obtain ⟨key, last⟩ := w
  cases last with
  | none =>
    by_cases far : 2 ^ 14 ≤ key <;>
      simp only [opBhtNotify, h, Option.bind_some, hw, far, decide_true, decide_false, reduceIte, Bool.false_eq_true]
  | some t =>
    have notSoon : ¬d.now < t + 10000 := Nat.not_lt.mpr (hdue t rfl)
    by_cases far : 2 ^ 14 ≤ key <;>
      simp only [opBhtNotify, h, Option.bind_some, hw, notSoon, far, decide_true, decide_false, reduceIte, Bool.false_eq_true]

end Notifications

/-! ### Storage reads (R457) -/

section Storage
variable {d : Device} (node object offset len : Nat)

theorem opStoreRead_off (h : d.bhtOn = false) : opStoreRead node object offset len d = d := by simp [opStoreRead, h]

theorem opStoreRead_no_session (h : d.bhtOn = true) (hs : d.storeSession = none) :
    opStoreRead node object offset len d = d.bhtEvent 4 stOk 0 0 := by
  simp [opStoreRead, h, hs]

/-- With a storage session the request takes an OPID, is kept and is sent. -/
theorem opStoreRead_sent {n : Nat} (h : d.bhtOn = true) (hs : d.storeSession = some n) :
    opStoreRead node object offset len d =
      (d.drawn.onBht (fun b => { b with
        stores := b.stores ++ [{ opid := d.newOpid, node := node, object := object, offset := offset, len := len }] })).sendMessage n 9
        { blankMsg with
          node := BitVec.ofNat 8 node, opid := BitVec.ofNat 32 d.newOpid, addr := BitVec.ofNat 64 offset, len := len
          data := leBytes 16 object } := by
  simp [opStoreRead, h, hs]

end Storage

/-! ### Host ports (R443, R444) -/

section HostPorts
variable {d : Device} {p : Nat} (target mac : Nat)

/-- A port that is no enabled host port takes and sends nothing of the kind. -/
theorem hostPortOps_off (h : d.hostPort p = false) :
    opNeighborSolicitation p target mac d = d ∧ opNeighborAdvertisement p target mac d = d ∧ opGatewaySolicit p d = d ∧ opLldpSend p d = d := by
  simp [opNeighborSolicitation, opNeighborAdvertisement, opGatewaySolicit, opLldpSend, h]

theorem opNeighborSolicitation_own (h : d.hostPort p = true)
    (own : target = linkLocal (Config.portMac p).toNat ∨ target = d.ip6 0x100) : opNeighborSolicitation p target mac d =
      ((d.count64 (pagePort p + 0x128) 1).count64 (pagePort p + 0x120) 1).send (.advert p target mac) := by
  simp [opNeighborSolicitation, h, own]

theorem opNeighborSolicitation_other (h : d.hostPort p = true)
    (own : ¬(target = linkLocal (Config.portMac p).toNat ∨ target = d.ip6 0x100)) :
    opNeighborSolicitation p target mac d = d.count (pagePort p + 0x158) := by
  simp [opNeighborSolicitation, h, own]

theorem opNeighborAdvertisement_gateway (h : d.hostPort p = true) (hg : target = d.ip6 0x110) (hs : (d.port p).solicited = true) :
    opNeighborAdvertisement p target mac d = (d.count64 (pagePort p + 0x128) 1).onBht (fun b => { b with gateway := some mac }) := by
  simp [opNeighborAdvertisement, h, hg, hs]

theorem opNeighborAdvertisement_other (h : d.hostPort p = true) (ho : target ≠ d.ip6 0x110 ∨ (d.port p).solicited = false) :
    opNeighborAdvertisement p target mac d = d.count (pagePort p + 0x158) := by
  have notAsked : ¬(target = d.ip6 0x110 ∧ (d.port p).solicited = true) := by
    rintro ⟨hg, hs⟩
    rcases ho with hn | hn
    · exact hn hg
    · simp [hs] at hn
  simp [opNeighborAdvertisement, h, notAsked]

theorem opGatewaySolicit_on (h : d.hostPort p = true) : opGatewaySolicit p d =
    ((d.onPort p (fun x => { x with solicited := true })).count64 (pagePort p + 0x120) 1).send (.solicit p (d.ip6 0x110)) := by
  simp [opGatewaySolicit, h]

theorem opLldpSend_on (h : d.hostPort p = true) :
    opLldpSend p d = (d.count64 (pagePort p + 0x120) 1).send (.lldp p d.serial d.rom.fuses.grade d.usable.length) := by
  simp [opLldpSend, h, Device.partNumber]

end HostPorts

/-! ### The commands -/

/-- A command over the module's device answers the state with the device that its operation makes. -/
theorem State.onDev_next (s : State) {f : Device → Device} {d : Device} (h : f s.part.dev = d) : s.onDev f = .next (s.withDev d) := by
  rw [← h]; rfl

/-- It answers the state as it was where the operation does nothing. -/
theorem State.onDev_same (s : State) {f : Device → Device} (h : f s.part.dev = s.part.dev) : s.onDev f = .next s :=
  s.onDev_next h

/-- Settles O45: each command is its operation on the device, whose cases are the lemmas above. -/
theorem bhtTimersStorageAndNeighbours : Obligations.BhtTimersStorageAndNeighbours := by
  refine ⟨⟨fun s n msn => ?retx, fun s n => ?ack, fun s n o => ?notify, fun s node object offset len => ?store⟩,
    fun s p _ target mac => ?ports⟩
  case retx =>
    refine ⟨fun h => ?_, fun x h ho => ?_, fun x o h ho => ⟨fun h8 => ?_, fun h7 => ?_⟩⟩
    · exact s.onDev_same (opRetxTimeout_no_session h)
    · exact s.onDev_same (opRetxTimeout_not_flying h ho)
    · exact s.onDev_next (opRetxTimeout_eighth h ho h8)
    · exact s.onDev_next (opRetxTimeout_again h ho h7)
  case ack =>
    refine ⟨fun h => ?_, fun x h hx => ?_, fun x h hx => ?_⟩
    · exact s.onDev_same (opAckTimer_no_session h)
    · exact s.onDev_same (opAckTimer_none_owed h hx)
    · exact s.onDev_next (opAckTimer_owed h hx)
  case notify =>
    refine ⟨fun h => ?_, fun x h hw => ?_, fun x w h hw => ⟨fun ⟨t, ht, hsoon⟩ => ?_, fun hdue near => ?_, fun hdue far => ?_⟩⟩
    · exact s.onDev_same (opBhtNotify_no_session h)
    · exact s.onDev_same (opBhtNotify_not_watched h hw)
    · exact s.onDev_same (opBhtNotify_soon h hw ht hsoon)
    · exact s.onDev_next ((opBhtNotify_due h hw hdue).trans (if_neg (Nat.not_le.mpr near)))
    · exact s.onDev_next ((opBhtNotify_due h hw hdue).trans (if_pos far))
  case store =>
    refine ⟨fun h => ?_, fun h hs => ?_, fun n h hs => ?_⟩
    · exact s.onDev_same (opStoreRead_off _ _ _ _ h)
    · exact s.onDev_next (opStoreRead_no_session _ _ _ _ h hs)
    · exact s.onDev_next (opStoreRead_sent _ _ _ _ h hs)
  case ports =>
    refine ⟨fun h => ?off, fun h => ⟨fun own => ?_, fun own => ?_, fun hg hs => ?_, fun ho => ?_, ?_, ?_⟩⟩
    case off =>
      obtain ⟨solicitation, advertisement, gateway, lldp⟩ := hostPortOps_off target.toNat mac.toNat h
      exact ⟨s.onDev_same solicitation, s.onDev_same advertisement, s.onDev_same gateway, s.onDev_same lldp⟩
    · exact s.onDev_next (opNeighborSolicitation_own _ _ h own)
    · exact s.onDev_next (opNeighborSolicitation_other _ _ h own)
    · exact s.onDev_next (opNeighborAdvertisement_gateway _ _ h hg hs)
    · exact s.onDev_next (opNeighborAdvertisement_other _ _ h ho)
    · exact s.onDev_next (opGatewaySolicit_on h)
    · exact s.onDev_next (opLldpSend_on h)

end Sys2Proof.Machine
end

section
/-! SUPPORT. What memory reads as after a write of whole granules, and after the pieces of a transfer (R31, R241, R386). -/

namespace Sys2Proof.Machine

/-! ### Granules -/

/-- The granules that a range touches. -/
theorem mem_granules {a n g : Nat} : g ∈ granules a n ↔ 0 < n ∧ a / 64 ≤ g ∧ g ≤ (a + n - 1) / 64 := by
  unfold granules
  split
  · simp_all
  · simp only [List.mem_map, List.mem_range]
    constructor
    · rintro ⟨i, hi, rfl⟩
      omega
    · rintro ⟨_, hlo, hhi⟩
      exact ⟨g - a / 64, by omega, by omega⟩

/-- A piece at a multiple of 64 is one granule. -/
theorem granules_piece {a : Nat} (h : a % 64 = 0) : granules a 64 = [a / 64] := by
  have one : (a + 64 - 1) / 64 + 1 - a / 64 = 1 := by omega
  rw [granules, if_neg (by decide), one]
  rfl

theorem mem_granules_of_covers {a n g : Nat} (h : coversGranule a n g = true) : g ∈ granules a n := by
  simp only [coversGranule, Bool.and_eq_true, decide_eq_true_eq] at h
  rw [mem_granules]
  omega

/-! ### A write of whole granules (R386) -/

/-- A byte of data is taken as zero where its granule is poisoned. -/
theorem getD_zeroPoison (poison : List Nat) (a : Nat) (data : List Byte) (j : Nat) :
    (zeroPoison poison a data).getD j 0 = if poison.contains ((a + j) / 64) then 0 else data.getD j 0 := by
  simp only [zeroPoison, List.getD_eq_getElem?_getD, List.getElem?_map, List.getElem?_zipIdx]
  cases data[j]? <;> simp

/-- A byte of a granule that a write covers whole reads as the data, or zero where the granule arrives poisoned. -/
theorem Memory.byte_write_whole (m : Memory) {a x : Nat} (data : List Byte) (arrives : List Nat)
    (hc : coversGranule a data.length (x / 64) = true) :
    (m.write a data arrives).byte x = if arrives.contains (x / 64) then 0 else data.getD (x - a) 0 := by
  have hgs := mem_granules_of_covers hc
  have hx : a ≤ x ∧ x < a + data.length := by
    simp only [coversGranule, Bool.and_eq_true, decide_eq_true_eq] at hc
    omega
  have hax : a + (x - a) = x := by omega
  simp only [Memory.write]
  rw [Memory.byte_poisonGranules _ _ (by simp [hgs, hc])]
  have len (l : List Nat) : (zeroPoison l a data).length = data.length := by simp [zeroPoison]
  simp only [Memory.byte, smapGet_splice, len, if_pos hx, getD_zeroPoison, hax]
  have marks : ∀ l, (setInserts (m.poison.filter fun g =>
      !((granules a data.length).filter fun g => coversGranule a data.length g).contains g) l).contains (x / 64) = l.contains (x / 64) := by
    intro l
    rw [Bool.eq_iff_iff]
    simp [mem_setInserts, hgs, hc]
  rw [marks]
  simp [hgs]

/-! ### The pieces of a transfer (R31, R241) -/

/-- One piece of a transfer, written where its address is present. -/
def Part.writePiece (dst : Nat) (data : List Byte) (poison : List Nat) (p : Part) (i : Nat) : Part :=
  let a := dst + 64 * i
  if p.dev.pieceHere a then
    p.onMem (·.write a ((data.drop (64 * i)).take 64) (if poison.contains i then granules a 64 else []))
  else p

/-- A transfer's pieces are written one after another. -/
theorem Part.writePieces_eq_foldl (p : Part) (dst : Nat) (data : List Byte) (poison : List Nat) :
    p.writePieces dst data poison = (List.range (data.length / 64)).foldl (Part.writePiece dst data poison) p := rfl

/-- A piece that is present is a write of one granule. -/
theorem Part.byte_writePiece (p : Part) {dst i : Nat} {data : List Byte} (poison : List Nat) (x : Nat) (ha : dst % 64 = 0)
    (hi : 64 * (i + 1) ≤ data.length) (hh : p.dev.pieceHere (dst + 64 * i) = true) :
    (p.writePiece dst data poison i).mem.byte x =
      if x / 64 = dst / 64 + i then (if poison.contains i then 0 else data.getD (x - dst) 0) else p.mem.byte x := by
  have len : ((data.drop (64 * i)).take 64).length = 64 := by simp; omega
  have piece : granules (dst + 64 * i) 64 = [dst / 64 + i] := by rw [granules_piece (by omega)]; congr 1; omega
  simp only [Part.writePiece, hh, if_true, Part.onMem_mem, piece]
  by_cases hx : x / 64 = dst / 64 + i
  · have whole : coversGranule (dst + 64 * i) ((data.drop (64 * i)).take 64).length (x / 64) = true := by
      simp only [coversGranule, len, Bool.and_eq_true, decide_eq_true_eq]
      omega
    have place : ((data.drop (64 * i)).take 64).getD (x - (dst + 64 * i)) 0 = data.getD (x - dst) 0 := by
      have lt : x - (dst + 64 * i) < 64 := by omega
      have at_ : 64 * i + (x - (dst + 64 * i)) = x - dst := by omega
      simp only [List.getD_eq_getElem?_getD, List.getElem?_take, lt, if_true, List.getElem?_drop, at_]
    rw [Memory.byte_write_whole _ _ _ whole, if_pos hx, place, hx]
    cases poison.contains i <;> simp
  · rw [if_neg hx, Memory.byte_write_other _ _ _ _ (by omega)]
    cases poison.contains i <;> simp [hx]

@[simp] theorem Part.writePiece_dev (p : Part) (dst : Nat) (data : List Byte) (poison : List Nat) (i : Nat) :
    (p.writePiece dst data poison i).dev = p.dev := by
  simp only [Part.writePiece]
  split <;> rfl

@[simp] theorem Part.foldl_writePiece_dev (p : Part) (dst : Nat) (data : List Byte) (poison l : List Nat) :
    (l.foldl (Part.writePiece dst data poison) p).dev = p.dev := by
  induction l generalizing p with
  | nil => rfl
  | cons i l ih => rw [List.foldl_cons, ih, Part.writePiece_dev]

/-- After the first n pieces, all present, their bytes have landed and no other byte has changed. -/
theorem Part.byte_foldl_writePiece (p : Part) {dst : Nat} {data : List Byte} (poison : List Nat) (x : Nat) (ha : dst % 64 = 0) (n : Nat)
    (hn : 64 * n ≤ data.length) (hh : ∀ i < n, p.dev.pieceHere (dst + 64 * i) = true) :
    ((List.range n).foldl (Part.writePiece dst data poison) p).mem.byte x =
      if dst ≤ x ∧ x < dst + 64 * n then (if poison.contains ((x - dst) / 64) then 0 else data.getD (x - dst) 0) else p.mem.byte x := by
  induction n with
  | zero => rw [if_neg (by omega)]; rfl
  | succ n ih =>
    have before := ih (by omega) (fun i hi => hh i (by omega))
    rw [List.range_succ, List.foldl_append, List.foldl_cons, List.foldl_nil,
      Part.byte_writePiece _ poison x ha hn (by simpa using hh n (by omega)), before]
    by_cases hx : x / 64 = dst / 64 + n
    · have here : (x - dst) / 64 = n := by omega
      have inside : dst ≤ x ∧ x < dst + 64 * (n + 1) := by omega
      rw [if_pos hx, if_pos inside, here]
    · have same : (dst ≤ x ∧ x < dst + 64 * n) ↔ (dst ≤ x ∧ x < dst + 64 * (n + 1)) := by omega
      simp only [if_neg hx, same]

/-- Settles O22: every piece is a write of one granule, and the pieces lie side by side. -/
theorem transferLandsByteForByte : Obligations.TransferLandsByteForByte := by
  intro p dst data poison x hwf ha hlen hall n
  have here : ∀ i < data.length / 64, p.dev.pieceHere (dst + 64 * i) = true := by simpa [Device.allHere] using hall
  have whole : 64 * (data.length / 64) = data.length := by omega
  have bytes := p.byte_foldl_writePiece poison x ha (data.length / 64) (Nat.le_of_eq whole) here
  rw [← Part.writePieces_eq_foldl, whole] at bytes
  exact ⟨Part.wf_writePieces dst data poison hwf, fun out => bytes.trans (if_neg out), fun inside => bytes.trans (if_pos inside)⟩

end Sys2Proof.Machine
end

section
/-! SUPPORT. What an XFER word and the completion of a transfer do in each of their cases (R31, R188, R241, R387). -/

namespace Sys2Proof.Machine

/-! ### Commands over the module -/

/-- A command over the module answers the state with the module that its operation makes. -/
theorem State.onPart_next (s : State) {f : Part → Part} {p : Part} (h : f s.part = p) : s.onPart f = .next (s.withPart p) := by
  rw [← h]; rfl

/-- It answers the state as it was where the operation does nothing. -/
theorem State.onPart_same (s : State) {f : Part → Part} (h : f s.part = s.part) : s.onPart f = .next s :=
  s.onPart_next h

/-- A processor's register write is its operation on the device. -/
theorem State.onDev_written (s : State) {agent : Nat} {f : Device → Device} {d : Device} (ha : isProcessor agent = true)
    (h : f s.part.dev = d) : s.onDev (fun d => d.written agent f) = .next (s.withDev d) :=
  s.onDev_next ((Device.written_processor _ f ha).trans h)

/-! ### The XFER word (R188) -/

section XferWord
variable {p : Part} {c w e : Nat}

/-- An XFER word without its EXT word behind it is dropped. -/
theorem opXferWord_no_ext (h : p.dev.AtWord c w) (ho : wOp w = opXfer) (hx : (p.dev.issued c w).extWord c = none) :
    opXferWord c p = { p with dev := (p.dev.issued c w).dropWord c (p.dev.wordPtr c) (p.dev.wordTick c w) w } := by
  simp only [opXferWord, Device.next_at h (wanted := isOp opXfer) (by simp [isOp, ho]), hx]

/-- With it, the word is dropped where its engine is full, and else starts its transfer. -/
theorem opXferWord_ext (h : p.dev.AtWord c w) (ho : wOp w = opXfer) (hx : (p.dev.issued c w).extWord c = some e) :
    let d := ((p.dev.issued c w).count (pageSeq c + 0x114)).bump c
    opXferWord c p = if d.engineFull (engineOf c (xferWord w e).eng) = true
      then { p with dev := d.dropWord c (p.dev.wordPtr c) (p.dev.wordTick c w) w }
      else ({ p with dev := d } : Part).startTransfer c (p.dev.wordPtr c) (xferWord w e) := by
  simp only [opXferWord, Device.next_at h (wanted := isOp opXfer) (by simp [isOp, ho]), hx]

end XferWord

/-! ### The end of a transfer (R31, R241, R387) -/

section Landing
variable {p : Part} {t : Transfer}

/-- The oldest transfer of its engine waits for a closing router, or leaves the queue and is delivered (R42, R246). -/
theorem opTransferDone_oldest {place : Nat} (ht : p.dev.transfers[place]? = some t) (ho : p.dev.oldestOf t = place) :
    opTransferDone place p = if p.dev.waitsRouter t = true then p
      else ((p.onDev (fun d => { d with transfers := listDrop d.transfers place })).deliverTransfer t).onDev (·.settleRouters) := by
  simp only [opTransferDone, ht, ho, Option.getD_some]

/-- A transfer to another module goes out as its frames in address order. -/
theorem Part.deliverTransfer_away (h : p.dev.ownModule t.node = false) :
    p.deliverTransfer t = p.onDev (fun d => (t.frames (d.seqAgent t.core)).foldl (fun d f => d.cellTo t.node f) d) := by
  simp [Part.deliverTransfer, h]

theorem Part.deliverTransfer_own (h : p.dev.ownModule t.node = true) : p.deliverTransfer t = p.landHere t := by
  simp [Part.deliverTransfer, h]

/-- A transfer into a reset is lost (R258, R519). -/
theorem Part.landHere_inReset (h : p.dev.inReset t.dst t.data.length = true) :
    p.landHere t = p.onDev (·.loseWords t.core [(opXfer, t.idx)]) := by
  simp [Part.landHere, h]

/-- One narrower than its codeword is refused (R387). -/
theorem Part.landHere_narrow (hr : p.dev.inReset t.dst t.data.length = false) (hn : isNarrow t.dst t.data.length = true)
    (hd : p.dev.reachable t.dst = true) :
    p.landHere t = p.onDev (·.refuseNarrow t.dst t.data.length (p.dev.seqAgent t.core)) := by
  simp [Part.landHere, hr, hn, hd]

/-- Any other lands, and signals where every piece was present. -/
theorem Part.landHere_lands (hr : p.dev.inReset t.dst t.data.length = false)
    (hw : isNarrow t.dst t.data.length = false ∨ p.dev.reachable t.dst = false) :
    p.landHere t =
      let q := (p.writePieces t.dst t.data t.poison).onDev (·.landStatuses t.dst t.statuses)
      if !t.absent && p.dev.allHere t.dst (t.data.length / 64)
        then q.onDev (·.planSignal t.core t.idx 0x1FF t.obj t.sop 1 t.defer) else q := by
  have wide : (isNarrow t.dst t.data.length && p.dev.reachable t.dst) = false := Bool.and_eq_false_iff.mpr hw
  simp only [Part.landHere, hr, wide, Bool.false_eq_true, if_false]

end Landing

/-- Settles O21: each command is its operation on the module, whose cases are the lemmas above. -/
theorem transfersMoveTheirBytes : Obligations.TransfersMoveTheirBytes := by
  refine ⟨fun s c w e h ho => ⟨fun hx => ?_, fun hx => ⟨fun full => ?_, fun room => ?_⟩⟩, fun s place t => ?done⟩
  · exact s.onPart_next (opXferWord_no_ext h ho hx)
  · exact s.onPart_next ((opXferWord_ext h ho hx).trans (if_pos full))
  · exact s.onPart_next ((opXferWord_ext h ho hx).trans (if_neg (by simp [room])))
  case done =>
    intro d ht ho d1 p1 answers
    have delivered {q : Part} (hw : d.waitsRouter t = false) (hq : p1.deliverTransfer t = q) : answers q :=
      s.onPart_next ((opTransferDone_oldest ht ho).trans ((if_neg (by simp [d, hw])).trans (congrArg (·.onDev (·.settleRouters)) hq)))
    refine ⟨fun hw => ?_, fun hw => ⟨fun own hr => ⟨fun wide => ?_, fun narrow here => ?_⟩, fun own hr => ?_, fun away => ?_⟩⟩
    · exact s.onPart_same ((opTransferDone_oldest ht ho).trans (if_pos hw))
    · exact delivered hw ((Part.deliverTransfer_own (p := p1) own).trans (Part.landHere_lands hr wide))
    · exact delivered hw ((Part.deliverTransfer_own (p := p1) own).trans (Part.landHere_narrow hr narrow here))
    · exact delivered hw ((Part.deliverTransfer_own (p := p1) own).trans (Part.landHere_inReset hr))
    · exact delivered hw (Part.deliverTransfer_away (p := p1) away)

end Sys2Proof.Machine
end

section
/-! SUPPORT. What loading and starting a plan, ending a held heat and the boundary timeout do in each of their cases (R182, R201, R215,
R218, R254, R530). -/

namespace Sys2Proof.Machine

section PlanCommands
variable {d : Device} {p : Part} {base : Nat}

/-! ### Loading (R182, R511, R530) -/

theorem opPlanLoad_refused (agent : Nat) (h : d.heat.loading ≠ none ∨ d.power.fault = true) :
    opPlanLoad agent d = d.refuseCtrl pageHeat 8 agent := by
  have busy : (d.heat.loading.isSome || d.power.fault) = true := by simpa [Option.isSome_iff_ne_none] using h
  rw [opPlanLoad, if_pos busy]

theorem opPlanLoad_accepted (agent : Nat) (hl : d.heat.loading = none) (hf : d.power.fault = false) :
    opPlanLoad agent d = if d.safe = true then d.refuseSafe 8 agent
      else d.wakeAll.onHeat (fun h => { h with loading := some (d.get64 (pageHeat + 0x160) % 2 ^ 40) }) := by
  simp [opPlanLoad, hl, hf]

/-- Nothing ends where no load is in progress or a die still wakes. -/
theorem opPlanLoadDone_waits (h : p.dev.heat.loading = none ∨ p.dev.allAwake = false) : opPlanLoadDone p = p := by
  rcases h with hl | ha
  · simp [opPlanLoadDone, hl]
  · cases hl : p.dev.heat.loading <;> simp [opPlanLoadDone, hl, ha]

/-- A load that ends installs its plan or reports the first failed check, the image without codeword errors. -/
theorem opPlanLoadDone_ends (hl : p.dev.heat.loading = some base) (ha : p.dev.allAwake = true) (hm : p.mem.ecc = []) :
    let q := readPlan p.mem base
    let e := p.dev.onHeat (fun h => { h with loading := none })
    opPlanLoadDone p = { p with
      dev := if p.dev.failedCheck p.mem q = 0 then e.installPlan q (p.mem.read (base + 0x60) 32)
        else e.heatEvent 6 stOk (p.dev.failedCheck p.mem q) } := by
  simp only [opPlanLoadDone, hl, ha, Part.touch_clean p _ _ hm, Bool.not_true, Bool.false_eq_true, if_false]
  by_cases hz : p.dev.failedCheck p.mem (readPlan p.mem base) = 0
  · simp only [if_pos hz]; rfl
  · simp only [if_neg hz]; rfl

/-! ### Starting (R218, R254, R510, R520, R530) -/

theorem opPlanStart_safe (agent : Nat) (h : d.safe = true) : opPlanStart agent d = d.refuseSafe 4 agent := by
  rw [opPlanStart, if_pos h]

theorem opPlanStart_refused (agent : Nat) (hs : d.safe = false)
    (h : bit (d.get (pageTb 4 + 0x108)) 0 = false ∨ d.heat.loading ≠ none ∨ d.heat.started = true ∨ d.power.fault = true) :
    opPlanStart agent d = d.refuseCtrl pageHeat 4 agent := by
  have some_fails : (!(bit (d.get (pageTb 4 + 0x108)) 0) || d.heat.started || d.heat.loading.isSome || d.power.fault) = true := by
    rcases h with h | h | h | h <;> simp [h, Option.isSome_iff_ne_none]
  rw [opPlanStart, if_neg (by simp [hs]), if_pos some_fails]

theorem opPlanStart_accepted (agent : Nat) (hs : d.safe = false) (ht : bit (d.get (pageTb 4 + 0x108)) 0 = true)
    (hl : d.heat.loading = none) (hn : d.heat.started = false) (hf : d.power.fault = false) :
    opPlanStart agent d =
      let e : Device := { d with power := { d.power with blocked := [] }, deferred := [], replayAsked := false }
      let e := e.onHeat (fun h => { h with
        started := true, starting := true, arrived := false, dies := [], proposals := [], release := none, replays := 0 })
      (e.set64 (pageHeat + 0x10C) 0).wakeAll.initialArrival := by
  have none_fails : (!(bit (d.get (pageTb 4 + 0x108)) 0) || d.heat.started || d.heat.loading.isSome || d.power.fault) = false := by
    simp [ht, hl, hn, hf]
  rw [opPlanStart, if_neg (by simp [hs]), if_neg (by simp [none_fails])]

/-! ### The boundary timeout (R201, R215) -/

theorem opBoundaryTimeout_declares (hr : d.isRoot = true) (hp : d.planRuns = true) (hn : d.heat.release = none) (hk : d.heat.kind ≠ 2) :
    opBoundaryTimeout d =
      (d.reach (d.heat.start + d.heat.len + d.get (pageHeat + 0x130))).declareFault stTimeout d.firstMissing := by
  simp [opBoundaryTimeout, hr, hp, hn, hk]

theorem opBoundaryTimeout_idle (h : d.isRoot = false ∨ d.planRuns = false ∨ d.heat.release ≠ none ∨ d.heat.kind = 2) :
    opBoundaryTimeout d = d := by
  rcases h with h | h | h | h <;> simp [opBoundaryTimeout, h]

end PlanCommands

/-- Settles O31: each command is its operation on the device or the module, whose cases are the lemmas above. -/
theorem planCommands : Obligations.PlanCommands := by
  intro s agent d a refused refusedSafe
  refine ⟨fun ha => ⟨fun h => ?_, fun hl hf => ?_⟩, fun ha => ⟨fun hs => ?_, fun hs h => ?_, fun hs ht hl hn hf => ?_⟩,
    fun h => ?_, fun base hl hw hm => ?_, fun ha => ?_, fun hr hp hn hk => ?_, fun h => ?_⟩
  · exact s.onDev_written ha (opPlanLoad_refused a h)
  · exact (s.onDev_written ha (opPlanLoad_accepted a hl hf)).trans (congrArg _ (apply_ite s.withDev ..))
  · exact s.onDev_written ha (opPlanStart_safe a hs)
  · exact s.onDev_written ha (opPlanStart_refused a hs h)
  · exact s.onDev_written ha (opPlanStart_accepted a hs ht hl hn hf)
  · exact s.onPart_same (opPlanLoadDone_waits h)
  · exact s.onPart_next (opPlanLoadDone_ends hl hw hm)
  · exact s.onDev_written ha rfl
  · exact s.onDev_next (opBoundaryTimeout_declares hr hp hn hk)
  · exact s.onDev_same (opBoundaryTimeout_idle h)

end Sys2Proof.Machine
end

section
/-! SUPPORT. What the steps of boot, core resets and failing routers do in each of their cases (R42, R43, R390, R518 to R520, R525). -/

namespace Sys2Proof.Machine
/-! ### Fields of a register -/

/-- A field that lies in a word is that of the number the word was cut from. -/
theorem bits_mod_two_pow {n hi : Nat} (h : hi < n) (w lo : Nat) : bits (w % 2 ^ n) hi lo = bits w hi lo := by
  refine Nat.eq_of_testBit_eq fun i => ?_
  simp only [bits, Nat.testBit_mod_two_pow, Nat.testBit_shiftRight]
  by_cases hi' : i < hi + 1 - lo
  · have : lo + i < n := by omega
    simp [this]
  · simp [hi']

/-- The field just replaced. -/
theorem bits_withBits (w hi lo v : Nat) : bits (withBits w hi lo v) hi lo = v % 2 ^ (hi + 1 - lo) := by
  generalize hk : 2 ^ (hi + 1 - lo) = k
  have parts : w = 2 ^ lo * (k * (w / 2 ^ lo / k) + w / 2 ^ lo % k) + w % 2 ^ lo := by rw [Nat.div_add_mod, Nat.div_add_mod]
  have replaced : withBits w hi lo v = 2 ^ lo * (k * (w / 2 ^ lo / k) + v % k) + w % 2 ^ lo := by
    simp only [withBits, bits, Nat.shiftRight_eq_div_pow, hk]
    rw [Nat.mul_comm _ (2 ^ lo), Nat.mul_comm _ (2 ^ lo)]
    rw [Nat.mul_add] at parts ⊢
    omega
  rw [replaced, bits, Nat.shiftRight_eq_div_pow, hk, Nat.mul_add_div (Nat.two_pow_pos lo),
    Nat.div_eq_of_lt (Nat.mod_lt _ (Nat.two_pow_pos lo)), Nat.add_zero, Nat.mul_add_mod, Nat.mod_mod]

theorem bit_eq_bits (w i : Nat) : bit w i = (bits w i i == 1) := by
  simp [bit, bits]

/-- The flag of a register just set. -/
theorem Device.bit_get_setBits (d : Device) {off i : Nat} (h : i < 32) : bit ((d.setBits off i i 1).get off) i = true := by
  rw [Device.setBits, Device.get_set_same, bit_eq_bits, bits_mod_two_pow h, bits_withBits]
  simp

/-! ### Boot (R525) -/

section Boot
variable {p : Part}

/-- No step ends where none is in progress. -/
theorem opBootStepDone_idle (h : p.dev.power.step = 0 ∨ 10 < p.dev.power.step) : opBootStepDone p = p := by
  rcases h with h | h
  · rw [opBootStepDone, h]; rfl
  · obtain ⟨k, hk⟩ := Nat.exists_eq_add_of_le' (Nat.succ_le_of_lt h)
    rw [opBootStepDone, hk]; rfl

/-- Step 3 ends the boot without an acceptable firmware (R561). -/
theorem opBootStepDone_no_firmware (h : p.dev.power.step = 3) (hg : p.dev.goodFirmware = none) :
    opBootStepDone p = p.onDev (·.onPower (fun x => { x with step := 0 })) := by
  rw [opBootStepDone, h]
  simp only [Part.onDev, hg]

theorem opBootStepDone_firmware {i : Nat} (h : p.dev.power.step = 3) (hg : p.dev.goodFirmware = some i) :
    opBootStepDone p = p.onDev (fun d => (d.acceptFirmware i).stepTo 3 4) := by
  rw [opBootStepDone, h]
  simp only [Part.onDev, hg]

/-- Step 10 waits for the time base, and ends the boot once it is locked. -/
theorem opBootStepDone_unlocked (h : p.dev.power.step = 10) (hl : p.dev.locked = false) : opBootStepDone p = p := by
  rw [opBootStepDone, h]
  simp [Part.onDev, hl]

theorem opBootStepDone_locked (h : p.dev.power.step = 10) (hl : p.dev.locked = true) :
    opBootStepDone p = p.onDev (fun d => (d.stepTo 10 0).bootDone) := by
  rw [opBootStepDone, h]
  simp [Part.onDev, hl]

/-- The end of boot sets READY, leaves no step in progress and sets the firmware's locks. -/
theorem Device.bootDone_spec (d : Device) : bit (d.bootDone.get (pagePwr + 0x164)) 31 = true ∧
    d.bootDone.power.step = 0 ∧ d.bootDone.power.locks = true := by
  refine ⟨?_, rfl, rfl⟩
  rw [Device.bootDone, Device.onPower_get, Device.get_set_other _ _ (by decide), Device.bit_get_setBits _ (by decide)]

end Boot

/-! ### Core stores (R390) -/

/-- Core stores that are rewritten read zero, and every other byte as before. -/
theorem Memory.byte_clearStores (m : Memory) (cores : List Nat) (a : Nat) : (m.clearStores cores).byte a =
    if cores.any (fun c => decide (storeBase c ≤ a) && decide (a < storeBase c + 0x600000)) then 0 else m.byte a := by
  induction cores generalizing m with
  | nil => rfl
  | cons c l ih =>
    have lo : 64 * (storeBase c / 64) = storeBase c := by unfold storeBase; omega
    have hi : 64 * ((storeBase c + 0x600000) / 64) = storeBase c + 0x600000 := by omega
    have rest : (m.clearStores (c :: l)) = (m.clear (storeBase c / 64) ((storeBase c + 0x600000) / 64)).clearStores l := rfl
    rw [rest, ih, Memory.byte_clear, lo, hi]
    by_cases hl : l.any (fun c => decide (storeBase c ≤ a) && decide (a < storeBase c + 0x600000)) = true <;> simp [hl]

/-! ### Core resets (R518 to R520) -/

section CoreResets
variable {d : Device} {p : Part} {r : CoreReset}

theorem opCoreRst_no_target (h : bits (d.get (pagePwr + 0x150)) 1 0 = 0) : opCoreRst d = d := by
  simp only [opCoreRst, if_pos h]

/-- One that names a target is refused with its event where its tick is too near, and else is queued and wakes its target. -/
theorem opCoreRst_target (h : bits (d.get (pagePwr + 0x150)) 1 0 ≠ 0) :
    let w := d.get (pagePwr + 0x150)
    let die := bits w 5 4
    let t := d.get64 (pagePwr + 0x154)
    opCoreRst d = if t < d.now + 1000 + wakeDelay (d.sleepState die) then d.pwrEvent 3 0 [w, t % 2 ^ 32]
      else (if d.sleepState die = 1 then d.setSleep die 0 else d.wakeDie die).onPower (fun p => { p with
        coreResets := p.coreResets ++ [⟨bits w 1 0, die, if bits w 1 0 = 2 then bits w 10 8 else bits w 14 8, t, false⟩] }) := by
  simp only [opCoreRst, if_neg h]

theorem opCoreResetAct_none (h : p.dev.power.coreResets.find? (fun r => !r.acting) = none) : opCoreResetAct p = p := by
  simp only [opCoreResetAct, h]

theorem opCoreResetAct_some (h : p.dev.power.coreResets.find? (fun r => !r.acting) = some r) :
    opCoreResetAct p = if 2 ≤ p.dev.sleepState r.die then p
      else (p.onDev (fun d => (d.reach r.tick).actReset r)).onMem (·.clearStores r.cores) := by
  simp only [opCoreResetAct, h]

theorem opCoreResetDone_none (h : d.power.coreResets.find? (·.acting) = none) : opCoreResetDone d = d := by
  simp only [opCoreResetDone, h]

theorem opCoreResetDone_some (h : d.power.coreResets.find? (·.acting) = some r) :
    opCoreResetDone d = (((d.reach (r.tick + (if r.scope = 3 then 30000000 else 20000))).onPower (fun p => { p with
      coreResets := dropFirst (· == r) p.coreResets })).checkCores r.cores false) := by
  simp only [opCoreResetDone, h]

end CoreResets

/-! ### Routers (R42) -/

/-- A router that is dead, or whose failure is recorded, fails no more. -/
theorem opRouterFault_known {d : Device} {c : Nat} (h : d.isDead c = true ∨ c ∈ d.fabric.failed) : opRouterFault c d = d := by
  rw [opRouterFault, if_pos (by simpa using h)]

theorem opRouterFault_new {d : Device} {c : Nat} (hd : d.isDead c = false) (hf : c ∉ d.fabric.failed) :
    opRouterFault c d =
      (d.record (unitCore c) 9 stOk (pageSeq c)).onFabric (fun f => { f with failed := setInsert f.failed c }) := by
  rw [opRouterFault, if_neg (by simp [hd, hf])]

/-- Settles O53: each command is its operation on the device or the module, whose cases are the lemmas above. -/
theorem bootAndCoreResets : Obligations.BootAndCoreResets := by
  refine ⟨?boot, fun s agent => ?rst, fun s => ?reset, Memory.byte_clearStores, fun s c unit => ?router⟩
  case boot =>
    intro s p d
    refine ⟨fun h => ?_, fun h => ?_, fun h => ?_, fun h hg => ?_, fun i h hg => ?_, fun h => ?_, fun h => ?_, fun h => ?_,
      fun h => ?_, fun h => ?_, fun h => ?_, fun h hl => ?_, fun h hl => ?_⟩
    · exact s.onPart_same (opBootStepDone_idle h)
    · exact s.onPart_next (by rw [opBootStepDone, h]; rfl)
    · exact s.onPart_next (by rw [opBootStepDone, h]; rfl)
    · exact s.onPart_next (opBootStepDone_no_firmware h hg)
    · exact s.onPart_next (opBootStepDone_firmware h hg)
    · exact s.onPart_next (by rw [opBootStepDone, h]; rfl)
    · exact s.onPart_next (by rw [opBootStepDone, h]; rfl)
    · exact s.onPart_next (by rw [opBootStepDone, h]; rfl)
    · exact s.onPart_next (by rw [opBootStepDone, h]; rfl)
    · exact s.onPart_next (by rw [opBootStepDone, h]; rfl)
    · exact s.onPart_next (by rw [opBootStepDone, h]; rfl)
    · exact s.onPart_same (opBootStepDone_unlocked h hl)
    · obtain ⟨shown, step, locks⟩ := (d.stepTo 10 0).bootDone_spec
      exact ⟨_, s.onPart_next (opBootStepDone_locked h hl), rfl, shown, step, locks⟩
  case rst =>
    intro d w die scope at_ near
    refine ⟨fun h => ?_, fun ha hs hn => ?_, fun ha hs hn => ?_⟩
    · cases ha : isProcessor agent.toNat with
      | false => exact s.onDev_same (Device.written_other _ _ ha)
      | true => exact s.onDev_written ha (opCoreRst_no_target (h.resolve_left (by simp [ha])))
    · exact s.onDev_written ha ((opCoreRst_target hs).trans (if_pos hn))
    · exact s.onDev_written ha ((opCoreRst_target hs).trans (if_neg hn))
  case reset =>
    refine ⟨fun h => ?_, fun h => ?_, fun r h => ⟨fun deep => ?_, fun awake => ?_⟩, fun r h => ?_⟩
    · exact s.onPart_same (opCoreResetAct_none h)
    · exact s.onDev_same (opCoreResetDone_none h)
    · exact s.onPart_same ((opCoreResetAct_some h).trans (if_pos deep))
    · exact s.onPart_next ((opCoreResetAct_some h).trans (if_neg (Nat.not_le.mpr awake)))
    · exact s.onDev_next (opCoreResetDone_some h)
  case router =>
    exact ⟨fun h => s.onDev_same (opRouterFault_known h), fun hd hf => s.onDev_next (opRouterFault_new hd hf), rfl⟩

end Sys2Proof.Machine
end

section
/-! SUPPORT. What a strike leaves of its anvil, and where it hands the pass on (R53, R54, R56, R61). -/

namespace Sys2Proof.Machine

/-! ### After a plane (R61, R66, R71, R94) -/

section Plane
variable (d : Device) (u tileId : Nat) (active : List Nat) (transposed : Bool) (o : PlaneOut)

/-- A plane leaves its anvil as it was but for the witness accumulators. -/
theorem Device.afterPlane_anvil : ∃ wit nsum conv,
    (d.afterPlane u tileId active transposed o).anvil u = { d.anvil u with wit := wit, nsum := nsum, conv := conv } := by
  have same (e : Device) (h : e.anvil u = d.anvil u) : ∃ wit nsum conv, e.anvil u = { d.anvil u with wit := wit, nsum := nsum, conv := conv } :=
    ⟨(d.anvil u).wit, (d.anvil u).nsum, (d.anvil u).conv, h⟩
  simp only [Device.afterPlane]
  split
  · exact same _ rfl
  · generalize hd : (if o.allClamps = 0 then _ else _ : Device) = e
    have he : e.anvil u = d.anvil u := by
      rw [← hd]
      split <;> split <;> simp
    split
    · exact same e he
    · exact ⟨_, _, _, (Device.anvil_setAnvil_same ..).trans (by rw [he])⟩

/-- A plane that drives no place is counted as skipped (R61). -/
theorem Device.afterPlane_skipped : d.afterPlane u tileId [] transposed o = d.count (pageAnv u + 0x124) := rfl

end Plane

/-! ### The pass after a plane (R54, R56) -/

section Strike
variable {d : Device} {u : Nat} {r : PassRun}

theorem Device.afterStrike_within (h : r.plane + 1 < planesOf r.issue.mode) :
    d.afterStrike u r = (some { r with plane := r.plane + 1 }, none) := if_pos h

theorem Device.afterStrike_last (h : planesOf r.issue.mode ≤ r.plane + 1) : (d.afterStrike u r).2 = some
    { issue := r.issue, token := r.token, half := r.half, sums := r.sums, exact := r.exact, ok := r.ok
      squares := if lastHalf r.issue.mode r.half then squaresOf (d.anvil u) r.issue.mode (r.issue.codes.getD r.token []) else []
      heavy := r.heavy, clamps := r.clamps } := by
  simp only [Device.afterStrike, if_neg (Nat.not_lt.mpr h)]
  by_cases high : r.issue.mode = 2 ∧ r.half = 0
  · rw [if_pos high]
  · rw [if_neg high]
    by_cases more : r.token + 1 < r.issue.codes.length
    · rw [if_pos more]
    · rw [if_neg more]

/-- A running pass with one converted plane added to it (R54, R112). -/
def PassRun.withPlane (r : PassRun) (o : PlaneOut) (bounded : Bool) : PassRun := { r with
  sums := addPlane r.issue.mode r.half r.plane r.sums o.sums, exact := addPlane r.issue.mode r.half r.plane r.exact o.exact
  ok := r.ok && bounded, heavy := r.heavy + o.heavy, clamps := r.clamps + o.clamps }

/-- With a pass running, a strike converts its plane, adds it, and goes on or hands over. -/
theorem opStrike_running {c a : Nat} {o : List Nat × PlaneOut} {e : Device} (hu : 68 * c + a = u) (hr : (d.anvil u).run = some r)
    (ho : planeOut (d.anvil u) d.free r.gain r.offs r.issue.mode r.half r.plane r.issue.split (r.issue.codes.getD r.token []) = o)
    (he : d.drawn.afterPlane u r.issue.tileId o.1 (decide (r.issue.mode = 3)) o.2 = e) :
    let n := e.afterStrike u (r.withPlane o.2 (e.anvilBounded u))
    opStrike c a d = e.setAnvil u { e.anvil u with run := n.1, tree := (e.anvil u).tree ++ n.2.toList } := by
  subst hu ho he
  simp only [opStrike, hr]
  rfl

end Strike

/-- Settles O15: the plane changes only the anvil's witness accumulators, and the pass goes on or is handed over. -/
theorem anvilStrikesAPlane : Obligations.AnvilStrikesAPlane := by
  intro s c a r d u x hr o sums exact_
  obtain ⟨wit, nsum, conv, hx⟩ := d.drawn.afterPlane_anvil u r.issue.tileId o.1 (decide (r.issue.mode = 3)) o.2
  generalize he : d.drawn.afterPlane u r.issue.tileId o.1 (decide (r.issue.mode = 3)) o.2 = e at hx
  refine ⟨_, s.onDev_next (opStrike_running (u := u) (o := o) rfl hr rfl he), rfl, ?_⟩
  refine ⟨?_, ?_, fun within => ?_, fun last => ?_, fun skipped => ?_⟩
  · simp only [State.withDev, Device.anvil_setAnvil_same]
    exact congrArg (·.cells) hx
  · simp only [State.withDev, Device.anvil_setAnvil_same]
    exact congrArg (·.queue) hx
  · have hn := Device.afterStrike_within (d := e) (u := u) (r := r.withPlane o.2 (e.anvilBounded u)) within
    simp only [State.withDev, Device.anvil_setAnvil_same, hn]
    exact ⟨(List.append_nil _).trans (congrArg (·.tree) hx), rfl⟩
  · have hn := Device.afterStrike_last (d := e) (u := u) (r := r.withPlane o.2 (e.anvilBounded u)) last
    simp only [State.withDev, Device.anvil_setAnvil_same, hn, hx]
    rfl
  · have he' : e = d.drawn.count (pageAnv u + 0x124) := by rw [← he, skipped, Device.afterPlane_skipped]
    simp only [State.withDev, Device.setAnvil_get, he', Device.get_count_same, Device.drawn_get]

end Sys2Proof.Machine
end

section
/-! SUPPORT. What the slab adder tree hands to the join adder, and what a join leaves when it is promoted or has lost a pass (R56, R107,
R110, R145, R149). -/

namespace Sys2Proof.Machine

/-! ### A core set twice, and its tiles -/

/-- The later of two values at a key stands alone. -/
theorem smapSet_smapSet {α : Type} (m : SMap α) (i : Nat) (v w : α) : smapSet (smapSet m i v) i w = smapSet m i w := by
  induction m with
  | nil => simp [smapSet]
  | cons e m ih =>
    obtain ⟨k, y⟩ := e
    by_cases below : i < k
    · simp [smapSet, below]
    · by_cases here : i = k
      · simp [smapSet, here]
      · simp [smapSet, below, here, ih]

theorem Device.setCore_setCore (d : Device) (c : Nat) (x y : CoreState) : (d.setCore c x).setCore c y = d.setCore c y := by
  simp only [Device.setCore, smapSet_smapSet]

/-- A change of a tile that stands in the table is a change of its core. -/
theorem Device.onTile_open {d : Device} {c e : Nat} {t : Tile} (h : (d.core c).tile e = some t) (f : Tile → Tile) :
    d.onTile c e f = d.setCore c ((d.core c).setTile e (f t)) := by
  simp only [Device.onTile, h, Device.onCore]

@[simp] theorem Device.onTile_hist (d : Device) (c e : Nat) (f : Tile → Tile) : (d.onTile c e f).hist = d.hist := by
  unfold Device.onTile
  split <;> rfl

/-! ### A join promoted (R107, R110, R125, R145) -/

section Promotion
variable {j : Join}

/-- A token's deviations are a matter of the tile's error record alone, and a join that is not the last shifts nothing. -/
theorem Tile.withDeviation_of_not_last (hl : j.last = false) (t : Tile) (tok : Nat) :
    ∃ devs squares, t.withDeviation j tok = ([], { t with devs := devs, squares := squares }) := by
  simp only [Tile.withDeviation, hl]
  exact ⟨_, _, rfl⟩

/-- The tokens of a join that is not the last, promoted one by one: the words take them unshifted, and the tile keeps all but its
error record. -/
theorem Join.promote_tokens (hl : j.last = false) (t : Tile) (l : List Nat) (r : Tile × SMap U32)
    (hr : ∃ devs squares, r.1 = { t with devs := devs, squares := squares }) :
    ∃ devs squares, l.foldl (fun (r : Tile × SMap U32) tok =>
        let s := r.1.withDeviation j tok
        (s.2, j.promoteToken t tok s.1 r.2)) r =
      ({ t with devs := devs, squares := squares }, l.foldl (fun acc tok => j.promoteToken t tok [] acc) r.2) := by
  induction l generalizing r with
  | nil =>
    obtain ⟨devs, squares, hr⟩ := hr
    exact ⟨devs, squares, Prod.ext hr rfl⟩
  | cons tok l ih =>
    obtain ⟨devs, squares, hr⟩ := hr
    obtain ⟨devs', squares', hs⟩ := Tile.withDeviation_of_not_last hl r.1 tok
    simp only [List.foldl_cons, hs]
    exact ih _ ⟨devs', squares', by rw [hr]⟩

/-- A join that is not the last changes, of its core, the words of its tile and the tile's K_N and error record. Where a token's words
stand does not depend on K_N. -/
theorem Device.promoteJoin_core (hl : j.last = false) (d : Device) (c : Nat) (t : Tile) :
    ∃ devs squares, (d.promoteJoin c j t).core c = { d.core c with
      tiles := smapSet (d.core c).tiles j.entry { t with kN := (t.kN + j.inputs) % 2 ^ 32, devs := devs, squares := squares }
      acc := (List.range (2 ^ j.shape)).foldl (fun acc tok => j.promoteToken t tok [] acc) (d.core c).acc } := by
  obtain ⟨devs, squares, hr⟩ := Join.promote_tokens hl { t with kN := (t.kN + j.inputs) % 2 ^ 32 } (List.range (2 ^ j.shape))
    ({ t with kN := (t.kN + j.inputs) % 2 ^ 32 }, (d.core c).acc) ⟨t.devs, t.squares, rfl⟩
  refine ⟨devs, squares, ?_⟩
  have promoted (r : Tile × SMap U32) : (let e := d.onCore c (fun x => { x.setTile j.entry r.1 with acc := r.2 })
      if j.mode = 3 then e.count (pageAcc c + 0x120) (2 ^ j.shape * j.delivered) else e).core c =
        { (d.core c).setTile j.entry r.1 with acc := r.2 } := by
    by_cases rows : j.mode = 3 <;> simp [rows]
  rw [Device.promoteJoin, if_neg (by simp [hl])]
  exact (promoted _).trans (by rw [hr]; rfl)

end Promotion

/-! ### The history stays -/

section History
variable (d : Device) (c e : Nat)

theorem Device.unmend_hist (idx op : Nat) : (d.unmend c e idx op).hist = d.hist := by
  unfold Device.unmend
  split
  · rfl
  · simp only [Device.askReplay, apply_ite Device.hist, ite_self, Device.seqEvent, Device.event_hist, Device.numEvent, Device.eventSt_hist,
      Device.count_hist, Device.onCore_hist]

theorem Device.foundDue_hist : (d.foundDue c e).hist = d.hist := by
  simp only [Device.foundDue]
  split
  · rw [Device.unmend_hist, Device.count_hist]
  · rw [Device.onTile_hist, Device.count_hist]

theorem Device.confidence_hist : (d.confidence c e).hist = d.hist := by
  unfold Device.confidence
  split
  · rfl
  · simp only [apply_ite Device.hist, Device.foundDue_hist, ite_self]

theorem Device.promoteJoin_hist (j : Join) (t : Tile) : (d.promoteJoin c j t).hist = d.hist := by
  simp only [Device.promoteJoin, apply_ite Device.hist, Device.confidence_hist, Device.count_hist, Device.onCore_hist, ite_self]

theorem Device.loseJoin_hist (j : Join) : (d.loseJoin c j).hist = d.hist := by
  unfold Device.loseJoin
  split
  · rfl
  · simp only [apply_ite Device.hist, Device.onTile_hist, ite_self]

end History

/-! ### A join that has lost a pass (R149) -/

/-- Statuses spoil a tile's tokens, already poisoned, in its conditions alone. -/
theorem Tile.foldl_spoilFor (t : Tile) (l : List Nat) (conds : List Nat) :
    ∃ conds', l.foldl (fun t s => t.spoilFor s) { t with conds := conds, poison := List.range (2 ^ t.shape) } =
      { t with conds := conds', poison := List.range (2 ^ t.shape) } := by
  induction l generalizing conds with
  | nil => exact ⟨conds, rfl⟩
  | cons s l ih =>
    rw [List.foldl_cons, Tile.spoilFor]
    split
    · exact ih conds
    · exact ih _

section Lost
variable {d : Device} {c : Nat} {j : Join}

theorem Device.loseJoin_other (h : ∀ t, (d.core c).tile j.entry = some t → t.tileId ≠ j.tileId) : d.loseJoin c j = d := by
  unfold Device.loseJoin
  split
  · rfl
  · rename_i t ht
    rw [if_neg (h t ht)]

theorem Device.loseJoin_own {t : Tile} (ht : (d.core c).tile j.entry = some t) (hid : t.tileId = j.tileId) :
    ∃ conds, d.loseJoin c j = d.setCore c { d.core c with
      tiles := smapSet (d.core c).tiles j.entry { t with conds := conds, poison := List.range (2 ^ t.shape) } } := by
  obtain ⟨conds, hc⟩ := t.foldl_spoilFor (j.slots.filterMap SlotState.lossOf) t.conds
  refine ⟨conds, ?_⟩
  simp only [Device.loseJoin, ht, if_pos hid, Device.onTile_open ht]
  exact congrArg (fun t => d.setCore c ((d.core c).setTile j.entry t)) hc

end Lost

/-! ### The commands -/

section Commands
variable {d : Device} {c a : Nat} {j : Join}

theorem opPassResult_empty (h : (d.anvil (68 * c + a)).tree = []) : opPassResult c a d = d := by
  simp only [opPassResult, h]

theorem opPassResult_front {e : PassDone} {l : List PassDone} (h : (d.anvil (68 * c + a)).tree = e :: l) :
    let u := 68 * c + a
    let r := (d.setAnvil u { d.anvil u with tree := l }).compare u e.issue.tileId e.issue.mode e.sums
    opPassResult c a d = r.2.joinTakes c e r.1 := by
  simp only [opPassResult, h]

theorem opJoinPromote_delivered {t : Tile} (hj : (d.core c).readyJoin = some j) (hf : j.found = true)
    (hs : j.slots.all (fun q => q == .waiting || q == .delivered) = true) (ht : (d.core c).tile j.entry = some t) :
    opJoinPromote c d = (d.onCore c (·.dropJoin)).promoteJoin c j t := by
  have dropped : (d.core c).dropJoin.tile j.entry = some t := ht
  simp only [opJoinPromote, hj, hf, hs, Bool.and_self, if_true, Device.core_onCore_same, dropped]

theorem opJoinPromote_lost (hj : (d.core c).readyJoin = some j) (hs : ∃ k, SlotState.failed k ∈ j.slots) :
    opJoinPromote c d = (d.onCore c (·.dropJoin)).loseJoin c j := by
  have failed : j.slots.all (fun q => q == .waiting || q == .delivered) = false := by
    obtain ⟨k, hk⟩ := hs
    exact List.all_eq_false.mpr ⟨_, hk, by simp⟩
  simp only [opJoinPromote, hj, failed, Bool.and_false, Bool.false_eq_true, if_false]

theorem opJoinPromote_hist (c : Nat) (d : Device) : (opJoinPromote c d).hist = d.hist := by
  unfold opJoinPromote
  split
  · rfl
  · dsimp only
    split
    · split
      · rw [Device.promoteJoin_hist, Device.onCore_hist]
      · rfl
    · rw [Device.loseJoin_hist, Device.onCore_hist]

end Commands

/-- Settles O16: the result in front enters its join, and the ready join leaves promoted or spoilt. -/
theorem resultsJoinAndPromote : Obligations.ResultsJoinAndPromote := by
  refine ⟨fun s c a => ⟨fun e l h => s.onDev_next (opPassResult_front h), fun h => s.onDev_same (opPassResult_empty h)⟩, fun s c j => ?_⟩
  intro d x hj
  refine ⟨_, s.onDev_next rfl, rfl, opJoinPromote_hist c.val d, fun tile hf hs ht hl => ?_,
    fun lost => ⟨fun other => ?_, fun tile ht hid => ?_⟩⟩
  · obtain ⟨devs, squares, hp⟩ := Device.promoteJoin_core hl (d.onCore c.val (·.dropJoin)) c.val tile
    rw [Device.core_onCore_same] at hp
    exact ⟨devs, squares, (congrArg (·.core c.val) (opJoinPromote_delivered hj hf hs ht)).trans hp⟩
  · have dropped := Device.loseJoin_other (d := d.onCore c.val (·.dropJoin)) (c := c.val) (j := j)
      (by rw [Device.core_onCore_same]; exact other)
    exact (opJoinPromote_lost hj lost).trans dropped
  · have dropped : ((d.onCore c.val (·.dropJoin)).core c.val).tile j.entry = some tile := by rw [Device.core_onCore_same]; exact ht
    obtain ⟨conds, hp⟩ := Device.loseJoin_own dropped hid
    rw [Device.core_onCore_same, Device.onCore, Device.setCore_setCore] at hp
    exact ⟨conds, (opJoinPromote_lost hj lost).trans hp⟩

end Sys2Proof.Machine
end

section
/-! SUPPORT. What DRAIN and ABORT words leave pending, how they complete, and what an abort-drain leaves of its anvil (R80 to R83, R149,
R188, R250). -/

namespace Sys2Proof.Machine

/-! ### An anvil emptied (R81, R149) -/

section Emptied
variable (d : Device) (u : Nat)

@[simp] theorem Device.onTile_anvil (c e : Nat) (f : Tile → Tile) : (d.onTile c e f).anvil u = d.anvil u := by
  unfold Device.onTile
  split <;> rfl

/-- A slot that loses its pass is a matter of its core. -/
theorem Device.loseSlot_anvil (c e k s status : Nat) : (d.loseSlot c e k s status).anvil u = d.anvil u := by
  unfold Device.loseSlot
  dsimp only
  split
  · rfl
  · split
    · rfl
    · simp only [apply_ite (Device.anvil · u), Device.accEvent, Device.eventSt_anvil, Device.count_anvil, Device.onTile_anvil,
        Device.setCore_anvil, ite_self]

theorem Device.foldl_loseSlot_anvil (c status : Nat) (l : List PassIssue) :
    (l.foldl (fun d i => d.loseSlot c i.entry i.join i.slot status) d).anvil u = d.anvil u := by
  induction l generalizing d with
  | nil => rfl
  | cons i l ih => exact (ih _).trans (d.loseSlot_anvil u ..)

theorem Device.discardPasses_anvil (status : Nat) : (d.discardPasses u status).anvil u = { d.anvil u with
    queue := none, run := none, tree := [], discarded := (d.anvil u).discarded + (d.anvil u).discards
    discardedId := ((d.anvil u).held.head?.map (·.tileId)).getD (d.anvil u).discardedId } := by
  simp only [Device.discardPasses, Device.foldl_loseSlot_anvil, Device.anvil_setAnvil_same]

/-- An abort-drain leaves its anvil empty and one more abort-drain running there. -/
theorem Device.abortAnvil_anvil : (d.abortAnvil u).anvil u = { d.anvil u with
    queue := none, run := none, tree := [], aborts := (d.anvil u).aborts + 1
    discarded := (d.anvil u).discarded + (d.anvil u).discards
    discardedId := ((d.anvil u).held.head?.map (·.tileId)).getD (d.anvil u).discardedId } := by
  simp only [Device.abortAnvil, Device.anvil_setAnvil_same, Device.discardPasses_anvil]

end Emptied

/-! ### The words (R80, R81, R188) -/

section Words
variable {d : Device} {c a w : Nat}

theorem opDrainWord_at (h : d.AtWord c w) (ho : wOp w = opDrain) :
    let e := d.issued c w
    let q := drainWord w
    opDrainWord c d = e.onCore c (fun x => { x with drains := x.drains ++
      [{ obj := q.obj, sigen := q.sigen, abort := false, parts := (e.maskAnvils c q.mask).map (fun u => (u, (e.anvil u).serial)) }] }) := by
  simp only [opDrainWord, Device.next_at h (wanted := isOp opDrain) (by simp [isOp, ho])]

theorem opAbortWord_mapped (h : d.AtWord c w) (ho : wOp w = opAbort) (hu : (d.issued c w).maskAnvils c (drainWord w).mask ≠ []) :
    let e := d.issued c w
    let q := drainWord w
    let us := e.maskAnvils c q.mask
    opAbortWord c d = (us.foldl (fun d u => d.abortAnvil u) e).onCore c (fun x => { x with drains := x.drains ++
      [{ obj := q.obj, sigen := q.sigen, abort := true, parts := us.map (fun u => (u, 0)) }] }) := by
  simp only [opAbortWord, Device.next_at h (wanted := isOp opAbort) (by simp [isOp, ho]), if_neg hu]

/-- An ABORT word that names no mapped anvil completes at once: its signal. -/
theorem opAbortWord_unmapped (h : d.AtWord c w) (ho : wOp w = opAbort) (hu : (d.issued c w).maskAnvils c (drainWord w).mask = []) :
    let e := d.issued c w
    let q := drainWord w
    opAbortWord c d = if q.sigen then e.sendSignals [.add q.obj 1 (e.seqAgent c)] else e := by
  simp only [opAbortWord, Device.next_at h (wanted := isOp opAbort) (by simp [isOp, ho]), hu, if_true]
  rfl

/-! ### The completions (R80 to R82, R250) -/

theorem opDrainComplete_none (h : (d.core c).drains.find? (fun q => !q.abort && q.parts.all d.partDrained) = none) :
    opDrainComplete c d = d := by
  simp only [opDrainComplete, h]

/-- A drain that is ready leaves its core's list, with its report and its signal. -/
theorem opDrainComplete_ready {q : Drain} (h : (d.core c).drains.find? (fun q => !q.abort && q.parts.all d.partDrained) = some q) :
    let e := d.onCore c (fun x => { x with
      drains := dropFirst (fun q => !q.abort && q.parts.all d.partDrained) x.drains, drainReport := some q.discarded })
    opDrainComplete c d = if q.sigen then e.sendSignals [.add q.obj 1 (e.seqAgent c)] else e := by
  have drain : q.abort = false := by
    have ready := List.find?_some h
    simp only [Bool.and_eq_true, Bool.not_eq_true'] at ready
    exact ready.1
  simp only [opDrainComplete, h, Device.drainSignal, drain, Bool.false_eq_true, if_false]
  simp only [Device.onCore, Device.core_setCore_same, Device.setCore_setCore]
  rfl

theorem opAbortComplete_none (h : (d.anvil (68 * c + a)).aborts = 0) : opAbortComplete c a d = d := by
  simp only [opAbortComplete, if_pos h]

theorem opAbortComplete_oldest (h : (d.anvil (68 * c + a)).aborts ≠ 0) :
    let u := 68 * c + a
    let e := (d.setAnvil u { d.anvil u with aborts := (d.anvil u).aborts - 1 }).countDiscarded u
    opAbortComplete c a d = e.completeDrains c (oldestDone u (e.core c).drains) := by
  simp only [opAbortComplete, if_neg h]

end Words

/-- Settles O17: each command is its operation on the device, whose cases are the lemmas above. -/
theorem drainsAndAborts : Obligations.DrainsAndAborts := by
  refine ⟨⟨fun s c w h => ⟨fun ho => ?_, fun ho hu => ?_, fun ho hu => ?_⟩, fun s c q => ⟨fun h => ?_, fun h => ?_⟩,
    fun s c a => ⟨fun h => ?_, fun h => ?_⟩⟩, Device.abortAnvil_anvil⟩
  · exact s.onDev_next (opDrainWord_at h ho)
  · exact s.onDev_next (opAbortWord_mapped h ho hu)
  · exact s.onDev_next (opAbortWord_unmapped h ho hu)
  · exact s.onDev_same (opDrainComplete_none h)
  · exact s.onDev_next (opDrainComplete_ready h)
  · exact s.onDev_next (opAbortComplete_oldest h)
  · exact s.onDev_same (opAbortComplete_none h)

end Sys2Proof.Machine
end

section
/-! SUPPORT. What a PASS word in front does, what an anvil that takes an issue holds, and how a queued issue starts (R54, R58, R59, R90,
R92, R187). -/

namespace Sys2Proof.Machine

/-- Reads of ranges without codeword errors change nothing. -/
theorem Part.foldl_touch_clean {α : Type} (p : Part) (at_ len : α → Nat) (l : List α) (h : p.mem.ecc = []) :
    l.foldl (fun p b => p.touch (at_ b) (len b)) p = p := by
  induction l with
  | nil => rfl
  | cons b l ih => rw [List.foldl_cons, Part.touch_clean p _ _ h, ih]

/-! ### PASS (R187) -/

/-- The word in front issues; the reads of its inputs and scales find no codeword error. -/
theorem opPassWord_at {p : Part} {c w : Nat} (h : p.dev.AtWord c w) (ho : wOp w = opPass) (hm : p.mem.ecc = []) :
    opPassWord c p = { p with
      dev := (p.dev.issued c w).issuePass p.mem c (p.dev.wordPtr c) (p.dev.wordTick c w) (passWord w) } := by
  have blocks := Part.foldl_touch_clean { p with dev := p.dev.issued c w } (fun b => storeAddr c b.inAddr) blockBytes
    ((p.dev.issued c w).blocksRead c (p.dev.wordPtr c) (passWord w)) hm
  have scale (a : Nat) : Part.touch { p with dev := p.dev.issued c w } a 2048 = { p with dev := p.dev.issued c w } :=
    Part.touch_clean _ _ _ hm
  simp only [opPassWord, Device.next_at h (wanted := isOp opPass) (by simp [isOp, ho]), blocks]
  split
  · rw [scale]; rfl
  · rfl

/-! ### An issue in the queue (R58) -/

/-- An anvil that takes an issue holds it under its next serial number; all else is a matter of the core. -/
theorem Device.takeIssue_anvil (d : Device) (m : Memory) (c u idx tick : Nat) (found : Bool) (p : PassWord) (codes : List (List Int)) :
    (d.takeIssue m c u idx tick found p codes).anvil u = { d.anvil u with
      queue := some ⟨(d.anvil u).serial, p.tile, p.join, p.slot, p.tileId, p.mode, p.split, codes⟩
      serial := (d.anvil u).serial + 1 } := by
  unfold Device.takeIssue
  dsimp only
  split
  · rw [Device.setCore_anvil, Device.anvil_setAnvil_same]
  · rw [Device.setCore_anvil, Device.anvil_setAnvil_same]

/-! ### PASS_START (R58, R90, R92) -/

section Start
variable {d : Device} {c a : Nat} {i : PassIssue}

theorem opPassStart_queued (hr : (d.anvil (68 * c + a)).run = none) (hq : (d.anvil (68 * c + a)).queue = some i) :
    let u := 68 * c + a
    let free := d.setAnvil u { d.anvil u with queue := none }
    opPassStart c a d = if d.trimValid u then d.setAnvil u { d.anvil u with queue := none, run := some (d.beginPass u i 0 0) }
      else ((free.count (pageAnv u + 0x11C)).eventSt (pageAnv u) 4 stTrimInvalid [i.tileId]).failIssue c i stTrimInvalid := by
  simp only [opPassStart, hr, hq]

theorem opPassStart_busy (h : (d.anvil (68 * c + a)).run.isSome ∨ (d.anvil (68 * c + a)).queue = none) : opPassStart c a d = d := by
  cases hr : (d.anvil (68 * c + a)).run with
  | some r => simp only [opPassStart, hr]
  | none =>
    have hq := h.resolve_left (by simp [hr])
    simp only [opPassStart, hr, hq]

end Start

/-- Settles O14: PASS issues its word, an anvil takes an issue, and PASS_START starts or refuses the one queued. -/
theorem passesReachAndStartAnvils : Obligations.PassesReachAndStartAnvils := by
  refine ⟨⟨fun s c w h ho hm => ?_, Device.takeIssue_anvil⟩, fun s c a => ⟨fun i hr hq hv => ?_, fun i hr hq hv => ?_, fun h => ?_⟩⟩
  · exact s.onPart_next (opPassWord_at h ho hm)
  · exact s.onDev_next ((opPassStart_queued hr hq).trans (if_pos hv))
  · exact s.onDev_next ((opPassStart_queued hr hq).trans (if_neg (by simp [hv])))
  · exact s.onDev_same (opPassStart_busy h)

end Sys2Proof.Machine
end

section
/-! SUPPORT. What the steps of a programming batch do in each of their cases, and the pair that a stuck cell leaves (R84, R362 to R364,
R366, R370, R371, R377, R403). -/

namespace Sys2Proof.Machine

/-! ### The start of a batch (R362, R366, R370, R371, R377, R403) -/

section BatchStart
variable {p : Part} {die : Nat} {anvils : List Nat}

theorem opProgramBatchStart_busy (h : (smapFind p.dev.billet.batches die).isSome = true) : opProgramBatchStart die anvils p = p := by
  simp only [opProgramBatchStart, if_pos h]

/-- On a die without a batch: the anvils that join and have weights begin their programs, those with a poisoned section are interrupted,
and a load or replacement fails with one, or where an anvil has no spare left. -/
theorem opProgramBatchStart_free (h : smapFind p.dev.billet.batches die = none) :
    let r := anvils.foldl (Device.joinBatch die) ([], p.dev)
    let held := (r.1.filter (fun b => (sectionOf (shardSections p.mem b.shard) 0 b.logical).isSome)).map (fun b =>
      { b with layer := layerOf (shardSections p.mem b.shard) b.logical })
    let t := held.foldl (fun p b => p.touchSections b (shardSections p.mem b.shard)) { p with dev := r.2 }
    let bad := held.filter (fun b => t.sectionPoisoned b (shardSections t.mem b.shard))
    let good := held.filter (fun b => !(bad.contains b))
    let q := t.onDev (fun d =>
      let e := bad.foldl (fun d b => d.interruptAnvil b) (held.foldl (fun d b => d.startProgram b) d)
      if good = [] then e else ((e.setBatch die { anvils := good }).onBillet (fun x => { x with
        ends := smapSet x.ends die (e.batchEnd die good.length) })).showBatch die)
    opProgramBatchStart die anvils p = if bad ≠ [] ∨ q.dev.noSpareLeft = true then q.failReplacement else q := by
  simp only [opProgramBatchStart, h, Option.isSome_none, Bool.false_eq_true, if_false, Bool.or_eq_true, bne_iff_ne]

end BatchStart

/-! ### Rows, settling and the end (R362 to R364) -/

section Batch
variable {p : Part} {d : Device} {die : Nat} {b : Batch}

theorem opProgramRowStep_none (stuck : List StuckCell) (h : smapFind p.dev.billet.batches die = none) :
    opProgramRowStep die stuck p = p := by
  simp only [opProgramRowStep, h]

theorem opProgramRowStep_done (stuck : List StuckCell) (h : smapFind p.dev.billet.batches die = some b) (hb : 1024 ≤ b.row) :
    opProgramRowStep die stuck p = p := by
  simp only [opProgramRowStep, h, if_pos hb]

theorem opProgramRowStep_row (stuck : List StuckCell) (h : smapFind p.dev.billet.batches die = some b) (hb : b.row < 1024) :
    let r := b.anvils.foldl (Device.programRow p.mem b.row stuck) ([], p.dev)
    opProgramRowStep die stuck p = { p with dev := r.2.setBatch die { b with anvils := r.1, row := b.row + 1 } } := by
  simp only [opProgramRowStep, h, if_neg (Nat.not_le.mpr hb)]

theorem opProgramSettleEnd_none (h : smapFind d.billet.batches die = none) : opProgramSettleEnd die d = d := by
  simp only [opProgramSettleEnd, h]

theorem opProgramSettleEnd_not_due (h : smapFind d.billet.batches die = some b) (hb : b.row < 1024 ∨ b.settled = true) :
    opProgramSettleEnd die d = d := by
  have early : (b.row < 1024 || b.settled) = true := by simpa using hb
  simp only [opProgramSettleEnd, h, if_pos early]

/-- The settle end takes the test passes of every anvil of the batch. -/
theorem opProgramSettleEnd_due (h : smapFind d.billet.batches die = some b) (hb : 1024 ≤ b.row) (hs : b.settled = false) :
    let r := b.anvils.foldl (fun (r : List BatchAnvil × Device) a =>
      let t := r.2.testPasses a.anvil
      (r.1 ++ [{ a with gain := t.1.gain, offs := t.1.offs, resid := t.1.resid }], t.2)) ([], d)
    opProgramSettleEnd die d = r.2.setBatch die { b with anvils := r.1, settled := true } := by
  have due : (decide (b.row < 1024) || b.settled) = false := by simp [hb, hs]
  simp only [opProgramSettleEnd, h, due, Bool.false_eq_true, if_false]

theorem opProgramBatchDone_none (h : smapFind p.dev.billet.batches die = none) : opProgramBatchDone die p = p := by
  simp only [opProgramBatchDone, h]

theorem opProgramBatchDone_unsettled (h : smapFind p.dev.billet.batches die = some b) (hs : b.settled = false) :
    opProgramBatchDone die p = p := by
  simp only [opProgramBatchDone, h, hs, Bool.not_false, if_true]

theorem opProgramBatchDone_settled (h : smapFind p.dev.billet.batches die = some b) (hs : b.settled = true) :
    let q := p.onDev (fun d => (((b.anvils.foldl (fun d a => d.endProgram p.mem a) d).onBillet (fun x => { x with
      batches := smapErase x.batches die })).showBatch die).eventSt (pagePrg die) 0 stOk)
    opProgramBatchDone die p = q.afterBatch := by
  simp only [opProgramBatchDone, h, hs, Bool.not_true, Bool.false_eq_true, if_false]

end Batch

/-! ### The pair nearest to a weight (R46, R84) -/

section Pairs
variable {w : Int}

/-- A cell's level as the engine pulses it is the wanted one, limited to 0 to 7. -/
theorem toNat_clampInt (v : Int) : (((clampInt v 0 7).toNat : Nat) : Int) = Max.max 0 (Min.min v 7) := by
  unfold clampInt
  split
  · omega
  · split <;> omega

theorem weight_plainPair (lo : -7 ≤ w) (hi : w ≤ 7) : (plainPair w).weight = w := by
  simp only [Pair.weight, plainPair, toNat_clampInt]
  omega

theorem weight_nearestPair_pos (rest : Pair) {k : Nat} (h : w ≤ k) : (nearestPair w rest (some k) none).weight = Max.max ((k : Int) - 7) w := by
  simp only [Pair.weight, nearestPair, toNat_clampInt]
  omega

theorem weight_nearestPair_neg (rest : Pair) {k : Nat} (h : -(k : Int) ≤ w) :
    (nearestPair w rest none (some k)).weight = Min.min (7 - (k : Int)) w := by
  simp only [Pair.weight, nearestPair, toNat_clampInt]
  omega

end Pairs

/-- Settles O47: each command is its operation on the module, whose cases are the lemmas above. -/
theorem programming : Obligations.Programming := by
  refine ⟨fun s die anvils => ?start, fun s die stuck => ?batch, fun w lo hi => ⟨weight_plainPair lo hi, fun k _ => ?pair⟩⟩
  case start =>
    intro r m held p bad good q ends
    refine ⟨fun h => ?_, fun h hb hn => ?_, fun h hb => ?_, fun n => ?_⟩
    · exact s.onPart_same (opProgramBatchStart_busy h)
    · exact s.onPart_next ((opProgramBatchStart_free h).trans (if_neg (not_or.mpr ⟨not_not_intro hb, Bool.eq_false_iff.mp hn⟩)))
    · exact s.onPart_next ((opProgramBatchStart_free h).trans (if_pos hb))
    · exact (Nat.add_assoc ..).symm
  case batch =>
    intro p
    refine ⟨fun h => ⟨?_, ?_, ?_⟩,
      fun b h => ⟨fun row => ?_, fun last => ⟨?_, fun hs => ?_⟩, fun hb => ?_, fun hs => ?_, fun hs => ?_⟩⟩
    · exact s.onPart_same (opProgramRowStep_none stuck h)
    · exact s.onDev_same (opProgramSettleEnd_none h)
    · exact s.onPart_same (opProgramBatchDone_none h)
    · exact s.onPart_next (opProgramRowStep_row stuck h row)
    · exact s.onPart_same (opProgramRowStep_done stuck h last)
    · exact s.onDev_next (opProgramSettleEnd_due h last hs)
    · exact s.onDev_same (opProgramSettleEnd_not_due h hb)
    · exact s.onPart_next (opProgramBatchDone_settled h hs)
    · exact s.onPart_same (opProgramBatchDone_unsettled h hs)
  case pair =>
    exact ⟨weight_nearestPair_pos _, weight_nearestPair_neg _⟩

end Sys2Proof.Machine
end

section
/-! SUPPORT. What the housekeeping processor does in each of its cases: states of a die, rounds, soak passes, level releases, the end of a
quench and temper passes (R72 to R74, R477 to R493, R580). -/

namespace Sys2Proof.Machine

/-! ### The state of a die (R479, R482) -/

section DieState
variable {d : Device} {t rise : Int} (invalid : Nat)

theorem Device.thermalState_quench (h : 320 < rise ∨ 1760 ≤ t) : d.thermalState (some t) rise invalid = 3 := if_pos h

theorem Device.thermalState_throttle (hr : rise ≤ 320) (ht : t < 1760) (h : 128 < rise ∨ 1680 ≤ t) :
    d.thermalState (some t) rise invalid = 2 :=
  (if_neg (by omega)).trans (if_pos h)

theorem Device.thermalState_warn (hr : rise ≤ 128) (ht : t < 1680) (h : 64 < rise ∨ signed 16 (d.get (pageThm + 0x12C)) ≤ t) :
    d.thermalState (some t) rise invalid = 1 :=
  (if_neg (by omega)).trans ((if_neg (by omega)).trans (if_pos h))

theorem Device.thermalState_normal (hr : rise ≤ 64) (ht : t < 1680) (hw : t < signed 16 (d.get (pageThm + 0x12C))) :
    d.thermalState (some t) rise invalid = 0 :=
  (if_neg (by omega)).trans ((if_neg (by omega)).trans (if_neg (by omega)))

end DieState

/-! ### The round (R477 to R484, R504) -/

section Round
variable {g : Device} {quenched drooped : Bool}

/-- Some die stands in a thermal state. -/
theorem Device.any_therm (g : Device) (k : Nat) : (List.range 5).any (fun n => g.therm n == k) = true ↔ ∃ n, n < 5 ∧ g.therm n = k := by
  simp

/-- What a round does once it has evaluated the dies, watched the stress, soaked and taken the power. -/
def Device.roundActs (g : Device) (quenched drooped : Bool) : Device :=
  if !quenched && (List.range 5).any (fun n => g.therm n == 3) then g.quench
  else (if (List.range 5).any (fun n => g.therm n == 2) && g.mayStep then g.stepLevel.count (pageThm + 0x16C) else g).powerStep drooped

theorem Device.roundActs_quenches (hq : quenched = false) (hot : ∃ n, n < 5 ∧ g.therm n = 3) : g.roundActs quenched drooped = g.quench :=
  if_pos (by rw [hq, (g.any_therm 3).mpr hot]; rfl)

/-- A round that does not quench steps the level for a throttled die where a step may come, and then by the power. -/
theorem Device.roundActs_steps (h : quenched = true ∨ ¬∃ n, n < 5 ∧ g.therm n = 3) : g.roundActs quenched drooped =
    (if (∃ n, n < 5 ∧ g.therm n = 2) ∧ g.mayStep = true then g.stepLevel.count (pageThm + 0x16C) else g).powerStep drooped := by
  have calm : ¬(!quenched && (List.range 5).any (fun n => g.therm n == 3)) = true := by
    rw [Bool.and_eq_true, Device.any_therm, Bool.not_eq_true']
    rintro ⟨runs, hot⟩
    exact h.elim (Bool.eq_false_iff.mp runs) (absurd hot)
  rw [Device.roundActs, if_neg calm]
  simp only [Bool.and_eq_true, Device.any_therm]

/-- A round's device with its record of cool dies kept: since when all are cool, and in how many rounds all have read below
QUENCH_CLR (R480, R484). -/
def Device.roundKept (f : Device) : Device := f.onHk (fun h => { h with
  coolSince := if f.allCool then some (h.coolSince.getD f.now) else none
  clearRounds := if f.allBelow then h.clearRounds + 1 else 0 })

theorem Device.onHk_congr (f : Device) {k l : Housekeeping → Housekeeping} (h : k f.hk = l f.hk) : f.onHk k = f.onHk l :=
  congrArg (fun hk => ({ f with hk := hk } : Device)) h

/-- A round acts on what it has read: the dies evaluated, the droops cleared, the stress watched, the soaks struck and the power taken. -/
theorem opHousekeepingRound_acts {d b c e f : Device} {power : Nat}
    (hb : (List.range 5).foldl (fun d n => d.evaluateDie n) (d.reach ((d.now / 1000000 + 1) * 1000000)) = b)
    (hc : (List.range 5).foldl (fun d n => if (d.converter n).droops = 0 then d else d.onConverter n (fun c => { c with droops := 0 })) b = c)
    (he : c.watchStress.soakAll.set (pagePwr + 0x120) power = e)
    (hf : { e with power := { e.power with rounds := (power :: e.power.rounds).take 8 } } = f) :
    opHousekeepingRound power d = f.roundKept.roundActs (d.reach ((d.now / 1000000 + 1) * 1000000)).hk.stopped
      ((List.range 5).any (fun n => decide (b.get (pagePwr + 0x128) < (b.converter n).droops))) := by
  simp only [opHousekeepingRound, hb, hc, he, hf]
  refine congrArg (Device.roundActs · _ _) (f.onHk_congr ?_)
  cases f.hk.coolSince <;> rfl

end Round

/-! ### Soak passes (R580) -/

section Soak
variable {d : Device} {die : Nat}

theorem Device.soakDuty_no_reading (h : (smapGet d.hk.temps [] die).headD none = none) : d.soakDuty die = 0 := by
  simp only [Device.soakDuty, h]

theorem Device.soakDuty_warm {t : Int} (h : (smapGet d.hk.temps [] die).headD none = some t)
    (warm : 48 < signed 16 (d.get (pageThm + 0x114 + 4 * die)) ∨ d.proofTj ≤ t) : d.soakDuty die = 0 := by
  simp only [Device.soakDuty, h, if_pos warm]

/-- Without a duty a die does not soak. -/
theorem Device.soakDie_none (h : d.soaks = false ∨ (smapFind d.billet.batches die).isSome = true ∨ d.soakDuty die = 0) :
    d.soakDie die = (d.onHk (fun h => { h with soak := smapErase h.soak die })).drawn := by
  have duty : (if d.soaks && (smapFind d.billet.batches die).isNone then d.soakDuty die else 0) = 0 := by
    rcases h with h | h | h
    · simp [h]
    · simp [Option.isSome_iff_ne_none.mp h]
    · simp [h]
  simp only [Device.soakDie, duty, if_true]

end Soak

/-! ### Level releases and the end of a quench (R480, R484) -/

section Release
variable {d : Device}

theorem opThrottleRelease_warm (h : d.hk.coolSince = none) : opThrottleRelease d = d := by simp only [opThrottleRelease, h]

theorem opThrottleRelease_cool {t : Nat} (h : d.hk.coolSince = some t) :
    let w := d.get (pageHeat + 0x138)
    let due := t + 1000000 * d.get (pageThm + 0x130)
    opThrottleRelease d = if bits w 6 4 ≤ bits w 2 0 then d
      else ((d.reach due).setThermalReq (bits w 6 4 - 1)).onHk (fun h => { h with coolSince := some due }) := by
  simp only [opThrottleRelease, h]

theorem opQuenchClr_refused (agent : Nat) (h : d.hk.stopped = false ∨ d.hk.clearRounds < 100) :
    opQuenchClr agent d = d.refuseCtrl pageThm 2 agent := by
  have early : (!d.hk.stopped || d.hk.clearRounds < 100) = true := by simpa using h
  rw [opQuenchClr, if_pos early]

theorem opQuenchClr_accepted (agent : Nat) (hs : d.hk.stopped = true) (hc : 100 ≤ d.hk.clearRounds) :
    opQuenchClr agent d = ((d.onHk (fun h => { h with stopped := false })).setBits (pageThm + 0x128) 24 24 0).onPower (fun p => { p with
      coreResets := p.coreResets ++ (List.range 4).map (fun die => ⟨3, die, 0, d.now, false⟩) }) := by
  have clear : (!d.hk.stopped || d.hk.clearRounds < 100) = false := by simp [hs, hc]
  rw [opQuenchClr, if_neg (by simp [clear])]
  rfl

/-- The bit just cleared. -/
theorem Device.bit_get_setBits_zero (d : Device) {off i : Nat} (h : i < 32) : bit ((d.setBits off i i 0).get off) i = false := by
  rw [Device.setBits, Device.get_set_same, bit_eq_bits, bits_mod_two_pow h, bits_withBits, Nat.zero_mod]
  rfl

end Release

/-! ### Temper passes (R72 to R74, R486 to R491) -/

section Temper
variable {d : Device} {die : Nat}

theorem opTemperBoundary_idle (h : d.hk.stopped = true ∨ die ∈ d.power.down ∨ 2 ≤ d.sleepState die) : opTemperBoundary die d = d := by
  have idle : (d.hk.stopped || d.power.down.contains die || decide (2 ≤ d.sleepState die)) = true := by simpa [or_assoc] using h
  rw [opTemperBoundary, if_pos idle]

/-- What a temper boundary does once it has taken the snapshots, judged the drift and posted the alarm. -/
def Device.temperBegins (g : Device) (die : Nat) : Device :=
  if !g.trimRecord then g
  else if g.temperHeld die || (smapFind g.hk.passes die).isSome then g.count (pageThm + 0x178)
  else (g.takeBase die).onHk (fun h => { h with passes := smapSet h.passes die g.now })

theorem Device.temperBegins_no_record (h : d.trimRecord = false) : d.temperBegins die = d := if_pos (by rw [h]; rfl)

/-- A pass in progress or not yet applied counts a skip (R489). -/
theorem Device.temperBegins_held (ht : d.trimRecord = true)
    (h : d.temperHeld die = true ∨ (smapFind d.hk.passes die).isSome = true) : d.temperBegins die = d.count (pageThm + 0x178) :=
  (if_neg (by rw [ht]; decide)).trans (if_pos (Bool.or_eq_true_iff.mpr h))

theorem Device.temperBegins_free (ht : d.trimRecord = true) (hh : d.temperHeld die = false) (hp : smapFind d.hk.passes die = none) :
    d.temperBegins die = (d.takeBase die).onHk (fun h => { h with passes := smapSet h.passes die d.now }) :=
  (if_neg (by rw [ht]; decide)).trans (if_neg (by rw [hh, hp]; decide))

/-- A boundary of a die that is on, awake and not quenched begins its pass from the snapshots taken, the drift judged and the alarm posted. -/
theorem opTemperBoundary_awake (h : ¬(d.hk.stopped = true ∨ die ∈ d.power.down ∨ 2 ≤ d.sleepState die)) {e : Device} {alarm : Option Nat}
    (taken : (List.range (68 * 128)).foldl (fun d i => d.snapshot (68 * 128 * die + i)) d = e)
    (posted : (e.anvilsOf die).find? (fun u => (e.residualAnvils die).contains u || e.drifts u) = alarm) :
    let f := ((e.residualAnvils die).foldl (fun d u => d.residHigh u) e).judgeDrift die
    opTemperBoundary die d = (alarm.elim f f.witnessAlarm).temperBegins die := by
  have awake : ¬(d.hk.stopped || d.power.down.contains die || decide (2 ≤ d.sleepState die)) = true := by simpa [or_assoc] using h
  rw [opTemperBoundary, if_neg awake, taken]
  simp only [posted]
  cases alarm <;> rfl

theorem opTemperPassDone_none (h : smapFind d.hk.passes die = none) : opTemperPassDone die d = d := by simp only [opTemperPassDone, h]

theorem opTemperPassDone_some {k : Nat} (h : smapFind d.hk.passes die = some k) :
    let us := d.temperAnvils die
    let e := (us.foldl (fun d u => d.temperAnvil u) d).onHk (fun h => { h with passes := smapErase h.passes die })
    opTemperPassDone die d = e.hkSubmit (us.map pageAnv) (k + e.get (pageThm + 0x13C)) true := by
  simp only [opTemperPassDone, h]

end Temper

/-- Settles O50: each command is its operation on the device, whose cases are the lemmas above. -/
theorem thermalControl : Obligations.ThermalControl := by
  refine ⟨fun d t rise invalid => ?state, fun s power => ?round, fun d die => ?soak, fun s => ?release, fun s agent => ?clear,
    fun s die => ?temper, fun s errors => rfl⟩
  case state =>
    exact ⟨Device.thermalState_quench invalid, Device.thermalState_throttle invalid, Device.thermalState_warn invalid,
      Device.thermalState_normal invalid, rfl⟩
  case round =>
    intro a b drooped c e f
    have acts := opHousekeepingRound_acts (d := s.part.dev) (b := b) (c := c) (e := e) (f := f) rfl rfl rfl rfl
    clear_value f
    intro g hot slow
    have kept : f.roundKept = g := f.onHk_congr (by cases f.hk.coolSince <;> rfl)
    rw [kept] at acts
    refine ⟨fun hs hh => ?_, fun h hw hm => ?_, fun h hn => ?_⟩
    · exact s.onDev_next (acts.trans (Device.roundActs_quenches hs hh))
    · exact s.onDev_next ((acts.trans (Device.roundActs_steps h)).trans (congrArg (Device.powerStep · drooped) (if_pos ⟨hw, hm⟩)))
    · have stays : ¬(slow ∧ g.mayStep = true) := fun ⟨hw, hm⟩ => hn.elim (absurd hw) (by simp [hm])
      exact s.onDev_next ((acts.trans (Device.roundActs_steps h)).trans (congrArg (Device.powerStep · drooped) (if_neg stays)))
  case soak =>
    exact ⟨fun t => Device.soakDuty_warm, Device.soakDuty_no_reading, Device.soakDie_none⟩
  case release =>
    intro d w
    refine ⟨fun h => ?_, fun t h => ⟨fun fast => ?_, fun slow => ?_⟩⟩
    · exact s.onDev_same (opThrottleRelease_warm h)
    · exact s.onDev_same ((opThrottleRelease_cool h).trans (if_pos fast))
    · exact s.onDev_next ((opThrottleRelease_cool h).trans (if_neg (Nat.not_le.mpr slow)))
  case clear =>
    refine ⟨fun ha => ?_, fun ha h => ?_, fun ha hs hc => ?_⟩
    · exact s.onDev_same (Device.written_other _ _ ha)
    · exact s.onDev_written ha (opQuenchClr_refused _ h)
    · exact ⟨_, s.onDev_written ha (opQuenchClr_accepted _ hs hc), rfl, rfl, Device.bit_get_setBits_zero _ (by decide), rfl⟩
  case temper =>
    intro d idle e
    have taken : (List.range (68 * 128)).foldl (fun d i => d.snapshot (68 * 128 * die.val + i)) d = e := rfl
    clear_value e
    intro resid alarm
    have posted : (e.anvilsOf die.val).find? (fun u => resid.contains u || e.drifts u) = alarm := rfl
    clear_value alarm
    intro f g
    have judged (h : ¬idle) : opTemperBoundary die.val d = g.temperBegins die.val := by
      rw [opTemperBoundary_awake h taken posted]
      cases alarm with
      | none => rw [Option.elim_none]
      | some u => rw [Option.elim_some]
    refine ⟨fun h => ?_, fun h ht => ?_, fun h ht hb => ?_, fun h ht hh hp => ?_, fun h => ?_, fun k h => ?_⟩
    · exact s.onDev_same (opTemperBoundary_idle h)
    · exact s.onDev_next ((judged h).trans (Device.temperBegins_no_record ht))
    · exact s.onDev_next ((judged h).trans (Device.temperBegins_held ht hb))
    · exact s.onDev_next ((judged h).trans (Device.temperBegins_free ht hh hp))
    · exact s.onDev_same (opTemperPassDone_none h)
    · exact s.onDev_next (opTemperPassDone_some h)

end Sys2Proof.Machine
end

section
/-! SUPPORT. What the vector engine does with the word at the head of its queue when it reduces or converts (R103, R165, R177, R191). -/

namespace Sys2Proof.Machine

/-! ### The word in service (R191, R403) -/

section Service
variable {p : Part} {c : Nat} {v : VecWord} {q : Queued}

/-- A vector command carries out the word at the head of the queue when that has its VOP. -/
theorem opVector_head {vop : Nat} (hq : headWaiting (p.dev.core c).vecQ = some q) (hv : (vecWord q.word).vop = vop) :
    opVector c vop p = (p.vecRun c (vecWord q.word)).onDev (·.onCore c (fun x => { x with vecQ := headRan x.vecQ })) := by
  simp only [opVector, hq, if_pos hv]

/-- Where memory holds no codeword error, an operation reads its operands as they stand and does nothing but write its output. -/
theorem Part.vecRun_clean (hm : p.mem.ecc = []) : p.vecRun c v =
    let out := p.vecOutput c v
    let whole := granules (storeAddr c v.dst) out.1.length
    p.coreWrite c (storeAddr c v.dst) out.1
      (if out.2 then if (vecSources c v).any (fun s => coreOperandBad p.mem c s.1 s.2) then whole else []
      else if convertScales c v != 0 && coreOperandBad p.mem c (storeAddr c v.srcB) (convertScales c v) then whole
      else p.vecMarks c v out.1) := by
  simp only [Part.vecRun, Part.foldl_touch_clean p _ _ _ hm, Part.touch_clean p _ _ hm]
  rfl

/-- VEC_DONE takes a word that has begun out of the queue. -/
theorem opVecDone_ran {d : Device} {l : List Queued} (h : (d.core c).vecQ = q :: l) (hr : q.ran = true) :
    opVecDone c d = d.onCore c (fun x => { x with vecQ := l }) := by
  simp only [opVecDone, h, if_pos hr]

end Service

/-! ### What each reduction combines (R177) -/

section Combined
variable (compat : Bool) (l : List U32)

theorem vecReduce_sum : vecReduce compat 0x18 l = reduce (fun a b => keep compat (fAdd a b)) l := if_pos rfl

theorem vecReduce_max : vecReduce compat 0x19 l = reduce (vecOrder 5) l := (if_neg (by decide)).trans (if_pos rfl)

theorem vecReduce_min : vecReduce compat 0x1A l = reduce (vecOrder 4) l :=
  (if_neg (by decide)).trans ((if_neg (by decide)).trans (if_pos rfl))

theorem vecReduce_argmax : vecReduce compat 0x1B l = (reduce betterMax l.zipIdx).map (fun e => BitVec.ofNat 32 e.2) :=
  (if_neg (by decide)).trans ((if_neg (by decide)).trans (if_neg (by decide)))

end Combined

/-! ### Outputs of reductions and conversions (R103, R165, R176, R177) -/

/-- The elements that a reduction combines: SRC_A as the flush of compatibility mode leaves it. -/
def Part.reductionElements (p : Part) (c : Nat) (v : VecWord) : List U32 :=
  (p.vecOperand c v.fmtIn v.count v.srcA).map (keep p.dev.compat)

/-- The bytes of a reduction's result: an index for argmax, and else an element of the output format. -/
def Part.reductionBytes (p : Part) (v : VecWord) (w : U32) : List Byte :=
  if v.vop = 0x1B then leBytes 4 w.toNat else vecPack v.fmtOut [(vecCode v.fmtOut (keep p.dev.compat w)).code]

section Outputs
variable {p : Part} {c : Nat} {v : VecWord} {w : U32}

theorem Part.reductionBytes_element (hv : v.vop ≠ 0x1B) :
    p.reductionBytes v w = vecPack v.fmtOut [(vecCode v.fmtOut (keep p.dev.compat w)).code] := if_neg hv

theorem Part.reductionBytes_index (hv : v.vop = 0x1B) : p.reductionBytes v w = leBytes 4 w.toNat := if_pos hv

theorem isWordOp_eq_false_of_lt {vop : Nat} (h : 0x0D < vop) : isWordOp vop = false := by
  simp [isWordOp, Nat.not_le.mpr h]

/-- A reduction puts out its result and the open bytes behind it, one whole for poison. -/
theorem Part.vecOutput_reduction (hv : 0x18 ≤ v.vop) (hr : vecReduce p.dev.compat v.vop (p.reductionElements c v) = some w) :
    let body := p.reductionBytes v w
    p.vecOutput c v = (body ++ (List.range (8 - body.length)).map (Config.reducePad c v.dst), true) := by
  have formats : isWordOp v.vop = false := isWordOp_eq_false_of_lt (by omega)
  have reduces : v.vop ≠ 0x17 := by omega
  simp only [Part.reductionElements, Part.vecOperand] at hr
  simp only [Part.vecOutput, formats, Bool.false_eq_true, if_false, if_neg reduces, if_pos hv, hr]
  rfl

/-- The output of a conversion is no whole for poison. -/
theorem Part.vecOutput_convert (hv : v.vop = 0x17) : (p.vecOutput c v).2 = false := by
  simp only [Part.vecOutput, if_pos hv]

end Outputs

/-! ### The commands (R177, R191) -/

section Commands
variable {p : Part} {c vop : Nat} {q : Queued} {w : U32}

/-- A reduction writes its result at DST. -/
theorem opVector_reduction (hq : headWaiting (p.dev.core c).vecQ = some q) (hm : p.mem.ecc = []) (hv : (vecWord q.word).vop = vop)
    (hr : 0x18 ≤ vop) (hw : vecReduce p.dev.compat vop (p.reductionElements c (vecWord q.word)) = some w) :
    opVector c vop p = p.vecReduced c (vecWord q.word) (p.reductionBytes (vecWord q.word) w) := by
  subst hv
  rw [opVector_head hq rfl, Part.vecRun_clean hm, Part.vecOutput_reduction hr hw]
  rfl

/-- A reduction other than argmax writes an element of the output format. -/
theorem opVector_reduction_element (hq : headWaiting (p.dev.core c).vecQ = some q) (hm : p.mem.ecc = [])
    (hv : (vecWord q.word).vop = vop) (hr : 0x18 ≤ vop ∧ vop ≠ 0x1B)
    (hw : vecReduce p.dev.compat vop (p.reductionElements c (vecWord q.word)) = some w) :
    opVector c vop p = p.vecReduced c (vecWord q.word)
      (vecPack (vecWord q.word).fmtOut [(vecCode (vecWord q.word).fmtOut (keep p.dev.compat w)).code]) := by
  rw [opVector_reduction hq hm hv hr.1 hw, Part.reductionBytes_element (hv ▸ hr.2)]

/-- Argmax writes the index that it finds. -/
theorem opVector_argmax {r : U32 × Nat} (hq : headWaiting (p.dev.core c).vecQ = some q) (hm : p.mem.ecc = [])
    (hv : (vecWord q.word).vop = 0x1B) (hr : reduce betterMax (p.reductionElements c (vecWord q.word)).zipIdx = some r) :
    opVector c 0x1B p = p.vecReduced c (vecWord q.word) (leBytes 4 (BitVec.ofNat 32 r.2 : U32).toNat) := by
  have found := (vecReduce_argmax p.dev.compat _).trans (congrArg (Option.map _) hr)
  rw [opVector_reduction hq hm hv (by decide) found, Part.reductionBytes_index hv]

/-- A conversion writes its codes and their scale at DST. -/
theorem opVector_convert (hq : headWaiting (p.dev.core c).vecQ = some q) (hm : p.mem.ecc = []) (hv : (vecWord q.word).vop = 0x17) :
    opVector c 0x17 p = p.vecConverted c (vecWord q.word) (p.vecOutput c (vecWord q.word)).1 := by
  rw [opVector_head hq hv, Part.vecRun_clean hm]
  simp only [Part.vecOutput_convert hv, Bool.false_eq_true, if_false]
  rfl

end Commands

/-- Settles O20: each command is its operation on the module or the device, whose cases are the lemmas above. -/
theorem vectorReductionsAndConversion : Obligations.VectorReductionsAndConversion := by
  refine ⟨fun s c q => ?head, fun s c q l h hr => s.onDev_next (opVecDone_ran h hr)⟩
  case head =>
    intro p v a hq hm
    refine ⟨?value, fun hv r hr => ?_, fun hv => ?_⟩
    case value =>
      simp only [List.forall_mem_cons]
      refine ⟨fun hv r hr => ?_, fun hv r hr => ?_, fun hv r hr => ?_, List.forall_mem_nil _⟩
      · exact s.onPart_next (opVector_reduction_element hq hm hv (by decide) ((vecReduce_sum _ _).trans hr))
      · exact s.onPart_next (opVector_reduction_element hq hm hv (by decide) ((vecReduce_max _ _).trans hr))
      · exact s.onPart_next (opVector_reduction_element hq hm hv (by decide) ((vecReduce_min _ _).trans hr))
    · exact s.onPart_next (opVector_argmax hq hm hv hr)
    · exact s.onPart_next (opVector_convert hq hm hv)

end Sys2Proof.Machine
end

section
/-! SUPPORT. What the fuller does with the word at the head of its queue, on an open tile and without one, and the registers that an
event leaves (R158 to R160, R170, R172, R173, R191, R538 to R540, R615). -/

namespace Sys2Proof.Machine

/-! ### Registers that an event leaves (R538 to R540, R609) -/

section EventWords
variable (d : Device) {page off : Nat}

theorem Device.get_setWords_above {first : Nat} {l : List Nat} (h : first + 4 * l.length ≤ off) :
    (d.setWords first l).get off = d.get off := by
  induction l generalizing d first with
  | nil => rfl
  | cons w l ih =>
    rw [List.length_cons] at h
    rw [Device.setWords, ih _ (by omega), Device.get_set_other _ _ (by omega)]

/-- A notification counts in BM_IBI_CNT alone. -/
theorem Device.get_notifyEvent (b : Nat) (h : off ≠ pageBrd + 0x108) : (d.notifyEvent page b).get off = d.get off := by
  simp only [Device.notifyEvent, apply_ite (Device.get · off), Device.send_get, Device.get_count_other _ _ h, ite_self]

theorem Device.get_raise (b : Nat) (hb : off ≠ pageBrd + 0x108) (hp : off ≠ page + 0x10) : (d.raise page b).get off = d.get off := by
  simp only [Device.raise, apply_ite (Device.get · off), Device.get_notifyEvent _ _ hb, Device.get_set_other _ _ hp, ite_self]

/-- A capture stands in the words of its page below 0x40. -/
theorem Device.get_capture (words : List Nat) (h : page + 0x40 ≤ off) : (d.capture page words).get off = d.get off := by
  have filled : (padTo 8 0 words).length = 8 := by simp only [padTo, List.length_append, List.length_take, List.length_replicate]; omega
  simp only [Device.capture, apply_ite (Device.get · off), Device.get_set_other _ _ (show off ≠ page + 0x1C by omega),
    Device.get_setWords_above _ (show page + 0x20 + 4 * (padTo 8 0 words).length ≤ off by omega), ite_self]

theorem Device.get_eventSt (b status : Nat) (rest : List Nat) (hb : off ≠ pageBrd + 0x108) (hp : page + 0x40 ≤ off) :
    (d.eventSt page b status rest).get off = d.get off := by
  rw [Device.eventSt, Device.event, Device.get_capture _ _ hp, Device.get_raise _ _ hb (by omega)]

end EventWords

/-! ### A word that finds no tile (R615) -/

section Refused
variable (d : Device) (c tileId entry region n : Nat)

@[simp] theorem Device.refuseTile_core (c' : Nat) : (d.refuseTile c tileId entry region n).core c' = d.core c' := by
  rw [Device.refuseTile, Device.accEvent, Device.eventSt_core, Device.count_core]

/-- A refusal counts in ACC_REFUSE_CNT: its event writes other words. -/
theorem Device.refuseTile_refuseCnt :
    (d.refuseTile c tileId entry region n).get (pageAcc c + 0x10C) = satAdd (d.get (pageAcc c + 0x10C)) n := by
  have elsewhere : pageAcc c + 0x10C ≠ pageBrd + 0x108 := by unfold pageAcc coreUnit pageBrd; omega
  rw [Device.refuseTile, Device.accEvent, Device.get_eventSt _ _ _ _ elsewhere (by omega), Device.get_count_same]

end Refused

/-! ### Reads of the fuller without codeword errors (R385) -/

section Reads
variable {p : Part} (hm : p.mem.ecc = [])
include hm

theorem Part.touchInputs_clean (c e : Nat) (t : Tile) : p.touchInputs c e t = p := Part.foldl_touch_clean p _ _ _ hm

theorem Part.touchBillet_clean (kind bytes c e : Nat) (t : Tile) : p.touchBillet kind bytes c e t = p :=
  Part.foldl_touch_clean p _ _ _ hm

theorem Part.touchOutliers_clean (a : Nat) (l : List (Nat × PassWord)) : Part.touchOutliers a l p = p := by
  induction l generalizing a with
  | nil => rfl
  | cons w l ih => simp only [Part.touchOutliers, Part.touch_clean p _ _ hm, ih]

end Reads

/-! ### The word in service (R191, R615) -/

section Service
variable {p : Part} {c sub : Nat} {q : Queued} {act : Part → Nat → Tile → FullWord → Part}
  (hq : headWaiting (p.dev.core c).fullQ = some q)
include hq

/-- On an open tile of the word's shape the command carries out the word at the head of the queue when that has its SUB. -/
theorem opFuller_open {t : Tile} (ht : (p.dev.core c).tileShaped (fullWord q.word).tile (fullWord q.word).shape = some t)
    (hs : (fullWord q.word).sub = sub) :
    opFuller c sub act p = (act p (fullWord q.word).tile t (fullWord q.word)).onDev (·.fullRan c) := by
  simp only [opFuller, hq, if_pos hs, ht]

/-- Without one it does nothing but refuse the word. -/
theorem opFuller_no_tile (ht : (p.dev.core c).tileShaped (fullWord q.word).tile (fullWord q.word).shape = none)
    (hs : (fullWord q.word).sub = sub) :
    opFuller c sub act p = p.onDev (fun d => (d.refuseTile c 0 (fullWord q.word).tile 0).fullRan c) := by
  simp only [opFuller, hq, if_pos hs, ht]
  rfl

end Service

/-- FULL_DONE takes a word that has begun out of the queue. -/
theorem opFullDone_ran {d : Device} {c : Nat} {q : Queued} {l : List Queued} (h : (d.core c).fullQ = q :: l) (hr : q.ran = true) :
    opFullDone c d = d.onCore c (fun x => { x with fullQ := l }) := by
  simp only [opFullDone, h, if_pos hr]

/-! ### Each operation on its tile (R157 to R162, R170 to R173) -/

section Operations
variable {p : Part} {c : Nat} {q : Queued} (hq : headWaiting (p.dev.core c).fullQ = some q) (hm : p.mem.ecc = [])
include hq hm

/-- The gradient preparation looks for no tile. -/
theorem opFullGradPrep_head (hs : (fullWord q.word).sub = 5) :
    opFullGradPrep c p = (p.gradPrepare c (fullWord q.word)).onDev (·.fullRan c) := by
  simp only [opFullGradPrep, hq, if_pos hs, Part.touch_clean p _ _ hm]

variable {t : Tile} (ht : (p.dev.core c).tileShaped (fullWord q.word).tile (fullWord q.word).shape = some t)
include ht

theorem opFullOutlier_open (hs : (fullWord q.word).sub = 0) :
    let f := fullWord q.word
    opFullOutlier c p = p.onDev (fun d =>
      (if t.hasSide then d.outliers p.mem c f.tile t f.srcA else d.noSide c f.tile t).fullRan c) := by
  simp only [opFullOutlier, opFuller_open hq ht hs, Part.touchInputs_clean hm, Part.touchOutliers_clean hm]
  split <;> rfl

theorem opFullAdaptA_open (hs : (fullWord q.word).sub = 1) :
    let f := fullWord q.word
    opFullAdaptA c p = (p.adaptA c f.tile t f).onDev (·.fullRan c) := by
  simp only [opFullAdaptA, opFuller_open hq ht hs, Part.touch_clean p _ _ hm, Part.touchInputs_clean hm]

theorem opFullAdaptB_open (hs : (fullWord q.word).sub = 2) :
    let f := fullWord q.word
    opFullAdaptB c p = p.onDev (fun d => (if t.hasSide then d.adaptB p.mem c f.tile t f else d.noSide c f.tile t).fullRan c) := by
  simp only [opFullAdaptB, opFuller_open hq ht hs, Part.touch_clean p _ _ hm, Part.foldl_touch_clean p _ (fun _ => _) _ hm]
  split <;> rfl

theorem opFullRung3_open (hs : (fullWord q.word).sub = 3) :
    opFullRung3 c p = p.onDev (fun d => ((d.rung3 p.mem c (fullWord q.word).tile t).getD d).fullRan c) := by
  simp only [opFullRung3, opFuller_open hq ht hs, Part.touchInputs_clean hm, Part.touchBillet_clean hm]
  rfl

theorem opFullRung4_open (hs : (fullWord q.word).sub = 4) :
    opFullRung4 c p = p.onDev (fun d => ((d.rung4 p.mem c (fullWord q.word).tile t).getD d).fullRan c) := by
  simp only [opFullRung4, opFuller_open hq ht hs, Part.touchInputs_clean hm, Part.touchBillet_clean hm]
  rfl

theorem opFullGradRows_open (hs : (fullWord q.word).sub = 6) :
    let f := fullWord q.word
    opFullGradRows c p = p.onDev (fun d => (if t.transposed then d.gradRows p.mem c f.tile t f else d).fullRan c) := by
  simp only [opFullGradRows, opFuller_open hq ht hs, Part.touch_clean p _ _ hm]
  split <;> rfl

theorem opFullGradAdapt_open (hs : (fullWord q.word).sub = 7) :
    let f := fullWord q.word
    opFullGradAdapt c p = (if t.transposed then p.gradAdapt c f.tile t f else p).onDev (·.fullRan c) := by
  simp only [opFullGradAdapt, opFuller_open hq ht hs, Part.touch_clean p _ _ hm]

end Operations

/-- A command of the fuller whose word finds no tile leaves memory, the tiles and the accumulator words as they are, counts in
ACC_REFUSE_CNT and marks the word as begun. -/
theorem State.fuller_refuses (s : State) {c sub : Nat} {q : Queued} {act : Part → Nat → Tile → FullWord → Part}
    (hq : headWaiting (s.part.dev.core c).fullQ = some q)
    (ht : (s.part.dev.core c).tileShaped (fullWord q.word).tile (fullWord q.word).shape = none) (hs : (fullWord q.word).sub = sub) :
    ∃ t, s.onPart (opFuller c sub act) = .next t ∧ t.part.mem = s.part.mem ∧
      t.part.dev.core c = { s.part.dev.core c with fullQ := headRan (s.part.dev.core c).fullQ } ∧
      t.part.dev.get (pageAcc c + 0x10C) = satAdd (s.part.dev.get (pageAcc c + 0x10C)) 1 := by
  refine ⟨_, s.onPart_next (opFuller_no_tile hq ht hs), rfl, ?core, ?refused⟩
  case core => exact (Device.core_onCore_same _ _ _).trans (by rw [Device.refuseTile_core])
  case refused => exact Device.refuseTile_refuseCnt _ _ _ _ _ _

/-- Settles O18: each command carries out the word of its SUB on its tile, or refuses it where the tile is not open. -/
theorem fullerOperations : Obligations.FullerOperations := by
  refine ⟨⟨fun s c q t => ?tile, fun s c q l h hr => s.onDev_next (opFullDone_ran h hr)⟩, fun s c q => ?none⟩
  case tile =>
    intro d m f hq hm
    refine ⟨fun hs => s.onPart_next (opFullGradPrep_head hq hm hs), fun ht => ⟨fun hs => ?_, fun hs => ?_, fun hs => ?_, fun hs => ?_,
      fun hs => ?_, fun hs => ?_, fun hs => ?_⟩⟩
    · exact s.onPart_next (opFullOutlier_open hq hm ht hs)
    · exact s.onPart_next (opFullAdaptA_open hq hm ht hs)
    · exact s.onPart_next (opFullAdaptB_open hq hm ht hs)
    · exact s.onPart_next (opFullRung3_open hq hm ht hs)
    · exact s.onPart_next (opFullRung4_open hq hm ht hs)
    · exact s.onPart_next (opFullGradRows_open hq hm ht hs)
    · exact s.onPart_next (opFullGradAdapt_open hq hm ht hs)
  case none =>
    intro d f hq ht
    simp only [List.forall_mem_cons]
    exact ⟨s.fuller_refuses hq ht, s.fuller_refuses hq ht, s.fuller_refuses hq ht, s.fuller_refuses hq ht, s.fuller_refuses hq ht,
      s.fuller_refuses hq ht, s.fuller_refuses hq ht, List.forall_mem_nil _⟩

end Sys2Proof.Machine
end

section
/-! SUPPORT. What the vector engine puts out for elementwise FP32 operations, compare and select, and operations on 32-bit words (R174 to
R176). -/

namespace Sys2Proof.Machine

/-! ### The operations on 32-bit words (R175) -/

theorem isWordOp_iff {vop : Nat} : isWordOp vop = true ↔ 0x0A ≤ vop ∧ vop ≤ 0x0D := by
  simp only [isWordOp, Bool.and_eq_true, decide_eq_true_eq]

theorem isWordOp_eq_false_iff {vop : Nat} : isWordOp vop = false ↔ vop < 0x0A ∨ 0x0D < vop := by
  rw [← Bool.not_eq_true, isWordOp_iff]
  omega

/-! ### Outputs (R174, R175) -/

section Outputs
variable {p : Part} {c : Nat} {v : VecWord}

theorem convertScales_other (hv : v.vop ≠ 0x17) : convertScales c v = 0 := if_neg hv

/-- An elementwise FP32 operation puts out its function of SRC_A, SRC_B and the old DST. -/
theorem Part.vecOutput_elementwise (hv : v.vop ≤ 7 ∨ 0x0E ≤ v.vop ∧ v.vop ≤ 0x16) :
    p.vecOutput c v = (p.elementwise c v (vecFloat v.vop), false) := by
  have words : isWordOp v.vop = false := isWordOp_eq_false_iff.mpr (by omega)
  have converts : v.vop ≠ 0x17 := by omega
  have reduces : ¬0x18 ≤ v.vop := by omega
  have masks : ¬(v.vop = 8 ∨ v.vop = 9) := by omega
  simp only [Part.vecOutput, words, Bool.false_eq_true, if_false, if_neg converts, if_neg reduces, if_neg masks]
  rfl

/-- Compare and select put out codes of the output format. -/
theorem Part.vecOutput_maskwise (hv : v.vop = 8 ∨ v.vop = 9) :
    p.vecOutput c v = (p.maskwise c v (vecMask v.vop v.fmtOut), false) := by
  have words : isWordOp v.vop = false := isWordOp_eq_false_iff.mpr (by omega)
  have converts : v.vop ≠ 0x17 := by omega
  have reduces : ¬0x18 ≤ v.vop := by omega
  simp only [Part.vecOutput, words, Bool.false_eq_true, if_false, if_neg converts, if_neg reduces, if_pos hv]
  rfl

/-- An operation on 32-bit words takes and puts out words, whatever the format codes. -/
theorem Part.vecOutput_wordwise (hv : isWordOp v.vop = true) : p.vecOutput c v = (p.wordwise c v (vecWordOp v.vop), false) := by
  have range := isWordOp_iff.mp hv
  have converts : v.vop ≠ 0x17 := by omega
  have reduces : ¬0x18 ≤ v.vop := by omega
  simp only [Part.vecOutput, hv, if_true, if_neg converts, if_neg reduces]
  rfl

end Outputs

/-! ### The commands (R174 to R176, R191, R403) -/

section Commands
variable {p : Part} {c vop : Nat} {q : Queued} (hq : headWaiting (p.dev.core c).vecQ = some q) (hm : p.mem.ecc = [])
  (hv : (vecWord q.word).vop = vop)
include hq hm hv

/-- An output that is no whole for poison is written at DST with the marks of its sources, unless the operation reads scales. -/
theorem opVector_marked {out : List Byte} (hc : vop ≠ 0x17) (ho : p.vecOutput c (vecWord q.word) = (out, false)) :
    opVector c vop p = p.vecWritten c (vecWord q.word) out (p.vecMarks c (vecWord q.word) out) := by
  rw [opVector_head hq hv, Part.vecRun_clean hm, ho, convertScales_other (hv ▸ hc)]
  rfl

theorem opVector_elementwise (hr : vop ≤ 7 ∨ 0x0E ≤ vop ∧ vop ≤ 0x16) :
    let out := p.elementwise c (vecWord q.word) (vecFloat vop)
    opVector c vop p = p.vecWritten c (vecWord q.word) out (p.vecMarks c (vecWord q.word) out) := by
  subst hv
  exact opVector_marked hq hm rfl (by omega) (Part.vecOutput_elementwise hr)

theorem opVector_maskwise (hr : vop = 8 ∨ vop = 9) :
    let out := p.maskwise c (vecWord q.word) (vecMask vop (vecWord q.word).fmtOut)
    opVector c vop p = p.vecWritten c (vecWord q.word) out (p.vecMarks c (vecWord q.word) out) := by
  subst hv
  exact opVector_marked hq hm rfl (by omega) (Part.vecOutput_maskwise hr)

theorem opVector_wordwise (hr : isWordOp vop = true) :
    let out := p.wordwise c (vecWord q.word) (vecWordOp vop)
    opVector c vop p = p.vecWritten c (vecWord q.word) out (p.vecMarks c (vecWord q.word) out) := by
  subst hv
  have range := isWordOp_iff.mp hr
  exact opVector_marked hq hm rfl (by omega) (Part.vecOutput_wordwise hr)

end Commands

/-- Settles O19: each command writes the output of its VOP, whose function is the one that the opcode names. -/
theorem vectorOutputs : Obligations.VectorOutputs := by
  refine ⟨fun s c q => ?float, fun s c q => ?word⟩
  case float =>
    intro p v out mask hq hm
    have element {vop : Nat} (hr : vop ≤ 7 ∨ 0x0E ≤ vop ∧ vop ≤ 0x16) (hv : v.vop = vop) :=
      s.onPart_next (opVector_elementwise hq hm hv hr)
    have masked {vop : Nat} (hr : vop = 8 ∨ vop = 9) (hv : v.vop = vop) := s.onPart_next (opVector_maskwise hq hm hv hr)
    simp only [List.forall_mem_cons]
    exact ⟨element (by decide), element (by decide), element (by decide), element (by decide), element (by decide),
      element (by decide), element (by decide), element (by decide), masked (by decide), masked (by decide), element (by decide),
      element (by decide), element (by decide), element (by decide), element (by decide), element (by decide),
      element (by decide), element (by decide), element (by decide), List.forall_mem_nil _⟩
  case word =>
    intro p v hq hm
    have word {vop : Nat} (hr : isWordOp vop = true) (hv : v.vop = vop) := s.onPart_next (opVector_wordwise hq hm hv hr)
    simp only [List.forall_mem_cons]
    exact ⟨word (by decide), word (by decide), word (by decide), word (by decide), List.forall_mem_nil _⟩

end Sys2Proof.Machine
end

section
/-! SUPPORT. What a step of the reduction tree and an epilogue do in each of their cases (R154, R155, R163 to R168, R194). -/

namespace Sys2Proof.Machine

/-! ### Steps of the tree (R155, R167, R168, R194) -/

section Tree
variable {d : Device} {c : Nat} {o : TreeOp}

theorem opTreeStepDone_ready {l : List TreeOp} (h : (d.core c).treeQ = o :: l) (hr : (d.core c).treeReady o = true) :
    let d0 := d.setCore c { d.core c with treeQ := l }
    opTreeStepDone c d = (if (treeWord o.word).add then d0.treeAdd c o else d0.treeSend c o).count (pageAcc c + 0x114) := by
  simp only [opTreeStepDone, h, if_pos hr]

variable {t0 t : Tile} (h0 : (d.core c).tileShaped (treeWord o.word).tile (treeWord o.word).shape = some t0)
  (ht : ((d.settle c (treeWord o.word).tile o.idx opTree).core c).tile (treeWord o.word).tile = some t)
include h0 ht

theorem Device.treeSend_open :
    let q := treeWord o.word
    let d1 := d.settle c q.tile o.idx opTree
    d.treeSend c o = (d1.onCore c (·.freeTile q.tile)).sendPart q ((d1.core c).partOf c q.tile t) := by
  simp only [Device.treeSend, h0, ht]

/-- A part that has arrived is added; its poison is an event of the accumulator path. -/
theorem Device.treeAdd_part {p : TreePart} (hp : o.part = some p) :
    let q := treeWord o.word
    let d2 := (d.settle c q.tile o.idx opTree).onCore c (fun x => (x.addPart t p).setTile q.tile (t.combine p))
    d.treeAdd c o = if p.poison = [] then d2 else d2.accEvent c 2 stPoisoned t.tileId q.tile t.region := by
  simp only [Device.treeAdd, h0, ht, hp]

theorem Device.treeAdd_missing (hp : o.part = none) :
    let q := treeWord o.word
    d.treeAdd c o = (d.settle c q.tile o.idx opTree).onCore c (fun x => x.setTile q.tile t.spoilMarks) := by
  simp only [Device.treeAdd, h0, ht, hp]

end Tree

/-! ### Epilogues (R154, R155, R163 to R166) -/

section Epilogue
variable {p : Part} {c : Nat}

/-- Reads that each leave the module as it is leave it so together. -/
theorem Part.foldl_fixed {α : Type} {f : Part → α → Part} (h : ∀ x, f p x = p) (l : List α) : l.foldl f p = p := by
  induction l with
  | nil => rfl
  | cons x l ih => rw [List.foldl_cons, h x, ih]

/-- An epilogue that may start leaves the queue and runs over its tiles, the gate tile among them when the word is gated: the reads of
its operands find no codeword error. -/
theorem opEpilogueStart_ready {q : Queued} {l : List Queued} {up : Tile} {gate : Option Tile} (hm : p.mem.ecc = [])
    (h : (p.dev.core c).epiQ = q :: l) (hr : (p.dev.core c).epiReady q = true)
    (hu : (p.dev.core c).tileShaped (epiWord q.word).tile (epiWord q.word).shape = some up)
    (hw : (epiWord q.word).gated = gate.isSome)
    (hg : ∀ g, gate = some g → (p.dev.core c).tileShaped (epiWord q.word).tile2 (epiWord q.word).shape = some g) :
    opEpilogueStart c p = p.onDev (fun d =>
      (d.onCore c (fun x => { x with epiQ := l })).epiRun p.mem c q.idx (epiWord q.word) up gate) := by
  have read (a n : Nat) := Part.touch_clean (p.onDev (·.onCore c (fun x => { x with epiQ := l }))) a n hm
  simp only [opEpilogueStart, h, if_pos hr, read]
  rw [Part.foldl_fixed (fun t => by
    split
    · exact read _ _
    · rfl)]
  have found : ({ p.dev.core c with epiQ := l } : CoreState).tileShaped (epiWord q.word).tile (epiWord q.word).shape = some up := hu
  cases gate with
  | none => simp only [Part.onDev, Device.core_onCore_same, found, hw, Option.isSome_none, Bool.false_eq_true, if_false]
  | some g =>
    have second : ({ p.dev.core c with epiQ := l } : CoreState).tileShaped (epiWord q.word).tile2 (epiWord q.word).shape = some g :=
      hg g rfl
    simp only [Part.onDev, Device.core_onCore_same, found, second, hw, Option.isSome_some, if_true]

/-- The oldest output is written at DST, and its tiles are freed. -/
theorem opEpilogueDone_oldest {o : EpiOut} {l : List EpiOut} (h : (p.dev.core c).epiOut = o :: l) :
    opEpilogueDone c p = (p.coreWrite c o.dst o.data o.poison).onDev (fun d =>
      (d.onCore c (fun x => (o.tiles.foldl CoreState.freeTile { x with epiOut := l }).putOutput (o.dst / 64)
        (ceilDiv o.data.length 64) o.status)).count (pageAcc c + 0x118)) := by
  simp only [opEpilogueDone, h]

end Epilogue

/-- Settles O23: each command is its operation on the device or the module, whose cases are the lemmas above. -/
theorem treeAndEpilogues : Obligations.TreeAndEpilogues := by
  refine ⟨fun s c o l => ?tree, fun s c q l up gate => ?start, fun s c o l h => s.onPart_next (opEpilogueDone_oldest h)⟩
  case tree =>
    intro d x q h hr d0
    refine ⟨s.onDev_next (opTreeStepDone_ready h hr), fun t0 t h0 ht => ⟨Device.treeSend_open h0 ht, fun p hp hc => ?_,
      fun p hp hc => ?_, Device.treeAdd_missing h0 ht⟩⟩
    · exact (Device.treeAdd_part h0 ht hp).trans (if_pos hc)
    · exact (Device.treeAdd_part h0 ht hp).trans (if_neg hc)
  case start =>
    intro d x w h hr hm hu d1
    exact ⟨fun hw => s.onPart_next (opEpilogueStart_ready (gate := none) hm h hr hu hw (fun _ h => nomatch h)),
      fun hw hg => s.onPart_next (opEpilogueStart_ready (gate := some gate) hm h hr hu hw (fun _ h => Option.some.inj h ▸ hg))⟩

end Sys2Proof.Machine
end

section
/-! SUPPORT. What issuing a word does, and what the sequencer's commands do with a word of another kind (R184, R189, R219, R251, R617). -/

namespace Sys2Proof.Machine

/-! ### The time of a word's tick (R184, R251, R252) -/

/-- The steering of the counters stays within 100 ppm. -/
theorem Device.tickRate_bounds (d : Device) : 999900000 ≤ d.tickRate ∧ d.tickRate ≤ 1000100000 := by
  have plus : Nat.min (d.get (pageTb 4 + 0x10C)) 100000 ≤ 100000 := Nat.min_le_right ..
  have minus : Nat.min (2 ^ 32 - d.get (pageTb 4 + 0x10C)) 100000 ≤ 100000 := Nat.min_le_right ..
  simp only [Device.tickRate]
  split <;> omega

theorem Device.tick_elapse (d : Device) (n : Nat) (p : Fin 5) :
    (d.elapse n).tick p = (d.tick p + (d.tickPart + n * d.tickRate) / 1000000000) % 2 ^ 64 := by
  simp [Device.tick, Device.elapse]

/-- A quotient rounded up, times its divisor, reaches the dividend by less than the divisor. -/
theorem ceilDiv_mul_bounds (a : Nat) {b : Nat} (hb : 0 < b) : a ≤ ceilDiv a b * b ∧ ceilDiv a b * b < a + b := by
  have whole := Nat.div_add_mod' (a + b - 1) b
  have rest := Nat.mod_lt (a + b - 1) hb
  simp only [ceilDiv]
  omega

theorem ceilDiv_zero {b : Nat} (hb : 0 < b) : ceilDiv 0 b = 0 := Nat.div_eq_of_lt (by omega)

/-- Reaching a tick, every counter gains the same whole ticks: none when it has come, else as far as that tick or one beyond. -/
theorem Device.reach_ticks (d : Device) (t : Nat) (hp : d.tickPart < 1000000000) :
    ∃ n, (∀ p : Fin 5, (d.reach t).tick p = (d.tick p + n) % 2 ^ 64) ∧ (t ≤ d.tick 4 → n = 0) ∧
      (d.tick 4 < t → t ≤ d.tick 4 + n ∧ d.tick 4 + n ≤ t + 1) := by
  have rate := d.tickRate_bounds
  have steered : 0 < d.tickRate := by omega
  refine ⟨_, fun p => d.tick_elapse _ p, fun come => ?_, fun ahead => ?_⟩
  · simp [Nat.sub_eq_zero_of_le come, ceilDiv_zero steered, Nat.div_eq_of_lt hp]
  · have span := ceilDiv_mul_bounds ((t - d.tick 4) * 1000000000 - d.tickPart) steered
    omega

/-! ### The device in which a word has issued (R184, R191, R219, R617) -/

/-- With no poisoned word in the stream none is dropped. -/
theorem Device.dropPoisoned_sound {d : Device} {c : Nat} (h : (d.core c).poisoned = []) (n : Nat) : Device.dropPoisoned c n d = d := by
  cases n with
  | zero => rfl
  | succ n =>
    simp only [Device.dropPoisoned, h]
    split <;> rfl

/-- WORD_PTR, of 13 bits, goes one further. -/
theorem Device.wordPtr_bump (d : Device) (c : Nat) (h : d.wordPtr c + 1 < 8192) : (d.bump c).wordPtr c = d.wordPtr c + 1 := by
  rw [Device.wordPtr, Device.bump, Device.get_set_same]
  simp only [bits, Nat.shiftRight_zero]
  omega

theorem Device.wordPtr_count (d : Device) (c n : Nat) {off : Nat} (h : pageSeq c + 0x110 ≠ off) :
    (d.count off n).wordPtr c = d.wordPtr c := by
  rw [Device.wordPtr, Device.get_count_other d n h, Device.wordPtr]

section Issued
variable {d : Device} {c w : Nat}

theorem Device.issued_sound (h : (d.core c).poisoned = []) :
    d.issued c w = ((d.reach (d.wordTick c w)).count (pageSeq c + 0x114)).bump c :=
  Device.dropPoisoned_sound (d := ((d.reach (d.wordTick c w)).count (pageSeq c + 0x114)).bump c) h 8192

theorem Device.wordPtr_issued (hs : (d.core c).poisoned = []) (hp : d.wordPtr c < 4096) : (d.issued c w).wordPtr c = d.wordPtr c + 1 := by
  have counted : ((d.reach (d.wordTick c w)).count (pageSeq c + 0x114)).wordPtr c = d.wordPtr c :=
    (d.reach _).wordPtr_count c 1 (by omega)
  rw [Device.issued_sound hs, Device.wordPtr_bump _ c (by omega), counted]

end Issued

/-- Settles O8: with no poisoned word behind it, the issue is the reached tick, the count and the pointer. -/
theorem issuingAWord : Obligations.IssuingAWord := by
  intro d c w h hs hl
  have inside : d.wordPtr c < 4096 := by
    obtain ⟨hi, -⟩ := List.getElem?_eq_some_iff.mp h.word
    omega
  refine ⟨?count, Device.wordPtr_issued hs inside, fun hp _ => ?ticks, fun off hc hw => ?other, ?rest⟩
  all_goals rw [Device.issued_sound hs]
  case count => exact (Device.get_set_other _ _ (by omega)).trans (Device.get_count_same _ _ _)
  case ticks => exact d.reach_ticks (d.wordTick c w) hp
  case other => exact (Device.get_set_other _ _ hw).trans (Device.get_count_other _ _ hc)
  case rest => exact ⟨fun _ => rfl, fun _ => rfl, rfl, rfl, rfl⟩

/-! ### Words of another kind (R184, R189) -/

theorem Device.next_not_op {d : Device} {c w op : Nat} (h : d.AtWord c w) (ho : wOp w ≠ op) : d.next c (isOp op) = none :=
  Device.next_other h (by simp [isOp, ho])

/-- Nor does it with a command that also asks for a field of the word. -/
theorem Device.next_not_op_and {d : Device} {c w op : Nat} (h : d.AtWord c w) (ho : wOp w ≠ op) (field : Nat → Bool) :
    d.next c (fun w => isOp op w && field w) = none :=
  Device.next_other h (by simp [isOp, ho])

section
variable {d : Device} {c w : Nat} (h : d.AtWord c w)
include h

theorem Device.issueSignal_other (sop : Nat) (ho : wOp w ≠ opSignal) : d.issueSignal c sop = d := by
  simp only [Device.issueSignal, Device.next_not_op_and h ho]

theorem Device.issueWait_other (cond : Nat) (ho : wOp w ≠ opWait) : d.issueWait c cond = d := by
  simp only [Device.issueWait, Device.next_not_op_and h ho]

end

/-- Settles O10: each command asks for its own kind of word, and the word in front is of another. -/
theorem otherWordsWait : Obligations.OtherWordsWait := by
  intro s c w h
  refine ⟨fun ho => ?nop, fun ho => ?heat, fun ho => ?pass, fun ho => ?drain, fun ho => ?abort, fun ho => ?full, fun ho => ?vec,
    fun ho => ?xfer, fun ho => ⟨?send, ?add⟩, fun ho => ?epi, fun ho => ?attn, fun ho => ?sample, fun ho => ?window, fun ho => ?bound,
    fun ho => ?signal, fun ho => ?wait⟩
  case nop => exact s.onDev_same (by simp only [opNopWord, Device.next_not_op h ho])
  case heat => exact s.onDev_same (by simp only [opHeatWord, Device.next_not_op h ho])
  case pass => exact s.onPart_same (by simp only [opPassWord, Device.next_not_op h ho])
  case drain => exact s.onDev_same (by simp only [opDrainWord, Device.next_not_op h ho])
  case abort => exact s.onDev_same (by simp only [opAbortWord, Device.next_not_op h ho])
  case full => exact s.onDev_same (by simp only [opFullWord, Device.next_not_op h ho])
  case vec => exact s.onDev_same (by simp only [opVecWord, Device.next_not_op h ho])
  case xfer => exact s.onPart_same (by simp only [opXferWord, Device.next_not_op h ho])
  case send => exact s.onDev_same (by simp only [opTreeSend, Device.next_not_op_and h ho])
  case add => exact s.onDev_same (by simp only [opTreeAdd, Device.next_not_op_and h ho])
  case epi => exact s.onDev_same (by simp only [opEpiWord, Device.next_not_op h ho])
  case attn => exact s.onDev_same (by simp only [opAttnIssue, Device.next_not_op h ho])
  case sample => exact s.onPart_same (by simp only [opSampleWord, Device.next_not_op h ho])
  case window => exact s.onDev_same (by simp only [opWindowWord, Device.next_not_op h ho])
  case bound => exact s.onDev_same (by simp only [opBoundWord, Device.next_not_op h ho])
  case signal =>
    have other (sop : Nat) := Device.issueSignal_other h sop ho
    exact ⟨s.onDev_same (other 1), s.onDev_same (other 2), s.onDev_same (other 3)⟩
  case wait =>
    have other (cond : Nat) := Device.issueWait_other h cond ho
    exact ⟨s.onDev_same (other 0), s.onDev_same (other 1), s.onDev_same (other 2)⟩

end Sys2Proof.Machine
end

section
/-! SUPPORT. What each kind of plan word does when it issues from the front of its core's stream: the words that occupy no engine, the
words that enter a queue, and SIGNAL words (R185, R188, R191, R194, R196, R199, R202, R241, R282). -/

namespace Sys2Proof.Machine

/-! ### Words that occupy no engine, and queued words (R185, R191, R196, R202, R282) -/

theorem Device.next_op {d : Device} {c w op : Nat} (h : d.AtWord c w) (ho : wOp w = op) :
    d.next c (isOp op) = some (d.wordPtr c, w, d.wordTick c w, d.issued c w) :=
  Device.next_at h (by simp [isOp, ho])

section Words
variable {d : Device} {c w : Nat} (h : d.AtWord c w)
include h

theorem opNopWord_at (ho : wOp w = opNop) : opNopWord c d = d.issued c w := by
  simp only [opNopWord, Device.next_op h ho]

theorem opHeatWord_at (ho : wOp w = opHeat) : opHeatWord c d = d.issued c w := by
  simp only [opHeatWord, Device.next_op h ho]

theorem opBoundWord_at (ho : wOp w = opBound) : opBoundWord c d = (d.issued c w).onCore c (fun x => { x with bound := true }) := by
  simp only [opBoundWord, Device.next_op h ho]

theorem opWindowWord_at (ho : wOp w = opWindow) : opWindowWord c d = ((d.issued c w).onCore c (fun x => { x with
    window := some ⟨d.wordTick c w + 64 * windowUnits w, windowUnits w, 0, 0, 0, d.wordPtr c⟩ })).set (pageSeq c + 0x128) 0 := by
  simp only [opWindowWord, Device.next_op h ho]

theorem opFullWord_at (ho : wOp w = opFull) : opFullWord c d =
    if 5 ≤ ((d.issued c w).core c).fullQ.length then (d.issued c w).dropWord c (d.wordPtr c) (d.wordTick c w) w
    else (d.issued c w).onCore c (fun x => { x with fullQ := x.fullQ ++ [d.queuedWord c w] }) := by
  simp only [opFullWord, Device.next_op h ho, queueFull, decide_eq_true_eq]
  rfl

theorem opVecWord_at (ho : wOp w = opVec) : opVecWord c d =
    if 5 ≤ ((d.issued c w).core c).vecQ.length then (d.issued c w).dropWord c (d.wordPtr c) (d.wordTick c w) w
    else (d.issued c w).onCore c (fun x => { x with vecQ := x.vecQ ++ [d.queuedWord c w] }) := by
  simp only [opVecWord, Device.next_op h ho, queueFull, decide_eq_true_eq]
  rfl

/-- The word at the head of the queue that may run leaves its place to another (R191). -/
theorem opEpiWord_at (ho : wOp w = opEpi) :
    let x := (d.issued c w).core c
    opEpiWord c d = if (if (x.epiQ.head?.map x.epiReady).getD false then 3 else 2) ≤ x.epiQ.length
      then (d.issued c w).dropWord c (d.wordPtr c) (d.wordTick c w) w
      else (d.issued c w).onCore c (fun x => { x with epiQ := x.epiQ ++ [d.queuedWord c w] }) := by
  simp only [opEpiWord, Device.next_op h ho]
  rfl

theorem opAttnIssue_at (ho : wOp w = opAttn) : opAttnIssue c d = if c % 16 ≠ 0 then d.issued c w
    else if 3 ≤ ((d.issued c w).core c).attnQ.length then (d.issued c w).dropWord c (d.wordPtr c) (d.wordTick c w) w
    else (d.issued c w).onCore c (fun x => { x with attnQ := x.attnQ ++ [{ idx := d.wordPtr c, word := w }] }) := by
  simp only [opAttnIssue, Device.next_op h ho]

/-! ### TREE words (R191, R194) -/

theorem opTreeSend_at (ho : wOp w = opTree) (ha : (treeWord w).add = false) : opTreeSend c d =
    if ((d.issued c w).core c).treeFull then (d.issued c w).dropWord c (d.wordPtr c) (d.wordTick c w) w
    else (d.issued c w).onCore c (fun x => { x with treeQ := x.treeQ ++ [⟨d.wordPtr c, w, none⟩] }) := by
  simp only [opTreeSend, Device.next_at h (wanted := fun w => isOp opTree w && !(treeWord w).add) (by simp [isOp, ho, ha])]

theorem opTreeAdd_full (ho : wOp w = opTree) (ha : (treeWord w).add = true) (hf : ((d.issued c w).core c).treeFull = true) :
    opTreeAdd c d = (d.issued c w).dropWord c (d.wordPtr c) (d.wordTick c w) w := by
  simp only [opTreeAdd, Device.next_at h (wanted := fun w => isOp opTree w && (treeWord w).add) (by simp [isOp, ho, ha]), hf, if_true]

/-- With room, the word enters with the peer's part, if it has arrived; a part that has not is counted. -/
theorem opTreeAdd_room (ho : wOp w = opTree) (ha : (treeWord w).add = true) (hf : ((d.issued c w).core c).treeFull = false)
    {part : Option TreePart} (hp : ((d.issued c w).core c).parts.find? ((d.issued c w).partFor (treeWord w)) = part) :
    let e := (d.issued c w).onCore c (fun x =>
      { x with treeQ := x.treeQ ++ [⟨d.wordPtr c, w, part⟩], parts := dropFirst ((d.issued c w).partFor (treeWord w)) x.parts })
    opTreeAdd c d = if part.isSome then e else (e.count (pageSeq c + 0x124)).seqEvent c 2 stPoisoned opTree (d.wordPtr c) := by
  simp only [opTreeAdd, Device.next_at h (wanted := fun w => isOp opTree w && (treeWord w).add) (by simp [isOp, ho, ha]), hf, hp,
    Bool.false_eq_true, if_false]

end Words

/-- An event of the sequencer writes its EVT and capture words alone. -/
theorem Device.get_seqEvent (d : Device) {c off : Nat} (b status op idx : Nat) (hb : off ≠ pageBrd + 0x108)
    (hp : pageSeq c + 0x40 ≤ off) : (d.seqEvent c b status op idx).get off = d.get off := by
  rw [Device.seqEvent, Device.event, Device.get_capture _ _ hp, Device.get_raise _ _ hb (by omega)]

theorem pageSeq_ne_ibiCnt (c k : Nat) (h : k % 0x1000 ≠ 0x108) : pageSeq c + k ≠ pageBrd + 0x108 := by
  unfold pageSeq coreUnit pageBrd
  omega

/-! ### SIGNAL words (R188, R199, R241, R424) -/

theorem Device.issueSignal_at {d : Device} {c w : Nat} (h : d.AtWord c w) (ho : wOp w = opSignal) :
    let q := signalWord w
    d.issueSignal c q.sop = (d.issued c w).planSignal c (d.wordPtr c) q.node q.obj q.sop q.value q.defer := by
  simp only [Device.issueSignal, Device.next_at h (wanted := fun v => isOp opSignal v && (signalWord v).sop == (signalWord w).sop)
    (by simp [isOp, ho])]

/-- The signal of a SOP with one message goes to the own unit, at once or with the commit, else as a cell. -/
theorem Device.planSignal_message (d : Device) (c idx node obj sop v : Nat) (defer : Bool) {m : SyncMsg}
    (hm : sopMsg sop obj v (d.seqAgent c) = [m]) :
    d.planSignal c idx node obj sop v defer = if node = 0x1FF ∨ node = d.node then
        (if defer then { d with deferred := d.deferred ++ [⟨c / 128, c, idx, m⟩] }
        else { d with sync := { d.sync with inFlight := d.sync.inFlight ++ [m] } })
      else d.cellTo node (.signal obj sop v (d.seqAgent c) defer) := by
  simp only [Device.planSignal, hm]
  rfl

/-- Settles O9: each of the four words issues, and does what its kind does. -/
theorem plainWordsIssue : Obligations.PlainWordsIssue := by
  intro s c w h
  refine ⟨fun ho => ?_, fun ho => ?_, fun ho => ?_, fun ho => ?_⟩
  · exact s.onDev_next (opNopWord_at h ho)
  · exact s.onDev_next (opHeatWord_at h ho)
  · exact s.onDev_next (opBoundWord_at h ho)
  · exact s.onDev_next (opWindowWord_at h ho)

/-- Settles O11: each word enters its queue or is dropped by the depth of that queue. -/
theorem queuedWords : Obligations.QueuedWords := by
  intro s c w h
  have either {f : Device → Device} {a : Prop} [Decidable a] {d e : Device} (hf : f s.part.dev = if a then d else e) :
      s.onDev f = .next (if a then s.withDev d else s.withDev e) :=
    (s.onDev_next hf).trans (congrArg _ (apply_ite s.withDev a d e))
  refine ⟨fun ho => either (opFullWord_at h ho), fun ho => either (opVecWord_at h ho), fun ho => either (opEpiWord_at h ho),
    fun ho hc => ?attn0, fun ho hc => ?attnOther, fun ho ha => either (opTreeSend_at h ho ha),
    fun ho ha hf => s.onDev_next (opTreeAdd_full h ho ha hf), fun ho ha hf p hp => s.onDev_next (opTreeAdd_room h ho ha hf hp),
    fun ho ha hf hp => ⟨_, s.onDev_next (opTreeAdd_room h ho ha hf hp), rfl, ?counted, ?queued⟩⟩
  case attn0 => exact either ((opAttnIssue_at h ho).trans (if_neg (by simp [hc])))
  case attnOther => exact s.onDev_next ((opAttnIssue_at h ho).trans (if_pos hc))
  case counted =>
    exact (Device.get_seqEvent _ _ _ _ _ (pageSeq_ne_ibiCnt _ _ (by decide)) (by omega)).trans (Device.get_count_same ..)
  case queued =>
    simp [State.withDev, Device.seqEvent]

/-- Settles O12: the message of the word's SOP is sent as its NODE and DEFER say. -/
theorem signalWords : Obligations.SignalWords := by
  intro s c w h ho d e q sent
  have send {m : SyncMsg} (hm : sopMsg q.sop q.obj q.value (e.seqAgent c.val) = [m]) :
      s.onDev (·.issueSignal c.val q.sop) = .next (sent m) :=
    s.onDev_next ((Device.issueSignal_at h ho).trans (Device.planSignal_message _ _ _ _ _ _ _ _ hm))
  refine ⟨fun hs => ?_, fun hs => ?_, fun hs => ?_⟩
  all_goals rw [hs] at send; exact send rfl

end Sys2Proof.Machine
end

section
/-! SUPPORT. What a WAIT word sends and holds, what an outcome decides, and what becomes of a word whose guard is undecided at its tick
(R193, R238, R240). -/

namespace Sys2Proof.Machine

/-! ### WAIT words (R193, R238) -/

theorem Device.issueWait_at {d : Device} {c w : Nat} (h : d.AtWord c w) (ho : wOp w = opWait) :
    let q := waitWord w
    let i := d.wordPtr c
    let deadline := d.wordTick c w + q.timeout
    let e := (d.issued c w).onCore c (fun x =>
      { x with guards := x.guards ++ [⟨q.obj, q.cond, q.value, q.consume, deadline, i + 1, i + 1 + q.guard, none⟩] })
    d.issueWait c q.cond = e.sendSignals [.wait q.obj q.cond q.value q.consume (e.seqAgent c) deadline] := by
  simp only [Device.issueWait, Device.next_at h (wanted := fun v => isOp opWait v && (waitWord v).cond == (waitWord w).cond)
    (by simp [isOp, ho])]

/-! ### Outcomes (R240) -/

/-- The guard of the wait that an outcome names stands first. -/
theorem CoreState.guardAt_first {x : CoreState} {o : WaitOutcome} {g : Guard} {gs : List Guard} (h : x.guards = g :: gs)
    (hobj : g.obj = o.obj) (hcond : g.cond = o.cond) (hval : g.value = o.value) (hcons : g.consume = o.consume)
    (hdl : g.deadline = o.deadline) (hmet : g.met = none) : x.guardAt o = some 0 := by
  simp [CoreState.guardAt, h, List.findIdx?_cons, hobj, hcond, hval, hcons, hdl, hmet]

/-- The first outcome in flight, when it is the core's, leaves the flight and decides the first guard. -/
theorem opWaitOutcome_first {d : Device} {c : Nat} {o : WaitOutcome} {l : List WaitOutcome} {g : Guard} {gs : List Guard}
    (ho : d.sync.outcomes = o :: l) (ha : o.agent = d.seqAgent c) (hg : (d.core c).guards = g :: gs)
    (hfirst : (d.core c).guardAt o = some 0) :
    let d1 := d.onSync (fun s => { s with outcomes := l })
    let status := if o.status = stOk ∧ d.guardLate c g = true then stTimeout else o.status
    let e := d1.setCore c { d.core c with guards := { g with met := some (status == stOk) } :: gs }
    opWaitOutcome c d = if status = stOk then e else e.waitExpired c status (g.lo - 1) := by
  have front : (o.agent == d.seqAgent c) = true := by simp [ha]
  have left : d.onSync (fun s => { s with outcomes := dropFirst (fun o => o.agent == d.seqAgent c) s.outcomes }) =
      d.onSync (fun s => { s with outcomes := l }) := by
    simp only [Device.onSync, ho, dropFirst, if_pos front]
  have core : (d.onSync (fun s => { s with outcomes := l })).core c = d.core c := rfl
  simp only [opWaitOutcome, ho, List.find?_cons_of_pos (p := fun o : WaitOutcome => o.agent == d.seqAgent c) front, left, core, hfirst, hg,
    Option.bind_some, List.getElem?_cons_zero, Option.map_some, listModify, listSet]
  rfl

/-! ### A word that leaves only marks (R149, R193) -/

/-- Two devices alike in their registers and in a core's stream: WORD_PTR stands in front of the same word in both. -/
def Device.SameStream (c : Nat) (e d : Device) : Prop := e.regs = d.regs ∧ (e.core c).stream = (d.core c).stream

theorem Device.SameStream.trans {c : Nat} {e f g : Device} (h : e.SameStream c f) (k : f.SameStream c g) : e.SameStream c g :=
  ⟨h.1.trans k.1, h.2.trans k.2⟩

theorem Device.SameStream.wordPtr {c : Nat} {e d : Device} (h : e.SameStream c d) : e.wordPtr c = d.wordPtr c := by
  rw [Device.wordPtr, Device.get, h.1, Device.wordPtr, Device.get]

theorem CoreState.withSlot_stream (x : CoreState) (idx tick : Nat) (found : Bool) (p : PassWord) (st : SlotState) :
    (x.withSlot idx tick found p st).stream = x.stream := by
  unfold CoreState.withSlot
  split <;> rfl

theorem Device.onCore_sameStream (d : Device) (c : Nat) {f : CoreState → CoreState} (hf : (f (d.core c)).stream = (d.core c).stream) :
    (d.onCore c f).SameStream c d :=
  ⟨rfl, by rw [Device.core_onCore_same, hf]⟩

theorem Device.onTile_sameStream (d : Device) (c e : Nat) (f : Tile → Tile) : (d.onTile c e f).SameStream c d := by
  unfold Device.onTile
  split
  · exact d.onCore_sameStream c rfl
  · exact ⟨rfl, rfl⟩

theorem Device.failSlot_sameStream (d : Device) (c idx tick : Nat) (found : Bool) (p : PassWord) (status : Nat) :
    (d.failSlot c idx tick found p status).SameStream c d := by
  have failed := d.onCore_sameStream c (f := fun x => x.withSlot idx tick found p (.failed status)) (CoreState.withSlot_stream ..)
  unfold Device.failSlot
  dsimp only
  split
  · exact (Device.onTile_sameStream _ _ _ _).trans failed
  · exact failed

/-- A word that is not issued marks joins and tiles of its core alone. -/
theorem Device.spoilWord_sameStream (d : Device) (c idx tick w status : Nat) : (d.spoilWord c idx tick w status).SameStream c d := by
  unfold Device.spoilWord
  split
  · exact d.failSlot_sameStream ..
  · exact List.foldlRecOn _ _ (motive := fun e : Device => e.SameStream c d) ⟨rfl, rfl⟩
      (fun e he t _ => (e.onTile_sameStream c t _).trans he)

theorem Device.wordPtr_suppressWord (d : Device) (c idx tick w : Nat) : (d.suppressWord c idx tick w).wordPtr c = d.wordPtr c :=
  (Device.spoilWord_sameStream _ c idx tick w stOk).wordPtr.trans (d.wordPtr_count c 1 (by omega))

theorem Device.suppressWord_stream (d : Device) (c idx tick w : Nat) :
    ((d.suppressWord c idx tick w).core c).stream = (d.core c).stream :=
  (Device.spoilWord_sameStream _ c idx tick w stOk).2

/-- A wait that counts as expired leaves its count and its event, no core's state and no WORD_PTR. -/
@[simp] theorem Device.waitExpired_core (d : Device) (c status idx c' : Nat) : (d.waitExpired c status idx).core c' = d.core c' := by
  rw [Device.waitExpired, Device.seqEvent, Device.event_core, Device.count_core]

theorem Device.wordPtr_waitExpired (d : Device) (c status idx : Nat) : (d.waitExpired c status idx).wordPtr c = d.wordPtr c := by
  rw [Device.wordPtr, Device.waitExpired, Device.get_seqEvent _ _ _ _ _ (pageSeq_ne_ibiCnt _ _ (by decide)) (by omega)]
  exact d.wordPtr_count c 1 (by omega)

/-! ### A guard undecided at its word's tick (R193) -/

theorem CoreState.nextIn_here {x : CoreState} {cls i w : Nat} (h : x.stream[i]? = some w) (hc : inClass w cls = true) (n : Nat) :
    x.nextIn cls n i = i := by
  cases n with
  | zero => rfl
  | succ n => simp only [CoreState.nextIn, h, if_pos hc]

/-- At the end of its stream the sequencer goes no further. -/
theorem Device.advance_end {d : Device} {c : Nat} (h : (d.core c).stream[d.wordPtr c]? = none) (n : Nat) : Device.advance c n d = d := by
  cases n with
  | zero => rfl
  | succ n => simp only [Device.advance, h]

section Guarded
variable {d : Device} {c w : Nat} {g : Guard} (hg : (d.core c).guards = [g]) (hmet : g.met = none) (hlo : g.lo ≤ d.wordPtr c)
  (hhi : d.wordPtr c < g.hi)
include hg hlo hhi

theorem Device.guardsOf_one : (d.core c).guardsOf (d.wordPtr c) = [g] := by
  simp [CoreState.guardsOf, hg, hlo, hhi]

include hmet

/-- The one guard that holds the word expires, and its wait with it. -/
theorem Device.expireGuards_one : d.expireGuards c (d.wordPtr c) =
    (d.onCore c (fun x => { x with guards := [g.expire] })).waitExpired c stTimeout (g.lo - 1) := by
  simp [Device.expireGuards, Device.guardsOf_one hg hlo hhi, hmet, Device.onCore, hg]

/-- Its word is suppressed, and WORD_PTR goes past it. -/
theorem Device.advance_suppressed (hw : (d.core c).stream[d.wordPtr c]? = some w) (hp : d.wordPtr c ∉ (d.core c).poisoned)
    (hc : inClass w (d.cls c) = true) (hn : wordNamed w = true) (n : Nat) :
    Device.advance c (n + 1) d = Device.advance c n
      ((((d.onCore c (fun x => { x with guards := [g.expire] })).waitExpired c stTimeout (g.lo - 1)).suppressWord c (d.wordPtr c)
        (d.wordTick c w) w).bump c) := by
  have expired : ((d.expireGuards c (d.wordPtr c)).core c).guardsOf (d.wordPtr c) = [g.expire] := by
    rw [Device.expireGuards_one hg hmet hlo hhi, Device.waitExpired_core, Device.core_onCore_same]
    simp [CoreState.guardsOf, Guard.expire, hlo, hhi]
  rw [← Device.expireGuards_one hg hmet hlo hhi]
  simp [Device.advance, hw, hp, hc, hn, expired, Guard.expire, Device.wordTick]

end Guarded

/-- The last word of a stream, held by one undecided guard, is suppressed at its tick, and WORD_PTR stands behind it. -/
theorem opGuardDeadline_last {d : Device} {c w : Nat} {g : Guard} (hw : (d.core c).stream[d.wordPtr c]? = some w)
    (hlt : d.wordPtr c + 1 < 8192) (hend : (d.core c).stream[d.wordPtr c + 1]? = none) (hp : d.wordPtr c ∉ (d.core c).poisoned)
    (hc : inClass w (d.cls c) = true) (hn : wordNamed w = true) (hi : d.issues c w = true) (hg : (d.core c).guards = [g])
    (hmet : g.met = none) (hlo : g.lo ≤ d.wordPtr c) (hhi : d.wordPtr c < g.hi) :
    opGuardDeadline c d = (((((d.reach (d.wordTick c w)).onCore c (fun x => { x with guards := [g.expire] })).waitExpired c stTimeout
      (g.lo - 1)).suppressWord c (d.wordPtr c) (d.wordTick c w) w).bump c) := by
  have reached : opGuardDeadline c d = Device.advance c (8191 + 1) (d.reach (d.wordTick c w)) := by
    simp only [opGuardDeadline, CoreState.nextIn_here hw hc, hw, hi, Device.guardsOf_one hg hlo hhi, List.any_cons, hmet,
      Option.isNone_none, Bool.true_or, Bool.and_self, if_true]
    rfl
  rw [reached, Device.advance_suppressed (d := d.reach (d.wordTick c w)) hg hmet hlo hhi hw hp hc hn 8191]
  refine Device.advance_end ?_ 8191
  have pointer : ∀ e : Device, e.wordPtr c = d.wordPtr c → (e.bump c).wordPtr c = d.wordPtr c + 1 :=
    fun e he => by rw [Device.wordPtr_bump e c (by omega), he]
  rw [pointer _ (by rw [Device.wordPtr_suppressWord, Device.wordPtr_waitExpired]; rfl)]
  have stream : ∀ e : Device, (e.bump c).core c = e.core c := fun _ => rfl
  rw [stream, Device.suppressWord_stream, Device.waitExpired_core, Device.core_onCore_same]
  exact hend

/-- Settles O13: a wait is sent and holds its words, an outcome decides its guard, and the tick of the word decides what is left. -/
theorem waitsAndGuards : Obligations.WaitsAndGuards := by
  refine ⟨fun s c w h ho => ?wait, fun s c o l g gs => ?outcome, fun s c w g => ?deadline⟩
  case wait =>
    intro d e q i deadline e1 held
    have hold : s.onDev (·.issueWait c.val q.cond) = .next held := s.onDev_next (Device.issueWait_at h ho)
    refine ⟨fun hq => ?_, fun hq => ?_, fun hq => ?_⟩
    all_goals rw [hq] at hold; exact hold
  case outcome =>
    intro d ho ha hg hobj hcond hval hcons hdl hmet
    exact s.onDev_next (opWaitOutcome_first ho ha hg (CoreState.guardAt_first hg hobj hcond hval hcons hdl hmet))
  case deadline =>
    intro d i hw hlt hend hp hc hn hi hg hmet hlo hhi
    exact s.onDev_next (opGuardDeadline_last hw hlt hend hp hc hn hi hg hmet hlo hhi)

end Sys2Proof.Machine
end

section
/-! SUPPORT. What a walk, a retried walk, a SAMPLE word and a reheat do in each of their cases (R191, R202, R203, R211, R216, R282, R297,
R334). -/

namespace Sys2Proof.Machine

/-! ### Walks (R211, R216, R282, R297) -/

section Walk
variable {p : Part} {k : Nat} {errors : EccFaults} {op : AttnOp} {l : List AttnOp}

/-- A maintenance heat walks no slot. -/
theorem opWalk_maintenance (h : ((p.onMem (·.arise errors)).dev.core (clusterCore k)).attnQ = op :: l) (hk : p.dev.heat.kind = 1) :
    opWalk k errors p = (p.onMem (·.arise errors)).onDev (·.setAttn k l) := by
  simp only [opWalk, h]
  exact if_pos hk

theorem opWalk_done (h : ((p.onMem (·.arise errors)).dev.core (clusterCore k)).attnQ = op :: l) (hk : p.dev.heat.kind ≠ 1)
    (he : (p.onMem (·.arise errors)).liveEntries (clusterDie k) (attnWord op.word) op.done = []) :
    opWalk k errors p = (p.onMem (·.arise errors)).onDev (·.setAttn k l) := by
  simp only [opWalk, h, he]
  exact if_neg hk

theorem opWalk_live {e : Nat} {es : List Nat} (h : ((p.onMem (·.arise errors)).dev.core (clusterCore k)).attnQ = op :: l)
    (hk : p.dev.heat.kind ≠ 1) (he : (p.onMem (·.arise errors)).liveEntries (clusterDie k) (attnWord op.word) op.done = e :: es) :
    let r := (p.onMem (·.arise errors)).walkEntry k op e
    opWalk k errors p = r.1.settleWord k r.2 l := by
  simp only [opWalk, h, he]
  exact if_neg hk

variable {r : WalkRetry} {rs : List WalkRetry} (hr : (p.dev.core (clusterCore k)).retries = r :: rs)
include hr

theorem opWalkRetry_window {w : Window} (hw : (p.dev.core (clusterCore k)).window = some w) :
    opWalkRetry k p = (p.onDev (·.onCore (clusterCore k) (fun x => { x with retries := rs }))).retryWalk k r
      (w.endTick - p.dev.tick (clusterDie k)) := by
  simp only [opWalkRetry, hr, hw]

/-- A heat that has no window ends the retry behind its BOUND word. -/
theorem opWalkRetry_no_window (hw : (p.dev.core (clusterCore k)).window = none) :
    opWalkRetry k p = if (p.dev.core (clusterCore k)).bound then
        (p.onDev (·.onCore (clusterCore k) (fun x => { x with retries := rs }))).endWalk (p.walkJob k r.word r.entry) stListChanged 0
      else p := by
  simp only [opWalkRetry, hr, hw]

end Walk

/-! ### SAMPLE words (R191, R216, R334) -/

section Sample
variable {p : Part} {c w : Nat} (h : p.dev.AtWord c w) (ho : wOp w = opSample)
include h ho

theorem opSampleWord_idle (hi : c % 16 ≠ 0 ∨ (p.dev.issued c w).heat.kind = 1) :
    opSampleWord c p = { p with dev := p.dev.issued c w } := by
  simp only [opSampleWord, Device.next_op h ho]
  exact if_pos hi

/-- Core 0 of a cluster samples the rows of its word's entries, unless the sampler's queue is full. -/
theorem opSampleWord_rows (hc : c % 16 = 0) (hk : (p.dev.issued c w).heat.kind ≠ 1) :
    let p1 : Part := { p with dev := p.dev.issued c w }
    let x := sampleWord w
    let rows := sampledEntries 0 ((((List.range x.count).map (x.first + ·)).filter (· < 4096)).map (p1.slotNow (c / 128)))
    let tick := p.dev.wordTick c w
    let taken := (p1.dev.core c).takeSample tick (p1.sampleTicks rows)
    (∀ y, taken = some y →
      opSampleWord c p = rows.foldl (fun p e => p.sampleSlot c (c / 128) x e.1 e.2) { p1 with dev := p1.dev.setCore c y }) ∧
    (taken = none → opSampleWord c p = { p1 with dev := p1.dev.dropWord c (p.dev.wordPtr c) tick w }) := by
  have works : ¬(c % 16 ≠ 0 ∨ (p.dev.issued c w).heat.kind = 1) := by simp [hc, hk]
  intro p1 x rows tick taken
  have sampled : opSampleWord c p = match taken with
      | none => { p1 with dev := p1.dev.dropWord c (p.dev.wordPtr c) tick w }
      | some y => rows.foldl (fun p e => p.sampleSlot c (c / 128) x e.1 e.2) { p1 with dev := p1.dev.setCore c y } := by
    simp only [opSampleWord, Device.next_op h ho]
    exact if_neg works
  exact ⟨fun y hy => by rw [sampled, hy], fun hn => by rw [sampled, hn]⟩

end Sample

/-! ### Reheats (R202, R203) -/

section Reheat
variable {p : Part} {c e : Nat} {t : Tile} {l : List (Nat × Tile)} {w : Window} (hw : (p.dev.core c).window = some w)
  (he : (p.dev.core c).eligible = (e, t) :: l)
include hw he

theorem opReheat_formless (hf : p.dev.formOf p.mem c e t = none) :
    opReheat c p = p.onDev (fun d => (d.unmend c e w.idx opWindow).onWindow c Window.miss) := by
  simp only [opReheat, hw, he, hf]

variable {form : Form} (hf : p.dev.formOf p.mem c e t = some form)
include hf

theorem opReheat_costly (hc : w.left < reheatCost (p.dev.level c) (joinsOf (p.dev.wordsOf c e t)).length t.shape t.split form) :
    opReheat c p = p.onDev (fun d => (d.unmend c e w.idx opWindow).onWindow c Window.miss) := by
  simp only [opReheat, hw, he, hf, if_neg (Nat.not_le.mpr hc)]

/-- A form whose cost fits is read without codeword errors, and the tile reheated. -/
theorem opReheat_fits (hm : p.mem.ecc = [])
    (hc : reheatCost (p.dev.level c) (joinsOf (p.dev.wordsOf c e t)).length t.shape t.split form ≤ w.left) :
    opReheat c p = p.onDev (fun d => ((d.reheatTile p.mem c e t form).count (pageNum (c / 128) + 0x118)).onWindow c
      (fun w => w.spend (reheatCost (p.dev.level c) (joinsOf (p.dev.wordsOf c e t)).length t.shape t.split form))) := by
  simp only [opReheat, hw, he, hf, if_pos hc, Part.touchInputs_clean hm, Part.touchBillet_clean hm]
  split <;> rfl

end Reheat

/-- Settles O35: each command is its operation on the module, whose cases are the lemmas above. -/
theorem walksSamplesAndReheats : Obligations.WalksSamplesAndReheats := by
  refine ⟨fun s k errors op l => ?walk, fun s k r l => ?retry, fun s c w h ho => ?sample, fun s c w e t l => ?reheat⟩
  case walk =>
    intro p h
    exact ⟨fun hk => s.onPart_next (opWalk_maintenance h hk), fun hk he => s.onPart_next (opWalk_done h hk he),
      fun hk e es he => s.onPart_next (opWalk_live h hk he)⟩
  case retry =>
    intro c x p hr
    refine ⟨fun w hw => s.onPart_next (opWalkRetry_window hr hw), fun hw hb => ?ends, fun hw hb => ?waits⟩
    case ends => exact s.onPart_next ((opWalkRetry_no_window hr hw).trans (if_pos hb))
    case waits => exact s.onPart_same ((opWalkRetry_no_window hr hw).trans (if_neg (Bool.eq_false_iff.mp hb)))
  case sample =>
    intro p x entries
    refine ⟨fun hi => s.onPart_next (opSampleWord_idle h ho hi), fun hc hk => ?_⟩
    obtain ⟨taken, full⟩ := opSampleWord_rows h ho hc hk
    exact ⟨fun y hy => s.onPart_next (taken y hy), fun hn => s.onPart_next (full hn)⟩
  case reheat =>
    intro d m hw he hm missed
    exact ⟨fun hf => s.onPart_next (opReheat_formless hw he hf), fun form hf =>
      ⟨fun hc => s.onPart_next (opReheat_costly hw he hf hc), fun hc => s.onPart_next (opReheat_fits hw he hf hm hc)⟩⟩

end Sys2Proof.Machine
end

section
/-! SUPPORT. What a cell of the sync unit or of the heat boundary does when it is for this module, and when it is not (R197, R201, R236,
R243, R424). -/

namespace Sys2Proof.Machine

/-- A fault cell whose EVT names no group reset declares the domain's fault at the root (R201). -/
theorem exec_faultCell_domain (s : State) (p : Port) (f : MeshHdr) {node : Node} {evt : BitVec 16} (he : evt.toNat ≠ 0xFFFF) :
    exec (.faultCell p f node evt) s = s.onDev (fun d => d.onFrame p.val f (.fault node.toNat evt.toNat)
      (fun d => if d.isRoot then d.declareFault stOk node.toNat else d)) := by
  have frame : opFaultCell p.val f node.toNat evt.toNat s.part =
      s.part.onDev (fun d => d.onFrame p.val f (.fault node.toNat evt.toNat) (·.faultCell node.toNat)) := if_neg he
  exact s.onPart_next frame

/-- Settles O37: each cell is a frame, which acts only when it is for this module. -/
theorem cellsActOnThisModule : Obligations.CellsActOnThisModule := by
  intro s p f acts
  have frame (i : Instr) {c : Cell} {act : Device → Device} (hi : exec i s = s.onDev (fun d => d.onFrame p.val f c act)) :
      acts i c act :=
    ⟨fun mine => hi.trans (s.onDev_next (Device.onFrame_mine act mine)),
      fun other => hi.trans (s.onDev_next (Device.onFrame_other act other))⟩
  have faulted (node : Node) (evt : BitVec 16) (he : evt.toNat ≠ 0xFFFF) :=
    frame (.faultCell p f node evt) (exec_faultCell_domain s p f he)
  exact ⟨fun obj sop value agent => ⟨frame (.signalCell p f obj sop false value agent) rfl,
      frame (.signalCell p f obj sop true value agent) rfl⟩,
    fun obj agent => frame (.barArriveCell p f obj agent) rfl,
    fun obj => ⟨frame (.barReleaseCell p f obj) rfl, frame (.barFaultCell p f obj) rfl⟩,
    fun num replay fault marks level cls missing => frame (.heatArriveCell p f num replay fault marks level cls missing) rfl,
    fun num start level replay fault classes => frame (.heatReleaseCell p f num start level replay fault classes) rfl, faulted⟩

end Sys2Proof.Machine
end

section
/-! SUPPORT. A die that has sent admission notes arrives no earlier than ADMIT_LEAD ticks after them (R330; log entry 60), so its arrival
may take the clock forward. -/

namespace Sys2Proof.Machine

/-- A heat runs, every core of die 0 has issued its BOUND word, and the die has proposed its class and sent an admission note at tick 0,
where the clock still stands. ADMIT_LEAD holds its reset value of 200,000 ticks. -/
def notedDie : State := State.reset.withDev
  (((({ State.reset.part.dev with cores := (List.range 128).map (fun c => (c, { bound := true })) } : Device).setHeatState 2).onHeat
    (fun h => { h with proposals := [(0, 0)] })).onDie 0 (fun y => { y with noted := some 0 }))

theorem notedDie_ready : notedDie.part.dev.dieReady 0 = true := by decide +kernel

/-- Its arrival takes the clock to tick 200,000; an arrival without the wait, as the statement has it, leaves it at 0. -/
theorem opDieArrive_notedDie_tick : (opDieArrive 0 notedDie.part).dev.tick 4 = 200000 := by decide +kernel

theorem arrival_in_place_notedDie_tick :
    ((if notedDie.part.dev.replaying then notedDie.part else notedDie.part.lateSlots 0).onDev (·.dieArrive 0)).dev.tick 4 = 0 := by
  decide +kernel

/-- Refutes O32: its clause on DIE_ARRIVE leaves the clock where it stands, but a die that is ready and has sent admission notes arrives
ADMIT_LEAD ticks after them: `notedDie`, ready at tick 0, arrives at tick 200,000. -/
theorem not_heatBoundary : ¬ Obligations.HeatBoundary := by
  intro h
  obtain ⟨-, arrives, -⟩ := h
  have arrived := (arrives notedDie 0).trans (congrArg Host.Outcome.next (if_pos notedDie_ready))
  have clock := congrArg (·.part.dev.tick 4) (Host.Outcome.next.inj arrived)
  have still : 200000 = 0 := opDieArrive_notedDie_tick.symm.trans (clock.trans arrival_in_place_notedDie_tick)
  exact absurd still (by decide)

end Sys2Proof.Machine
end

section
/-! SUPPORT. What the operations of the sync unit leave of its objects, its waiters, the registers and the clock, and the words of the
sync page that an event writes (R224, R263 to R265). -/

namespace Sys2Proof.Machine

/-! ### Objects (R224) -/

theorem Device.obj_congr {d e : Device} (h : e.sync.objs = d.sync.objs) (k : Nat) : e.obj k = d.obj k := congrArg (smapFind · k) h

section Objects
variable (d : Device) (o k : Nat) (x : SyncObj)

@[simp] theorem Device.obj_setObj_same : (d.setObj o x).obj o = some x := smapFind_set_same _ _ _
theorem Device.obj_setObj_other (h : k ≠ o) : (d.setObj o x).obj k = d.obj k := smapFind_set_other _ _ h
@[simp] theorem Device.obj_set (off v : Nat) : (d.set off v).obj k = d.obj k := rfl
@[simp] theorem Device.obj_count (off n : Nat) : (d.count off n).obj k = d.obj k := rfl
@[simp] theorem Device.obj_arrived (m : SyncMsg) : (d.arrived m).obj k = d.obj k := rfl
@[simp] theorem Device.setObj_waiters : (d.setObj o x).sync.waiters = d.sync.waiters := rfl
@[simp] theorem Device.setObj_get (off : Nat) : (d.setObj o x).get off = d.get off := rfl
@[simp] theorem Device.setObj_tick (p : Nat) : (d.setObj o x).tick p = d.tick p := rfl

end Objects

/-! ### Outcomes and posts (R240, R264, R511) -/

/-- A wake that begins changes the power control alone. -/
theorem Device.wakeDies_power (l : List Nat) (d : Device) : ∃ p, l.foldl (fun d i => d.wakeDie i) d = { d with power := p } := by
  induction l generalizing d with
  | nil => exact ⟨d.power, rfl⟩
  | cons i l ih =>
    have one : ∃ p, d.wakeDie i = { d with power := p } := by
      rw [Device.wakeDie]
      split
      · exact ⟨_, rfl⟩
      · exact ⟨d.power, rfl⟩
    obtain ⟨p, hp⟩ := one
    obtain ⟨q, hq⟩ := ih (d.wakeDie i)
    exact ⟨q, by rw [List.foldl_cons, hq, hp]⟩

section Posts
variable (d : Device) (o mask : Nat)

/-- A post grows the notify queues and wakes their dies, and does nothing else. -/
theorem Device.postNotify_only : ∃ p l, d.postNotify o mask = { d with power := p, sync := { d.sync with notify := l } } := by
  obtain ⟨p, hp⟩ := Device.wakeDies_power ((List.range 4).filter (fun i => bit mask i)) d
  exact ⟨p, _, by simp only [Device.postNotify, hp]; rfl⟩

@[simp] theorem Device.postNotify_objs : (d.postNotify o mask).sync.objs = d.sync.objs := by
  obtain ⟨_, _, h⟩ := d.postNotify_only o mask
  rw [h]
@[simp] theorem Device.postNotify_waiters : (d.postNotify o mask).sync.waiters = d.sync.waiters := by
  obtain ⟨_, _, h⟩ := d.postNotify_only o mask
  rw [h]
@[simp] theorem Device.postNotify_outcomes : (d.postNotify o mask).sync.outcomes = d.sync.outcomes := by
  obtain ⟨_, _, h⟩ := d.postNotify_only o mask
  rw [h]
@[simp] theorem Device.postNotify_get (off : Nat) : (d.postNotify o mask).get off = d.get off := by
  obtain ⟨_, _, h⟩ := d.postNotify_only o mask
  rw [h]; rfl
@[simp] theorem Device.postNotify_tick (p : Nat) : (d.postNotify o mask).tick p = d.tick p := by
  obtain ⟨_, _, h⟩ := d.postNotify_only o mask
  rw [h]; rfl
@[simp] theorem Device.postNotify_obj (k : Nat) : (d.postNotify o mask).obj k = d.obj k := Device.obj_congr (d.postNotify_objs o mask) k

end Posts

/-! ### Events of the sync page (R265) -/

section Events
variable (d : Device) {page off : Nat}

theorem Device.get_setWords_below {first : Nat} {l : List Nat} (h : off < first) : (d.setWords first l).get off = d.get off := by
  induction l generalizing d first with
  | nil => rfl
  | cons w l ih => rw [Device.setWords, ih _ (by omega), Device.get_set_other _ _ (by omega)]

/-- A capture leaves the words of its page before ERR_CTL. -/
theorem Device.get_capture_below (words : List Nat) (h : off < page + 0x1C) : (d.capture page words).get off = d.get off := by
  simp only [Device.capture, apply_ite (Device.get · off), Device.get_set_other _ _ (show off ≠ page + 0x1C by omega),
    Device.get_setWords_below _ (show off < page + 0x20 by omega), ite_self]

/-- An event stands in its page's EVT register (R539). -/
theorem Device.bit_raise_one (h : page + 0x10 ≠ pageBrd + 0x108) : bit ((d.raise page 1).get (page + 0x10)) 1 = true := by
  by_cases set : bit (d.get (page + 0x10)) 1 = true
  · rw [Device.raise, if_pos set, set]
  · have raised : bit ((d.get (page + 0x10) + 2 ^ 1) % 2 ^ 32) 1 = true := by
      simp only [bit, Nat.shiftRight_eq_div_pow, beq_iff_eq] at set ⊢
      omega
    rw [Device.raise, if_neg set]
    simp only [apply_ite (Device.get · (page + 0x10)), Device.get_notifyEvent _ _ h, Device.get_set_same, ite_self, raised]

@[simp] theorem Device.syncEvent_sync (b status o agent arg : Nat) : (d.syncEvent b status o agent arg).sync = d.sync :=
  Device.event_sync _ _ _ _ _

@[simp] theorem Device.syncEvent_obj (b status o agent arg k : Nat) : (d.syncEvent b status o agent arg).obj k = d.obj k := by
  simp only [Device.obj, Device.syncEvent_sync]

@[simp] theorem Device.syncEvent_tick (b status o agent arg p : Nat) : (d.syncEvent b status o agent arg).tick p = d.tick p :=
  Device.event_tick _ _ _ _ _ _

/-- The words behind ERR_CAPTURE stay as an event leaves them. -/
theorem Device.get_event (b word0 : Nat) (rest : List Nat) (hb : off ≠ pageBrd + 0x108) (hp : page + 0x40 ≤ off) :
    (d.event page b word0 rest).get off = d.get off := by
  rw [Device.event, Device.get_capture _ _ hp, Device.get_raise _ _ hb (by omega)]

theorem Device.get_syncEvent (b status o agent arg : Nat) (hb : off ≠ pageBrd + 0x108) (hp : pageSync + 0x40 ≤ off) :
    (d.syncEvent b status o agent arg).get off = d.get off := d.get_event _ _ _ hb hp

end Events

end Sys2Proof.Machine
end

section
/-! SUPPORT. What a signal leaves of a counter or flag that no wait holds (R226 to R228, R231). -/

namespace Sys2Proof.Machine

/-! ### Waiters served (R229) -/

/-- The waiters of other objects stay as they stand. -/
theorem Device.serve_free {d : Device} {o : Nat} (h : ∀ w ∈ d.sync.waiters, w.obj ≠ o) : d.serve o = d := by
  have kept : ∀ l : List Waiter, (∀ w ∈ l, w.obj ≠ o) → Device.serveList o l d = (l, d) := by
    intro l
    induction l with
    | nil => exact fun _ => rfl
    | cons w l ih =>
      intro other
      obtain ⟨hw, hl⟩ := List.forall_mem_cons.mp other
      simp [Device.serveList, hw, ih hl]
  rw [Device.serve, kept _ h]
  rfl

/-! ### A signal on its object (R226, R263) -/

/-- What a signal of an agent to an object leaves: its value, OVERRUN set where it overran, its source and tick, the counts, and every
other object and the waiters as they were. -/
structure Device.Signalled (d : Device) (o agent : Nat) (x : SyncObj) (v : ObjVal) (lost : Bool) (e : Device) : Prop where
  waiters : e.sync.waiters = d.sync.waiters
  obj : e.obj o = some { x with val := v, overrun := x.overrun || lost, lastSig := some (agent, d.tick 4) }
  other : ∀ k, k ≠ o → e.obj k = d.obj k
  signals : e.get (pageSync + 0x110) = satAdd (d.get (pageSync + 0x110)) 1
  overruns : e.get (pageSync + 0x11C) = if lost then satAdd (d.get (pageSync + 0x11C)) 1 else d.get (pageSync + 0x11C)
  event : lost = true → bit (e.get (pageSync + 0x10)) 1 = true

section Signalled
variable {d e : Device} {o agent : Nat} {x : SyncObj} {v : ObjVal} {lost : Bool}

theorem Device.signalled_signalled : d.Signalled o agent x x.val false (d.signalled o agent x) where
  waiters := rfl
  obj := by simp [Device.signalled]
  other k h := Device.obj_setObj_other _ _ _ _ h
  signals := Device.get_count_same _ _ _
  overruns := Device.get_count_other _ _ (by decide)
  event := nofun

/-- An overrun after the signal sets the sticky bit, counts, and raises its event. -/
theorem Device.Signalled.overrun (h : d.Signalled o agent x v false e) (arg : Nat) :
    d.Signalled o agent x v true (e.overrun o agent arg) := by
  simp only [Device.overrun, h.obj]
  exact {
    waiters := by simp [h.waiters]
    obj := by simp
    other := fun k hk => by simp [Device.obj_setObj_other _ _ _ _ hk, h.other k hk]
    signals := by
      rw [Device.get_syncEvent _ _ _ _ _ _ (by decide) (by decide), Device.get_count_other _ _ (by decide), Device.setObj_get, h.signals]
    overruns := by
      rw [Device.get_syncEvent _ _ _ _ _ _ (by decide) (by decide), Device.get_count_same, Device.setObj_get, h.overruns]
      rfl
    event := fun _ => by
      rw [Device.syncEvent, Device.event, Device.get_capture_below _ _ (by decide), Device.bit_raise_one _ (by decide)] }

/-- The value that follows is posted, and no wait of the object is there to be served. -/
theorem Device.Signalled.changed (h : d.Signalled o agent x v lost e) (free : ∀ w ∈ d.sync.waiters, w.obj ≠ o) (v' : ObjVal) :
    d.Signalled o agent x v' lost (e.changed o v') := by
  simp only [Device.changed, h.obj]
  rw [Device.serve_free (by simpa [h.waiters] using free)]
  exact {
    waiters := by simp [h.waiters]
    obj := by simp
    other := fun k hk => by simp [Device.obj_setObj_other _ _ _ _ hk, h.other k hk]
    signals := by simp [h.signals]
    overruns := by simp [h.overruns]
    event := fun ho => by simp [h.event ho] }

/-- OP_STAT is another word (R264). -/
theorem Device.Signalled.opDone (h : d.Signalled o agent x v lost e) (status : Nat) : d.Signalled o agent x v lost (e.opDone status) where
  waiters := h.waiters
  obj := h.obj
  other := h.other
  signals := (Device.get_set_other _ _ (by decide)).trans h.signals
  overruns := (Device.get_set_other _ _ (by decide)).trans h.overruns
  event ho := (congrArg (bit · 1) (Device.get_set_other _ _ (by decide))).trans (h.event ho)

/-- The arrival of its message changes nothing that a signal reads. -/
theorem Device.Signalled.of_arrived {m : SyncMsg} (h : (d.arrived m).Signalled o agent x v lost e) : d.Signalled o agent x v lost e :=
  ⟨h.waiters, h.obj, h.other, h.signals, h.overruns, h.event⟩

end Signalled

/-- OP_STAT shows DONE and the status. -/
theorem Device.opDone_opStat (d : Device) {status : Nat} (h : status < 2 ^ 8) :
    (d.opDone status).get (pageSync + 0x150) = 2 ^ 31 + status :=
  (Device.get_set_same _ _ _).trans (Nat.mod_eq_of_lt (by omega))

section Signals
variable {d : Device} {o agent : Nat} {x : SyncObj} (ho : d.obj o = some x) (free : ∀ w ∈ d.sync.waiters, w.obj ≠ o)
include ho free

/-- An add on a counter saturates (R228, R230). -/
theorem Device.syncAdd_counter {old v : Nat} (hv : x.val = .counter old) :
    let above := decide (0xFFFFFFFF < old + v)
    (d.syncAdd o v agent).1 = (if above then stOverrun else stOk) ∧
      d.Signalled o agent x (.counter (Nat.min (old + v) 0xFFFFFFFF)) above (d.syncAdd o v agent).2 := by
  intro above
  have counted : d.Signalled o agent x x.val above
      (if above then (d.signalled o agent x).overrun o agent v else d.signalled o agent x) := by
    cases above
    · exact Device.signalled_signalled
    · exact Device.signalled_signalled.overrun v
  simp only [Device.syncAdd, ho, hv]
  refine ⟨rfl, ?_⟩
  split
  next same => rw [same, ← hv]; exact counted
  next => exact counted.changed free _

/-- A set of a flag makes it 1, and overruns where it was (R231). -/
theorem Device.syncSetFlag_flag {on : Bool} (hv : x.val = .flag on) :
    (d.syncSetFlag o agent).1 = (if on then stOverrun else stOk) ∧
      d.Signalled o agent x (.flag true) on (d.syncSetFlag o agent).2 := by
  simp only [Device.syncSetFlag, ho, hv]
  cases on with
  | false => exact ⟨rfl, Device.signalled_signalled.changed free _⟩
  | true =>
    refine ⟨rfl, ?_⟩
    have set : d.Signalled o agent x x.val true ((d.signalled o agent x).overrun o agent 0) := Device.signalled_signalled.overrun 0
    rwa [hv] at set

end Signals

/-- Settles O24: the add signals its counter, with OVERRUN where the sum is above the greatest value. -/
theorem counterAddSaturates : Obligations.CounterAddSaturates := by
  intro s o v agent x old d ho hv _ free above after
  have afterOf {e : Device} (h : d.Signalled o.val agent.toNat x (.counter (Nat.min (old + v.toNat) 0xFFFFFFFF)) above e) :
      after (s.withDev e) := ⟨rfl, h.waiters, h.obj, h.other, h.signals, h.overruns, h.event⟩
  refine ⟨⟨_, rfl, afterOf ?signal⟩, fun hp hobj harg => ⟨_, s.onDev_written hp rfl, ?command⟩⟩
  case signal => exact (Device.syncAdd_counter (d := d.arrived _) ho free hv).2.of_arrived
  case command =>
    obtain ⟨status, added⟩ := Device.syncAdd_counter (agent := agent.toNat) (v := v.toNat) ho free hv
    rw [opAdd, hobj, harg, status]
    refine ⟨afterOf (added.opDone _), Device.opDone_opStat _ ?_⟩
    split <;> decide

/-- Settles O25: the set signals its flag, with OVERRUN where the flag was 1. -/
theorem flagSetOnce : Obligations.FlagSetOnce := by
  intro s o agent x on d ho hv free after
  have afterOf {e : Device} (h : d.Signalled o.val agent.toNat x (.flag true) on e) :
      after (s.withDev e) := ⟨rfl, h.waiters, h.obj, h.other, h.overruns, h.event⟩
  refine ⟨⟨_, rfl, afterOf ?signal⟩, fun hp hobj => ⟨_, s.onDev_written hp rfl, ?command⟩⟩
  case signal => exact (Device.syncSetFlag_flag (d := d.arrived _) ho free hv).2.of_arrived
  case command =>
    obtain ⟨status, set⟩ := Device.syncSetFlag_flag (agent := agent.toNat) ho free hv
    rw [opSet, hobj, status]
    refine ⟨afterOf (set.opDone _), Device.opDone_opStat _ ?_⟩
    split <;> decide

end Sys2Proof.Machine
end

section
/-! SUPPORT. What waits take from their object, and that OVERRUN outlives them (R229, R231, R232, R238 to R240). -/

namespace Sys2Proof.Machine

/-! ### Outcomes (R227, R240) -/

section Outcomes
variable (d : Device) (w : Waiter) (status o agent arg : Nat)

@[simp] theorem Device.outcome_objs : (d.outcome w status).sync.objs = d.sync.objs := rfl
@[simp] theorem Device.outcome_waiters : (d.outcome w status).sync.waiters = d.sync.waiters := rfl
@[simp] theorem Device.outcome_outcomes : (d.outcome w status).sync.outcomes =
    d.sync.outcomes ++ [⟨w.agent, w.obj, w.cond, w.value, w.consume, w.deadline, status⟩] := rfl
@[simp] theorem Device.outcome_get (off : Nat) : (d.outcome w status).get off = d.get off := rfl
@[simp] theorem Device.satisfy_objs : (d.satisfy w).sync.objs = d.sync.objs := rfl
@[simp] theorem Device.satisfy_waiters : (d.satisfy w).sync.waiters = d.sync.waiters := rfl
@[simp] theorem Device.satisfy_outcomes : (d.satisfy w).sync.outcomes =
    d.sync.outcomes ++ [⟨w.agent, w.obj, w.cond, w.value, w.consume, w.deadline, stOk⟩] := rfl
@[simp] theorem Device.satisfy_tick (p : Nat) : (d.satisfy w).tick p = d.tick p := rfl
@[simp] theorem Device.satisfy_obj (k : Nat) : (d.satisfy w).obj k = d.obj k := rfl
@[simp] theorem Device.wrongType_sync : (d.wrongType o agent arg).sync = d.sync := by simp [Device.wrongType]

/-- An operation of the wrong type counts in TYPE_CNT. -/
theorem Device.wrongType_typeCnt : (d.wrongType o agent arg).get (pageSync + 0x128) = satAdd (d.get (pageSync + 0x128)) 1 := by
  rw [Device.wrongType, Device.get_syncEvent _ _ _ _ _ _ (by decide) (by decide), Device.get_count_same]

/-- A held wait stays in the table or is refused; no object takes part. -/
@[simp] theorem Device.holdWait_objs : (d.holdWait w).sync.objs = d.sync.objs := by
  rw [Device.holdWait]
  split
  · simp
  · rfl

end Outcomes

/-! ### A consuming wait (R228, R231) -/

section Consume
variable {d : Device} {o : Nat} (consume : Bool) (value : Nat)

theorem Device.consumeBy_none (h : d.obj o = none) : d.consumeBy o consume value = d := by simp only [Device.consumeBy, h]

/-- A wait that does not consume leaves the object; one that does takes its comparand, which is posted where the value changes. -/
theorem Device.consumeBy_objs {x : SyncObj} (h : d.obj o = some x) : (d.consumeBy o consume value).sync.objs =
    if consume then smapSet d.sync.objs o { x with val := consumed x.val value } else d.sync.objs := by
  simp only [Device.consumeBy, h]
  cases consume with
  | false => rfl
  | true =>
    simp only [if_true, apply_ite (fun e : Device => e.sync.objs), Device.postNotify_objs, ite_self]
    rfl

theorem Device.consumeBy_obj_same {x : SyncObj} (h : d.obj o = some x) :
    (d.consumeBy o consume value).obj o = some (if consume then { x with val := consumed x.val value } else x) := by
  rw [Device.obj, Device.consumeBy_objs consume value h]
  cases consume with
  | false => exact h
  | true => exact smapFind_set_same _ _ _

variable (d o)

/-- Whatever a wait consumes, waiters, outcomes and the clock are not its. -/
theorem Device.consumeBy_rest : (d.consumeBy o consume value).sync.waiters = d.sync.waiters ∧
    (d.consumeBy o consume value).sync.outcomes = d.sync.outcomes ∧ ∀ p, (d.consumeBy o consume value).tick p = d.tick p := by
  rw [Device.consumeBy]
  split
  next x _ =>
    cases consume with
    | false => exact ⟨rfl, rfl, fun _ => rfl⟩
    | true =>
      simp only [if_true]
      split
      · exact ⟨rfl, rfl, fun _ => rfl⟩
      · exact ⟨by simp, by simp; rfl, by simp⟩
  next => exact ⟨rfl, rfl, fun _ => rfl⟩

end Consume

/-! ### The waiters of an object (R229, R239) -/

/-- The condition of a comparand is not met by the object as it stands. -/
def Device.Unmet (d : Device) (o value : Nat) : Prop := ∀ x, d.obj o = some x → meets x.val value = false

/-- No consuming wait brings about a condition. -/
theorem meets_consumed {v : ObjVal} {value : Nat} (taken : Nat) (h : meets v value = false) : meets (consumed v taken) value = false := by
  cases v with
  | counter x =>
    simp only [meets, consumed, decide_eq_false_iff_not] at h ⊢
    omega
  | flag on => rfl
  | barrier => rfl

theorem Device.Unmet.consumeBy {d : Device} {o value : Nat} (h : d.Unmet o value) (consume : Bool) (taken : Nat) :
    (d.consumeBy o consume taken).Unmet o value := by
  intro y hy
  cases ho : d.obj o with
  | none => rw [Device.consumeBy_none _ _ ho, ho] at hy; exact nomatch hy
  | some x =>
    rw [Device.consumeBy_obj_same _ _ ho, Option.some.injEq] at hy
    cases consume with
    | false => exact hy ▸ h x ho
    | true => exact hy ▸ meets_consumed taken (h x ho)

/-- A waiter tested: it stays, being another object's, late or unmet, or it is satisfied and its comparand is taken. -/
theorem Device.serveList_cons (o : Nat) (w : Waiter) (l : List Waiter) (d : Device) :
    (w.obj = o → d.tick 4 ≤ w.deadline → d.Unmet o w.value) ∧
        Device.serveList o (w :: l) d = (w :: (Device.serveList o l d).1, (Device.serveList o l d).2) ∨
      Device.serveList o (w :: l) d = Device.serveList o l ((d.consumeBy o w.consume w.value).satisfy w) := by
  cases hx : d.obj o with
  | none => exact .inl ⟨fun _ _ x h => (Option.some_ne_none x (h.symm.trans hx)).elim, by simp [Device.serveList, hx]⟩
  | some x =>
    simp only [Device.serveList, hx]
    split
    next => exact .inr rfl
    next waits =>
      refine .inl ⟨fun hw late y hy => ?_, rfl⟩
      obtain rfl := Option.some.inj (hx.symm.trans hy)
      simpa [Waiter.inTime, hw, late] using waits

/-- A condition that no waiter's turn brings about is unmet after all of them. -/
theorem Device.Unmet.serveList {o value : Nat} (l : List Waiter) {d : Device} (h : d.Unmet o value) :
    (Device.serveList o l d).2.Unmet o value := by
  induction l generalizing d with
  | nil => exact h
  | cons w l ih =>
    rcases Device.serveList_cons o w l d with ⟨-, kept⟩ | served
    · rw [kept]; exact ih h
    · rw [served]; exact ih (h.consumeBy w.consume w.value)

/-- Each waiter left in time was unmet at its turn, and so at the end. -/
theorem Device.serveList_left {o : Nat} (l : List Waiter) (d : Device) {w : Waiter} (hw : w ∈ (Device.serveList o l d).1) (ho : w.obj = o)
    (inTime : d.tick 4 ≤ w.deadline) : (Device.serveList o l d).2.Unmet o w.value := by
  induction l generalizing d with
  | nil => exact nomatch hw
  | cons u l ih =>
    rcases Device.serveList_cons o u l d with ⟨waits, kept⟩ | served
    · rw [kept] at hw ⊢
      rcases List.mem_cons.mp hw with rfl | hw
      · exact (waits ho inTime).serveList l
      · exact ih d hw inTime
    · rw [served] at hw ⊢
      obtain ⟨-, -, clock⟩ := d.consumeBy_rest o u.consume u.value
      exact ih _ hw (by simpa [clock] using inTime)

theorem Device.serveList_tick (o : Nat) (l : List Waiter) (d : Device) (p : Nat) : (Device.serveList o l d).2.tick p = d.tick p := by
  induction l generalizing d with
  | nil => rfl
  | cons w l ih =>
    obtain ⟨-, -, clock⟩ := d.consumeBy_rest o w.consume w.value
    rcases Device.serveList_cons o w l d with ⟨-, kept⟩ | served
    · rw [kept]; exact ih d
    · rw [served, ih]; simp [clock]

/-- Settles O28: a waiter left in time was unmet at its turn, and the consuming waits behind it do not raise the value. -/
theorem noSatisfiedWaiterIsLeft : Obligations.NoSatisfiedWaiterIsLeft :=
  fun d _ _ x hw ho inTime hx => Device.serveList_left d.sync.waiters d hw ho inTime x hx

/-! ### OVERRUN (R232) -/

/-- Every object with OVERRUN set is still there with OVERRUN set. -/
def Device.KeepsOverrun (d e : Device) : Prop :=
  ∀ k x, d.obj k = some x → x.overrun = true → ∃ y, e.obj k = some y ∧ y.overrun = true

section KeepsOverrun
variable {d e f : Device} {o : Nat}

theorem Device.KeepsOverrun.of_objs (h : e.sync.objs = d.sync.objs) : d.KeepsOverrun e :=
  fun k x hx hov => ⟨x, (Device.obj_congr h k).trans hx, hov⟩

theorem Device.KeepsOverrun.trans (h : d.KeepsOverrun e) (k : e.KeepsOverrun f) : d.KeepsOverrun f := by
  intro i x hx hov
  obtain ⟨y, hy, hyov⟩ := h i x hx hov
  exact k i y hy hyov

/-- The object is written with OVERRUN set wherever it was. -/
theorem Device.KeepsOverrun.of_set {x y : SyncObj} (ho : d.obj o = some x) (hov : x.overrun = true → y.overrun = true)
    (h : e.sync.objs = smapSet d.sync.objs o y) : d.KeepsOverrun e := by
  intro k z hz hzov
  have at_ : e.obj k = smapFind (smapSet d.sync.objs o y) k := by rw [Device.obj, h]
  by_cases hk : k = o
  · subst hk
    obtain rfl : x = z := Option.some.inj (ho.symm.trans hz)
    exact ⟨y, at_.trans (smapFind_set_same _ _ _), hov hzov⟩
  · exact ⟨z, (at_.trans (smapFind_set_other _ _ hk)).trans hz, hzov⟩

variable (d o)

theorem Device.keepsOverrun_consumeBy (consume : Bool) (value : Nat) : d.KeepsOverrun (d.consumeBy o consume value) := by
  cases ho : d.obj o with
  | none => rw [Device.consumeBy_none _ _ ho]; exact .of_objs rfl
  | some x =>
    have objs := Device.consumeBy_objs consume value ho
    cases consume with
    | false => exact .of_objs objs
    | true => exact .of_set (y := { x with val := consumed x.val value }) ho id objs

theorem Device.keepsOverrun_serve : d.KeepsOverrun (d.serve o) := by
  suffices ∀ l e, Device.KeepsOverrun e (Device.serveList o l e).2 from this _ d
  intro l
  induction l with
  | nil => exact fun _ => .of_objs rfl
  | cons w l ih =>
    intro e
    rcases Device.serveList_cons o w l e with ⟨-, kept⟩ | served
    · rw [kept]; exact ih e
    · rw [served]; exact (e.keepsOverrun_consumeBy o w.consume w.value).trans (ih ((e.consumeBy o w.consume w.value).satisfy w))

theorem Device.keepsOverrun_changed (v : ObjVal) : d.KeepsOverrun (d.changed o v) := by
  rw [Device.changed]
  split
  next x ho => exact (Device.KeepsOverrun.of_set (y := { x with val := v }) ho id (by simp; rfl)).trans (Device.keepsOverrun_serve _ o)
  next => exact .of_objs rfl

theorem Device.keepsOverrun_signalled {x : SyncObj} (ho : d.obj o = some x) (agent : Nat) : d.KeepsOverrun (d.signalled o agent x) :=
  .of_set (y := { x with lastSig := some (agent, d.tick 4) }) ho id rfl

theorem Device.keepsOverrun_overrun (agent arg : Nat) : d.KeepsOverrun (d.overrun o agent arg) := by
  rw [Device.overrun]
  split
  next x ho => exact .of_set (y := { x with overrun := true }) ho (fun _ => rfl) (by simp; rfl)
  next => exact .of_objs rfl

theorem Device.keepsOverrun_syncAdd (v agent : Nat) : d.KeepsOverrun (d.syncAdd o v agent).2 := by
  rw [Device.syncAdd]
  split
  next x ho =>
    split
    next old hv =>
      have counted : d.KeepsOverrun
          (if decide (0xFFFFFFFF < old + v) = true then (d.signalled o agent x).overrun o agent v else d.signalled o agent x) := by
        split
        · exact (d.keepsOverrun_signalled o ho agent).trans (Device.keepsOverrun_overrun _ o agent v)
        · exact d.keepsOverrun_signalled o ho agent
      dsimp only
      split
      · exact counted
      · exact counted.trans (Device.keepsOverrun_changed _ o _)
    next => exact .of_objs (by simp)
  next => exact .of_objs (by simp)

theorem Device.keepsOverrun_syncSetFlag (agent : Nat) : d.KeepsOverrun (d.syncSetFlag o agent).2 := by
  rw [Device.syncSetFlag]
  split
  next x ho =>
    split
    next on hv =>
      have signal := d.keepsOverrun_signalled o ho agent
      cases on with
      | false => exact signal.trans (Device.keepsOverrun_changed _ o _)
      | true => exact signal.trans (Device.keepsOverrun_overrun _ o agent 0)
    next => exact .of_objs (by simp)
  next => exact .of_objs (by simp)

/-- A wait that reaches the unit leaves the objects, or it is satisfied and takes its comparand. -/
theorem Device.waitEnter_objs (cond v : Nat) (consume : Bool) (agent deadline : Nat) :
    (d.waitEnter o cond v consume agent deadline).sync.objs = d.sync.objs ∨
      (d.waitEnter o cond v consume agent deadline).sync.objs = (d.consumeBy o consume v).sync.objs := by
  have refused (w : Waiter) : ((d.wrongType o agent v).outcome w stTimeout).sync.objs = d.sync.objs := by
    rw [Device.outcome_objs, Device.wrongType_sync]
  rw [Device.waitEnter]
  split
  next => exact .inl (refused _)
  next x ho =>
    split
    next => exact .inl (refused _)
    next =>
      split
      next =>
        simp only [apply_ite (fun e : Device => e.sync.objs), Device.outcome_objs, Device.count_sync, Device.satisfy_objs,
          Device.holdWait_objs, ite_self, true_or]
      next =>
        split
        · exact .inl rfl
        · split
          · exact .inr rfl
          · exact .inl (d.holdWait_objs _)

theorem Device.keepsOverrun_waitEnter (cond v : Nat) (consume : Bool) (agent deadline : Nat) :
    d.KeepsOverrun (d.waitEnter o cond v consume agent deadline) := by
  rcases d.waitEnter_objs o cond v consume agent deadline with h | h
  · exact .of_objs h
  · exact (d.keepsOverrun_consumeBy o consume v).trans (.of_objs h)

theorem Device.keepsOverrun_waitDeadline (place : Nat) : d.KeepsOverrun (opWaitDeadline place d) := by
  rw [opWaitDeadline]
  split <;> exact .of_objs rfl

theorem Device.keepsOverrun_opDone (status : Nat) : d.KeepsOverrun (d.opDone status) := .of_objs rfl

theorem Device.keepsOverrun_opAdd (agent : Nat) : d.KeepsOverrun (opAdd agent d) :=
  (d.keepsOverrun_syncAdd d.opObj d.opArg0 agent).trans (Device.keepsOverrun_opDone _ _)

theorem Device.keepsOverrun_opSet (agent : Nat) : d.KeepsOverrun (opSet agent d) :=
  (d.keepsOverrun_syncSetFlag d.opObj agent).trans (Device.keepsOverrun_opDone _ _)

theorem Device.keepsOverrun_opClear (agent : Nat) : d.KeepsOverrun (opClear agent d) := by
  rw [opClear]
  split
  next x ho =>
    split
    next v hv =>
      split
      · exact .of_objs rfl
      · exact (d.keepsOverrun_changed d.opObj (.counter 0)).trans (.of_objs rfl)
    next => exact .of_objs (congrArg SyncUnit.objs (d.wrongType_sync _ _ _))
  next => exact .of_objs (congrArg SyncUnit.objs (d.wrongType_sync _ _ _))

theorem Device.keepsOverrun_opCmdReserved (code : Nat) : d.KeepsOverrun (if reservedCommand code then opCmdReserved d else d) := by
  split <;> exact .of_objs rfl

/-- The debugger view writes its own words. -/
@[simp] theorem opDbgSelWrite_sync (v : Nat) : (opDbgSelWrite v d).sync = d.sync := by simp [opDbgSelWrite]

theorem Device.keepsOverrun_written {f : Device → Device} (h : d.KeepsOverrun (f d)) (agent : Nat) :
    d.KeepsOverrun (d.written agent f) := by
  rw [Device.written]
  split
  · exact h
  · exact .of_objs rfl

end KeepsOverrun

/-- CLR_STICKY of a counter or flag clears OVERRUN and nothing else of it. -/
theorem opClrSticky_value {d : Device} {agent : Nat} {x : SyncObj} (ho : d.obj d.opObj = some x) (hc : condOf x.val < 2) :
    opClrSticky agent d = (d.setObj d.opObj { x with overrun := false }).opDone stOk := by
  simp only [opClrSticky, ho]
  split
  next hv => rw [hv] at hc; exact absurd hc (Nat.lt_irrefl 2)
  next => rfl

/-- A command over the device that keeps OVERRUN keeps it in every state that it answers. -/
theorem State.onDev_keepsOverrun {s t : State} {f : Device → Device} (ht : s.onDev f = .next t)
    (h : s.part.dev.KeepsOverrun (f s.part.dev)) : s.part.dev.KeepsOverrun t.part.dev := by
  obtain rfl := Host.Outcome.next.inj ((s.onDev_eq f).symm.trans ht)
  exact h

/-- Settles O30: each operation keeps OVERRUN on its own object and leaves the others. -/
theorem overrunIsSticky : Obligations.OverrunIsSticky := by
  refine ⟨fun s t k x o v agent cond consume deadline place code hx hov i hi ht => ?keeps, fun s agent x hp hx hc => ?clears⟩
  case keeps =>
    suffices s.part.dev.KeepsOverrun t.part.dev from this k x hx hov
    have arrived (m : SyncMsg) : s.part.dev.KeepsOverrun (s.part.dev.arrived m) := .of_objs rfl
    simp only [List.mem_cons, List.not_mem_nil, or_false] at hi
    obtain rfl | rfl | rfl | rfl | rfl | rfl | rfl | rfl | rfl := hi
    · exact State.onDev_keepsOverrun ht ((arrived _).trans (Device.keepsOverrun_syncAdd _ _ _ _))
    · exact State.onDev_keepsOverrun ht ((arrived _).trans (Device.keepsOverrun_syncSetFlag _ _ _))
    · exact State.onDev_keepsOverrun ht ((arrived _).trans (Device.keepsOverrun_waitEnter _ _ _ _ _ _ _))
    · exact State.onDev_keepsOverrun ht (Device.keepsOverrun_waitDeadline _ _)
    · exact State.onDev_keepsOverrun ht (Device.keepsOverrun_written _ (Device.keepsOverrun_opAdd _ _) _)
    · exact State.onDev_keepsOverrun ht (Device.keepsOverrun_written _ (Device.keepsOverrun_opSet _ _) _)
    · exact State.onDev_keepsOverrun ht (Device.keepsOverrun_written _ (Device.keepsOverrun_opClear _ _) _)
    · exact State.onDev_keepsOverrun ht (Device.keepsOverrun_written _ (Device.keepsOverrun_opCmdReserved _ _) _)
    · exact State.onDev_keepsOverrun ht (Device.keepsOverrun_written _ (.of_objs (congrArg SyncUnit.objs (opDbgSelWrite_sync _ _))) _)
  case clears =>
    refine ⟨_, { x with overrun := false }, s.onDev_written hp (opClrSticky_value hx hc), Device.obj_setObj_same _ _ _, rfl⟩

end Sys2Proof.Machine
end

section
/-! SUPPORT. What a wait that reaches the unit does in each of its cases, and the end of a held one (R227, R230, R231, R235, R236, R238 to
R240). -/

namespace Sys2Proof.Machine

@[simp] theorem Device.arrived_tick (d : Device) (m : SyncMsg) (p : Nat) : (d.arrived m).tick p = d.tick p := rfl

/-! ### How a wait ends (R240) -/

/-- A wait has its outcome, and the table is as it was. -/
def Device.Ends (d : Device) (w : Waiter) (status : Nat) (e : Device) : Prop :=
  e.sync.outcomes = d.sync.outcomes ++ [⟨w.agent, w.obj, w.cond, w.value, w.consume, w.deadline, status⟩] ∧
    e.sync.waiters = d.sync.waiters

section Ends
variable (d : Device) (w : Waiter)

/-- An operation of the wrong type expires (R227). -/
theorem Device.wrongType_ends (o agent arg : Nat) : d.Ends w stTimeout ((d.wrongType o agent arg).outcome w stTimeout) := by
  simp [Device.Ends]

/-- A satisfied wait takes what it consumes (R229). -/
theorem Device.consumeBy_ends (o : Nat) (consume : Bool) (value : Nat) : d.Ends w stOk ((d.consumeBy o consume value).satisfy w) := by
  obtain ⟨waiters, outcomes, -⟩ := d.consumeBy_rest o consume value
  exact ⟨by rw [Device.satisfy_outcomes, outcomes], waiters⟩

/-- With the table full the wait expires (R238). -/
theorem Device.holdWait_full (h : 4096 ≤ d.sync.waiters.length) : d.Ends w stTimeout (d.holdWait w) := by
  rw [Device.holdWait, if_pos h]
  simp [Device.Ends]

theorem Device.holdWait_room (h : d.sync.waiters.length < 4096) : (d.holdWait w).sync.waiters = d.sync.waiters ++ [w] := by
  rw [Device.holdWait, if_neg (Nat.not_le.mpr h)]
  rfl

end Ends

/-! ### A wait by its object (R227, R230, R231, R235, R239) -/

section WaitEnter
variable {d : Device} {o cond : Nat} {x : SyncObj}

theorem Device.waitEnter_wrongType (h : d.obj o = none ∨ ∃ x, d.obj o = some x ∧ condOf x.val ≠ cond) (v : Nat) (consume : Bool)
    (agent deadline : Nat) : d.waitEnter o cond v consume agent deadline =
      (d.wrongType o agent v).outcome ⟨o, cond, v, consume, agent, deadline, 0⟩ stTimeout := by
  rcases h with h | ⟨x, h, hc⟩
  · simp only [Device.waitEnter, h]
  · simp only [Device.waitEnter, h, if_pos hc]

theorem Device.waitEnter_value (ho : d.obj o = some x) (hc : condOf x.val = cond) (hb : cond < 2) (v : Nat) (consume : Bool)
    (agent deadline : Nat) : d.waitEnter o cond v consume agent deadline =
      if deadline < d.tick 4 then (d.count (pageSync + 0x118)).outcome ⟨o, cond, v, consume, agent, deadline, 0⟩ stTimeout
      else if meets x.val v then (d.consumeBy o consume v).satisfy ⟨o, cond, v, consume, agent, deadline, 0⟩
      else d.holdWait ⟨o, cond, v, consume, agent, deadline, 0⟩ := by
  simp only [Device.waitEnter, ho, hc, ne_eq, not_true_eq_false, if_false]
  split
  next hv => rw [← hc, hv] at hb; exact absurd hb (Nat.lt_irrefl 2)
  next => rfl

theorem releasesAwaited_eq (cur next prev : List Nat) (agent : Nat) : releasesAwaited cur next prev agent =
    if agent ∈ next then 2 else if agent ∈ cur then 1 else if agent ∈ prev then 0 else 1 := by
  simp only [releasesAwaited, List.contains_iff_mem]

theorem Device.waitEnter_barrier {pcount : Nat} {cur next prev : List Nat} {parity asc fault : Bool} {parent : Option (Nat × Nat)}
    (ho : d.obj o = some x) (hx : x.val = .barrier pcount cur next prev parity asc fault parent) (v : Nat) (consume : Bool)
    (agent deadline : Nat) : d.waitEnter o 2 v consume agent deadline =
      if fault then d.outcome ⟨o, 2, v, consume, agent, deadline, 0⟩ stBarrierFault
      else if deadline < d.tick 4 then (d.count (pageSync + 0x118)).outcome ⟨o, 2, v, consume, agent, deadline, 0⟩ stTimeout
      else if releasesAwaited cur next prev agent = 0 then d.satisfy ⟨o, 2, v, consume, agent, deadline, 0⟩
      else d.holdWait ⟨o, 2, v, consume, agent, deadline, releasesAwaited cur next prev agent⟩ := by
  simp only [Device.waitEnter, ho, hx, condOf, ne_eq, not_true_eq_false, if_false]

/-- No wait on a barrier writes an object. -/
theorem Device.waitEnter_barrier_objs {pcount : Nat} {cur next prev : List Nat} {parity asc fault : Bool}
    {parent : Option (Nat × Nat)} (ho : d.obj o = some x) (hx : x.val = .barrier pcount cur next prev parity asc fault parent) (v : Nat)
    (consume : Bool) (agent deadline : Nat) : (d.waitEnter o 2 v consume agent deadline).sync.objs = d.sync.objs := by
  rw [Device.waitEnter_barrier ho hx]
  simp only [apply_ite (fun e : Device => e.sync.objs), Device.outcome_objs, Device.count_sync, Device.satisfy_objs,
    Device.holdWait_objs, ite_self]

end WaitEnter

/-- A wait whose condition the object meets. -/
theorem meets_of_cases {x : ObjVal} {value cond v : Nat}
    (h : x = .counter value ∧ cond = 0 ∧ v ≤ value ∨ x = .flag true ∧ cond = 1) : condOf x = cond ∧ cond < 2 ∧ meets x v = true := by
  rcases h with ⟨rfl, rfl, h⟩ | ⟨rfl, rfl⟩
  · exact ⟨rfl, by decide, decide_eq_true h⟩
  · exact ⟨rfl, by decide, rfl⟩

/-- A wait whose condition the object does not meet. -/
theorem not_meets_of_cases {x : ObjVal} {value cond v : Nat}
    (h : x = .counter value ∧ cond = 0 ∧ value < v ∨ x = .flag false ∧ cond = 1) : condOf x = cond ∧ cond < 2 ∧ ¬meets x v = true := by
  rcases h with ⟨rfl, rfl, h⟩ | ⟨rfl, rfl⟩
  · exact ⟨rfl, by decide, by simpa [meets] using h⟩
  · exact ⟨rfl, by decide, Bool.false_ne_true⟩

/-- At its deadline a held wait leaves the table (R239). -/
theorem opWaitDeadline_held {d : Device} {place : Nat} {w : Waiter} (h : d.sync.waiters[place]? = some w) : opWaitDeadline place d =
    (((d.reach w.deadline).onSync (fun s => { s with waiters := listDrop s.waiters place })).count
      (pageSync + 0x118)).outcome w stTimeout := by
  simp only [opWaitDeadline, h]

/-- Settles O27: each kind of wait is one of the cases above, on the device that its message has reached. -/
theorem waitsAreJudged : Obligations.WaitsAreJudged := by
  refine ⟨?enter, fun s place w hw => ?deadline⟩
  case enter =>
    intro s o cond v consume agent deadline d a answers
    let m : SyncMsg := .wait o.val cond.val v.toNat consume a deadline.toNat
    let w : Waiter := ⟨o.val, cond.val, v.toNat, consume, a, deadline.toNat, 0⟩
    have ends {status : Nat} {e : Device} (h : (d.arrived m).Ends w status e) : answers status (s.withDev e) := ⟨rfl, h.1, h.2⟩
    refine ⟨fun x value ho hx soon => ?met, fun x value ho hx soon room => ?held, fun x value ho hx soon full => ?full,
      fun x ho hc hb late => ?late, ?barrier, fun h => ?wrong⟩
    case met =>
      obtain ⟨hc, hb, hm⟩ := meets_of_cases hx
      refine ⟨_, s.onDev_next (((d.arrived m).waitEnter_value ho hc hb ..).trans
        ((if_neg (Nat.not_lt.mpr soon)).trans (if_pos hm))), ends (Device.consumeBy_ends _ _ _ _ _), ?_⟩
      exact Device.consumeBy_obj_same (d := d.arrived m) consume v.toNat ho
    case held =>
      obtain ⟨hc, hb, hm⟩ := not_meets_of_cases hx
      exact ⟨_, s.onDev_next (((d.arrived m).waitEnter_value ho hc hb ..).trans
        ((if_neg (Nat.not_lt.mpr soon)).trans (if_neg hm))), Device.holdWait_objs _ _, Device.holdWait_room _ _ room⟩
    case full =>
      obtain ⟨hc, hb, hm⟩ := not_meets_of_cases hx
      exact ⟨_, s.onDev_next (((d.arrived m).waitEnter_value ho hc hb ..).trans
        ((if_neg (Nat.not_lt.mpr soon)).trans (if_neg hm))), ends (Device.holdWait_full _ _ full), Device.holdWait_objs _ _⟩
    case late =>
      exact ⟨_, s.onDev_next (((d.arrived m).waitEnter_value ho hc hb ..).trans (if_pos late)), ends ⟨rfl, rfl⟩, rfl⟩
    case barrier =>
      intro x pcount cur next prev parity asc fault parent ho hc hx n
      obtain rfl : cond = 2 := Fin.ext hc
      have entered := (d.arrived m).waitEnter_barrier ho hx v.toNat consume a deadline.toNat
      rw [releasesAwaited_eq, Device.arrived_tick] at entered
      refine ⟨_, s.onDev_next (d := (d.arrived m).waitEnter o.val 2 v.toNat consume a deadline.toNat) rfl,
        Device.waitEnter_barrier_objs (d := d.arrived m) ho hx .., fun faulted => ends ?_, fun sound late => ends ?_,
        fun sound soon none => ends ?_, fun sound soon some room => ?_⟩
      · rw [entered, if_pos faulted]; exact ⟨rfl, rfl⟩
      · rw [entered, if_neg (ne_true_of_eq_false sound), if_pos late]; exact ⟨rfl, rfl⟩
      · rw [entered, if_neg (ne_true_of_eq_false sound), if_neg (Nat.not_lt.mpr soon), if_pos none]; exact ⟨rfl, rfl⟩
      · change ((d.arrived m).waitEnter o.val 2 v.toNat consume a deadline.toNat).sync.waiters = _
        rw [entered, if_neg (ne_true_of_eq_false sound), if_neg (Nat.not_lt.mpr soon), if_neg some]
        exact Device.holdWait_room _ _ room
    case wrong =>
      have same : ((d.arrived m).wrongType o.val a v.toNat).sync.objs = d.sync.objs := by rw [Device.wrongType_sync]; rfl
      exact ⟨_, s.onDev_next ((d.arrived m).waitEnter_wrongType h ..), ends ((d.arrived m).wrongType_ends w o.val a v.toNat),
        same, (d.arrived m).wrongType_typeCnt o.val a v.toNat⟩
  case deadline =>
    exact ⟨_, s.onDev_next (opWaitDeadline_held hw), rfl, rfl, rfl, rfl, Device.get_count_same _ _ _⟩

end Sys2Proof.Machine
end

section
/-! SUPPORT. What an arrival, a complete round, a parent's release and a fault leave of their barrier (R233 to R236). -/

namespace Sys2Proof.Machine

/-! ### Objects under frames and releases (R234 to R236, R424) -/

section Objects
variable (d : Device) (o : Nat)

@[simp] theorem Device.sendOn_sync (port src dst hops heat : Nat) (broadcast : Bool) (c : Cell) :
    (d.sendOn port src dst hops heat broadcast c).sync = d.sync := by
  simp only [Device.sendOn, apply_ite Device.sync, Device.send_sync, Device.count_sync, Device.count64_sync, ite_self]

@[simp] theorem Device.cellTo_sync (node : Nat) (c : Cell) : (d.cellTo node c).sync = d.sync := Device.sendOn_sync ..

theorem Device.cellTo_obj (node : Nat) (c : Cell) : (d.cellTo node c).obj o = d.obj o := by simp only [Device.obj, Device.cellTo_sync]

theorem Device.relay_objs (node : Nat) (m : SyncMsg) (c : Cell) : (d.relay node m c).sync.objs = d.sync.objs := by
  rw [Device.relay]
  split
  · rfl
  · rw [Device.cellTo_sync]

/-- Operations one after another that leave the objects. -/
theorem Device.foldl_objs {α : Type} {f : Device → α → Device} (h : ∀ e q, (f e q).sync.objs = e.sync.objs) (l : List α)
    (d : Device) : (l.foldl f d).sync.objs = d.sync.objs := by
  induction l generalizing d with
  | nil => rfl
  | cons q l ih => rw [List.foldl_cons, ih, h]

theorem Device.releaseWaiters_objs : (d.releaseWaiters o).sync.objs = d.sync.objs :=
  Device.foldl_objs (f := fun e w => e.satisfy w) (fun _ _ => rfl) _ _

theorem Device.releaseAll_objs (status : Nat) : (d.releaseAll o status).sync.objs = d.sync.objs :=
  Device.foldl_objs (f := fun e w => e.outcome w status) (fun _ _ => rfl) _ _

theorem Device.releaseAll_obj (status k : Nat) : (d.releaseAll o status).obj k = d.obj k := Device.obj_congr (d.releaseAll_objs o status) k

theorem Device.wrongType_obj (k agent arg : Nat) : (d.wrongType k agent arg).obj o = d.obj o := by
  simp only [Device.obj, Device.wrongType_sync]

end Objects

section Rounds
variable {d : Device} {o : Nat} {x : SyncObj} {pcount : Nat} {cur next prev : List Nat} {parity asc fault : Bool}
  {parent : Option (Nat × Nat)}

/-! ### A round released (R234) -/

theorem Device.releaseOnce_obj (ho : d.obj o = some x) (hx : x.val = .barrier pcount cur next prev parity asc fault parent) :
    (d.releaseOnce o).obj o = some { x with val := .barrier pcount next [] cur (!parity) false fault parent } := by
  simp only [Device.releaseOnce, ho, hx]
  rw [Device.obj_congr (Device.foldl_objs (fun e c => e.relay_objs ..) _ _), Device.obj_setObj_same]

theorem Device.roundFull_barrier (ho : d.obj o = some x) (hx : x.val = .barrier pcount cur next prev parity asc fault parent) :
    d.roundFull o = (cur.length == pcount) := by simp only [Device.roundFull, ho, hx]

/-- After a release the round that NEXT held is complete only where it has PCOUNT identities. -/
theorem Device.releaseOnce_roundFull (ho : d.obj o = some x) (hx : x.val = .barrier pcount cur next prev parity asc fault parent)
    (hn : next.length ≠ pcount) : (d.releaseOnce o).roundFull o = false := by
  rw [Device.roundFull_barrier (Device.releaseOnce_obj ho hx) rfl]
  exact beq_false_of_ne hn

/-- A complete round without a parent is released. -/
theorem Device.completeRound_root (ho : d.obj o = some x) (hx : x.val = .barrier pcount cur next prev parity asc fault none)
    (hn : next.length ≠ pcount) (n : Nat) : Device.completeRound (n + 1) o d = d.releaseOnce o := by
  simp only [Device.completeRound, ho, hx, Device.releaseOnce_roundFull ho hx hn, Bool.false_eq_true, if_false]

/-- One with a parent ascends, its sets as they were. -/
theorem Device.completeRound_child {node po : Nat} (ho : d.obj o = some x)
    (hx : x.val = .barrier pcount cur next prev parity asc fault (some (node, po))) (n : Nat) :
    (Device.completeRound (n + 1) o d).obj o =
      some { x with val := .barrier pcount cur next prev parity true fault (some (node, po)) } := by
  simp only [Device.completeRound, ho, hx]
  rw [Device.obj_congr (Device.relay_objs ..), Device.obj_setObj_same]

/-- The parent's release comes to an ascending barrier. -/
theorem Device.parentReleased_ascending (ho : d.obj o = some x) (hx : x.val = .barrier pcount cur next prev parity true false parent)
    (hn : next.length ≠ pcount) (agent : Nat) : d.parentReleased o agent = d.releaseOnce o := by
  simp only [Device.parentReleased, ho, hx, Device.releaseOnce_roundFull ho hx hn, Bool.false_eq_true, if_false]

/-! ### A fault (R236) -/

/-- A faulted barrier stays as it is through the faults of others. -/
theorem Device.faultBarrier_faulted (n : Nat) {d : Device} (ho : d.obj o = some x)
    (hx : x.val = .barrier pcount cur next prev parity asc true parent) (q agent : Nat) :
    (Device.faultBarrier n q agent d).obj o = some x := by
  induction n generalizing d q agent with
  | zero => exact ho
  | succ n ih =>
    rw [Device.faultBarrier]
    split
    next z hz =>
      split
      next _ _ _ _ _ _ up hv =>
        have apart : o ≠ q := by
          rintro rfl
          obtain rfl := Option.some.inj (ho.symm.trans hz)
          rw [hx] at hv
          exact nomatch hv
        refine List.foldlRecOn (motive := fun e : Device => e.obj o = some x) _ _ ?start fun e he r _ => ?chain
        case start =>
          rw [Device.syncEvent_obj, Device.obj_count, Device.releaseAll_obj, Device.obj_setObj_other _ _ _ _ apart, ho]
        case chain =>
          split
          · exact ih he _ _
          · exact (e.cellTo_obj o _ _).trans he
      next => exact ho
      next => exact (d.wrongType_obj o ..).trans ho
    next => exact (d.wrongType_obj o ..).trans ho

/-- A barrier that is not faulted takes a fault: FAULT is set, its sets as they were. -/
theorem Device.faultBarrier_sound (n : Nat) (ho : d.obj o = some x)
    (hx : x.val = .barrier pcount cur next prev parity asc false parent) (agent : Nat) :
    (Device.faultBarrier (n + 1) o agent d).obj o = some { x with val := .barrier pcount cur next prev parity asc true parent } := by
  simp only [Device.faultBarrier, ho, hx]
  refine List.foldlRecOn (motive := fun e : Device => e.obj o = some _) _ _ ?start fun e he r _ => ?chain
  case start => rw [Device.syncEvent_obj, Device.obj_count, Device.releaseAll_obj, Device.obj_setObj_same]
  case chain =>
    split
    · exact Device.faultBarrier_faulted n he rfl _ _
    · exact (e.cellTo_obj o _ _).trans he

/-! ### An arrival (R233, R236) -/

section Arrivals
variable {a : Nat} (ho : d.obj o = some x) (hx : x.val = .barrier pcount cur next prev parity asc false parent)
include ho hx

/-- Counted in CUR, the round not complete. -/
theorem Device.syncArrive_cur (ha : a ∉ cur) (hc : cur.length + 1 < pcount) : (d.syncArrive o a).2.obj o =
    some { x with val := .barrier pcount (cur ++ [a]) next prev parity asc false parent, lastSig := some (a, d.tick 4) } := by
  have joins : (!cur.contains a && decide (cur.length < pcount)) = true := by simp [ha, Nat.lt_of_succ_lt hc]
  simp only [Device.syncArrive, ho, hx, joins, Bool.false_eq_true, if_false, if_true, if_neg (not_and_of_not_left _ (Nat.ne_of_lt hc))]
  exact Device.obj_setObj_same _ _ _

/-- Counted in NEXT. -/
theorem Device.syncArrive_next (hc : ¬(a ∉ cur ∧ cur.length < pcount)) (ha : a ∉ next) (hn : next.length < pcount) :
    (d.syncArrive o a).2.obj o =
      some { x with val := .barrier pcount cur (next ++ [a]) prev parity asc false parent, lastSig := some (a, d.tick 4) } := by
  have inCur : (!cur.contains a && decide (cur.length < pcount)) = false := by simpa using hc
  have joins : (!next.contains a && decide (next.length < pcount)) = true := by simp [ha, hn]
  simp only [Device.syncArrive, ho, hx, inCur, joins, Bool.false_eq_true, if_false, if_true]
  exact Device.obj_setObj_same _ _ _

/-- Counted in neither, it faults the barrier. -/
theorem Device.syncArrive_fault (hc : ¬(a ∉ cur ∧ cur.length < pcount)) (hn : ¬(a ∉ next ∧ next.length < pcount)) :
    (d.syncArrive o a).2.obj o =
      some { x with val := .barrier pcount cur next prev parity asc true parent, lastSig := some (a, d.tick 4) } := by
  have inCur : (!cur.contains a && decide (cur.length < pcount)) = false := by simpa using hc
  have inNext : (!next.contains a && decide (next.length < pcount)) = false := by simpa using hn
  simp only [Device.syncArrive, ho, hx, inCur, inNext, Bool.false_eq_true, if_false]
  exact Device.faultBarrier_sound (x := { x with lastSig := some (a, d.tick 4) }) 1024 (Device.obj_setObj_same _ _ _) hx a

end Arrivals

/-- The last arrival of a round that has not ascended completes it. -/
theorem Device.syncArrive_last {a : Nat} (ho : d.obj o = some x) (hx : x.val = .barrier pcount cur next prev parity false false parent)
    (ha : a ∉ cur) (hc : cur.length + 1 = pcount) : ∃ e, (d.syncArrive o a).2 = Device.completeRound 2 o e ∧
      e.obj o = some { x with val := .barrier pcount (cur ++ [a]) next prev parity false false parent, lastSig := some (a, d.tick 4) } := by
  have joins : (!cur.contains a && decide (cur.length < pcount)) = true := by simp [ha, Nat.lt_of_succ_le (Nat.le_of_eq hc)]
  refine ⟨_, ?_, Device.obj_setObj_same (d.signalled o a x) o _⟩
  simp only [Device.syncArrive, ho, hx, joins, hc, Bool.false_eq_true, if_false, if_true, Bool.not_false, and_self]
  rfl

end Rounds

/-- Settles O26: an arrival is one of the cases above; the last one of a round releases it or ascends, and so does the parent's release. -/
theorem barrierRounds : Obligations.BarrierRounds := by
  refine ⟨?arrivals, fun s o agent x pcount cur next prev parity parent ho hx ha hc hn => ?round,
    fun s o x pcount cur next prev parity parent ho hx hn => ?released⟩
  case arrivals =>
    intro s o agent x pcount cur next prev parity asc parent d a ho hx answers
    have arrives {v : ObjVal} (h : ∀ e : Device, e.obj o.val = some x →
        ∃ y, (e.syncArrive o.val a).2.obj o.val = some y ∧ y.val = v) : answers (· = v) := by
      refine ⟨?unit, fun hp hobj => ?command⟩
      case unit =>
        obtain ⟨y, hy, hv⟩ := h (d.arrived (.arrive o.val a)) ho
        exact ⟨_, y, rfl, rfl, hy, hv⟩
      case command =>
        obtain ⟨y, hy, hv⟩ := h d ho
        refine ⟨_, y, s.onDev_written hp rfl, rfl, ?_, hv⟩
        rw [← hobj] at hy ⊢
        exact hy
    exact ⟨fun ha hc => arrives fun e he => ⟨_, Device.syncArrive_cur he hx ha hc, rfl⟩,
      fun hc ha hn => arrives fun e he => ⟨_, Device.syncArrive_next he hx hc ha hn, rfl⟩,
      fun hc hn => arrives fun e he => ⟨_, Device.syncArrive_fault he hx hc hn, rfl⟩⟩
  case round =>
    obtain ⟨e, arrived, he⟩ := Device.syncArrive_last (d := s.part.dev.arrived (.arrive o.val agent.toNat)) ho hx ha hc
    cases parent with
    | none =>
      exact ⟨_, _, s.onDev_next (arrived.trans (Device.completeRound_root he rfl (Nat.ne_of_lt hn) 1)), Device.releaseOnce_obj he rfl,
        fun _ => rfl, nofun⟩
    | some q => exact ⟨_, _, s.onDev_next arrived, Device.completeRound_child he rfl 1, nofun, fun _ h => Option.some.inj h ▸ rfl⟩
  case released =>
    have reached : (s.part.dev.arrived (.release o.val (s.part.dev.releaseAgent o.val))).obj o.val = some x := ho
    exact ⟨_, _, s.onDev_next (Device.parentReleased_ascending reached hx hn _), Device.releaseOnce_obj reached hx, rfl⟩

end Sys2Proof.Machine
end

section
/-! SUPPORT. What the commands of the sync page and the debugger view do, and what one nanosecond changes (R225, R227, R228, R232, R251,
R252, R259, R263, R264). -/

namespace Sys2Proof.Machine

/-! ### A nanosecond (R251, R252, R585) -/

theorem Device.elapse_one (d : Device) : d.elapse 1 = { d with
    ticks := d.ticks.map (fun t => (t + (d.tickPart + d.tickRate) / 1000000000) % 2 ^ 64)
    tickPart := (d.tickPart + d.tickRate) % 1000000000
    hist := d.hist.elapse 1 } := by
  simp only [Device.elapse, Nat.one_mul]

/-- Without steering a nanosecond is a tick. -/
theorem Device.tickRate_nominal {d : Device} (h : d.get (pageTb 4 + 0x10C) = 0) : d.tickRate = 1000000000 := by
  simp only [Device.tickRate, h]
  decide

/-- Settles O2: an idle step is one nanosecond. -/
theorem emptyQueueLetsATickPass : Obligations.EmptyQueueLetsATickPass := by
  intro s empty d
  refine ⟨?passes, fun nominal part => ?tick⟩
  case passes =>
    have idles : step s = .next (s.withDev (d.elapse 1)) := by
      simp only [step, empty]
      rfl
    rw [idles, Device.elapse_one]
    rfl
  case tick =>
    rw [Device.tickRate_nominal nominal]
    omega

/-! ### Commands on an object (R227, R228, R259) -/

section Commands
variable {d : Device} {agent : Nat} {x : SyncObj}

theorem opFree_held (h : d.obj d.opObj = some x) : opFree agent d =
    ((d.releaseAll d.opObj stResetLost).onSync (fun s => { s with objs := smapErase s.objs d.opObj })).opDone stOk := by
  simp only [opFree, h]

theorem opFree_none (h : d.obj d.opObj = none) : opFree agent d = (d.wrongType d.opObj agent 0).opDone stTimeout := by
  simp only [opFree, h]

theorem opClear_counter {v : Nat} (h : d.obj d.opObj = some x) (hv : x.val = .counter v) :
    opClear agent d = (if v = 0 then d else d.changed d.opObj (.counter 0)).opDone stOk := by
  simp only [opClear, h, hv]

theorem reservedCommand_of {code : BitVec 4} (h : code = 0 ∨ 0xA ≤ code.toNat) : reservedCommand code.toNat = true := by
  rcases h with rfl | h
  · rfl
  · simp [reservedCommand, h]

end Commands

/-! ### The debugger view (R263) -/

section DebuggerView
variable (d : Device)

/-- A word of those set one after another. -/
theorem Device.get_setWords {first i w : Nat} {l : List Nat} (h : l[i]? = some w) :
    (d.setWords first l).get (first + 4 * i) = w % 2 ^ 32 := by
  induction l generalizing d first i with
  | nil => exact nomatch h
  | cons u l ih =>
    rw [Device.setWords]
    cases i with
    | zero =>
      obtain rfl := Option.some.inj h
      rw [Device.get_setWords_below _ (by omega), Nat.mul_zero, Nat.add_zero, Device.get_set_same]
    | succ i =>
      rw [show first + 4 * (i + 1) = first + 4 + 4 * i by omega]
      exact ih _ h

/-- DBG_SEL is none of the tenants' ranges. -/
theorem Device.tenantOf_dbgSel (v o : Nat) : (d.set (pageSync + 0x160) v).tenantOf o = d.tenantOf o := by
  have range (i : Nat) : (d.set (pageSync + 0x160) v).get (pageSync + 0x200 + 4 * i) = d.get (pageSync + 0x200 + 4 * i) :=
    Device.get_set_other _ _ (by unfold pageSync; omega)
  simp only [Device.tenantOf, range]

theorem Device.dbgState_dbgSel (v o : Nat) : (d.set (pageSync + 0x160) v).dbgState o = d.dbgState o := by
  simp only [Device.dbgState, Device.tenantOf_dbgSel, Device.obj_set]

/-- DBG_SEL keeps the number, and the four words behind it show the object. -/
theorem opDbgSelWrite_words (v : Nat) : let o := v % 2 ^ 14
    (opDbgSelWrite v d).get (pageSync + 0x160) = o ∧
      (opDbgSelWrite v d).get (pageSync + 0x164) = d.dbgState o % 2 ^ 32 ∧
      (opDbgSelWrite v d).get (pageSync + 0x168) = dbgValue (d.obj o) % 2 ^ 32 ∧
      (opDbgSelWrite v d).get (pageSync + 0x16C) = dbgParent (d.obj o) % 2 ^ 32 ∧
      (opDbgSelWrite v d).get (pageSync + 0x170) = (d.sync.waiters.filter (fun w => w.obj == o)).length % 2 ^ 32 := by
  intro o
  have word {i w : Nat} {l : List Nat} (h : l[i]? = some w) :
      ((d.set (pageSync + 0x160) o).setWords (pageSync + 0x164) l).get (pageSync + 0x164 + 4 * i) = w % 2 ^ 32 := Device.get_setWords _ h
  refine ⟨?sel, ?state, word (i := 1) rfl, word (i := 2) rfl, word (i := 3) rfl⟩
  case sel =>
    have small : o < 2 ^ 14 := Nat.mod_lt _ (by decide)
    exact (Device.get_setWords_below _ (by decide)).trans ((Device.get_set_same _ _ _).trans (Nat.mod_eq_of_lt (by omega)))
  case state =>
    rw [← d.dbgState_dbgSel o o]
    exact word (i := 0) rfl

end DebuggerView

/-- Settles O29: each command is its operation on the device, whose cases are the lemmas above. -/
theorem syncPageCommands : Obligations.SyncPageCommands := by
  refine ⟨?commands, fun s v agent hp => ?view⟩
  case commands =>
    intro s agent hp d o done r
    have runs {i : Instr} {f : Device → Device} {e : Device} {status : Nat} (hi : exec i s = s.onDev (fun d => d.written agent.toNat f))
        (h : f d = e.opDone status) : exec i s = .next (done e status) := hi.trans (s.onDev_written hp h)
    refine ⟨runs rfl rfl, runs rfl rfl, ?_, fun x h => runs rfl (opFree_held h), fun h => runs rfl (opFree_none h),
      fun x v h hv => runs rfl (opClear_counter h hv), fun x h hc => runs rfl (opClrSticky_value h hc),
      fun code h => runs rfl (if_pos (reservedCommand_of h))⟩
    exact (s.onDev_written hp rfl).trans (congrArg _ (apply_ite s.withDev ..))
  case view =>
    exact ⟨_, s.onDev_written hp rfl, rfl, opDbgSelWrite_sync _ _, opDbgSelWrite_words _ _⟩

end Sys2Proof.Machine
end

section
/-! SUPPORT. What leaves the lock of the time base as it is, and what timing messages and silence do (R251, R252, R254 to R256, R434,
R435). -/

namespace Sys2Proof.Machine

/-! ### Whatever leaves the lock (R254, R255) -/

/-- The word of TB_STAT that holds LOCKED. -/
def lockWord : Nat := pageTb 4 + 0x108

theorem lockWord_eq : lockWord = 0x80002108 := rfl

/-- The lock and the count toward it are as they were. -/
structure Device.KeepsLock (d e : Device) : Prop where
  locked : e.locked = d.locked
  inLimits : e.mesh.inLimits = d.mesh.inLimits

section KeepsLock
variable {d e f : Device}

theorem Device.KeepsLock.of_get (h : e.get lockWord = d.get lockWord) (hm : e.mesh = d.mesh) : d.KeepsLock e :=
  ⟨congrArg (bit · 0) h, congrArg MeshState.inLimits hm⟩

theorem Device.KeepsLock.refl : d.KeepsLock d := ⟨rfl, rfl⟩

theorem Device.KeepsLock.trans (h : d.KeepsLock e) (k : e.KeepsLock f) : d.KeepsLock f :=
  ⟨k.locked.trans h.locked, k.inLimits.trans h.inLimits⟩

/-- Operations one after another that leave the lock. -/
theorem Device.keepsLock_foldl {α : Type} {f : Device → α → Device} {l : List α} (h : ∀ e, ∀ q ∈ l, Device.KeepsLock e (f e q)) :
    d.KeepsLock (l.foldl f d) :=
  List.foldlRecOn (motive := fun e => d.KeepsLock e) l f .refl fun e he q hq => he.trans (h e q hq)

/-- Each die's page treated in a way that leaves the lock. -/
theorem Device.keepsLock_eachTb {f : Device → Nat → Device} (h : ∀ e p, p < 5 → Device.KeepsLock e (f e (pageTb p))) :
    d.KeepsLock (d.eachTb f) := Device.keepsLock_foldl fun e p hp => h e p (List.mem_range.mp hp)

variable (d)

theorem Device.keepsLock_set {off : Nat} (v : Nat) (h : lockWord ≠ off) : d.KeepsLock (d.set off v) :=
  .of_get (Device.get_set_other _ _ h) rfl

theorem Device.keepsLock_count64 {off : Nat} (n : Nat) (h : lockWord < off) : d.KeepsLock (d.count64 off n) :=
  .of_get ((Device.get_set_other _ _ (by omega)).trans (Device.get_set_other _ _ (by omega))) rfl

/-- An event of a page in front of the word. -/
theorem Device.keepsLock_event {page : Nat} (b word0 : Nat) (rest : List Nat) (h : page + 0x40 ≤ lockWord) :
    d.KeepsLock (d.event page b word0 rest) := .of_get (d.get_event _ _ _ (by decide) h) (d.event_mesh ..)

/-- An event of a page behind the word. -/
theorem Device.keepsLock_event_above {page : Nat} (b word0 : Nat) (rest : List Nat) (h : lockWord < page) :
    d.KeepsLock (d.event page b word0 rest) := by
  refine .of_get ?_ (d.event_mesh ..)
  rw [Device.event, Device.get_capture_below _ _ (by omega), Device.get_raise _ _ (by decide) (by omega)]

/-- A field of TB_STAT beside LOCKED. -/
theorem bit_zero_withBits (w hi v : Nat) {lo : Nat} (h : 0 < lo) : bit (withBits w hi lo v) 0 = bit w 0 := by
  obtain ⟨k, rfl⟩ : ∃ k, lo = k + 1 := ⟨lo - 1, by omega⟩
  have held : bits w hi (k + 1) * 2 ^ (k + 1) ≤ w := by
    rw [bits, Nat.shiftRight_eq_div_pow]
    exact Nat.le_trans (Nat.mul_le_mul_right _ (Nat.mod_le _ _)) (Nat.div_mul_le_self _ _)
  simp only [bit, withBits, Nat.shiftRight_zero, Nat.pow_succ, ← Nat.mul_assoc] at held ⊢
  congr 1
  omega

theorem Device.keepsLock_setBits (off hi v : Nat) {lo : Nat} (h : 0 < lo) : d.KeepsLock (d.setBits off hi lo v) := by
  by_cases here : lockWord = off
  · subst here
    refine ⟨?_, rfl⟩
    have kept : bit (withBits (d.get lockWord) hi lo v % 2 ^ 32) 0 = bit (d.get lockWord) 0 := by
      rw [bit_eq_bits, bits_mod_two_pow (by decide), ← bit_eq_bits, bit_zero_withBits _ _ _ h]
    exact (congrArg (bit · 0) (Device.get_set_same _ _ _)).trans kept
  · exact d.keepsLock_set _ here

/-! ### Frames and domain faults leave it (R201, R424) -/

theorem Device.keepsLock_sendOn (port src dst hops heat : Nat) (broadcast : Bool) (c : Cell) :
    d.KeepsLock (d.sendOn port src dst hops heat broadcast c) := by
  have behind (k : Nat) : lockWord < pagePort port + k := by rw [lockWord_eq, pagePort]; omega
  have numbered (m : SMap Nat) : d.KeepsLock { d with mesh := { d.mesh with seqs := m } } := ⟨rfl, rfl⟩
  have express (e : Device) : e.KeepsLock (if c.express then e.count (pagePort port + 0x14C) else e) := by
    split
    · exact e.keepsLock_set _ (Nat.ne_of_lt (behind _))
    · exact .refl
  have sent (e : Device) (o : Out) : e.KeepsLock (e.send o) := .of_get rfl rfl
  rw [Device.sendOn]
  split
  · exact .refl
  · exact (numbered _).trans ((Device.keepsLock_count64 _ _ (behind _)).trans ((Device.keepsLock_count64 _ _ (behind _)).trans
      ((express _).trans (sent _ _))))

theorem Device.keepsLock_cellTo (node : Nat) (c : Cell) : d.KeepsLock (d.cellTo node c) := d.keepsLock_sendOn ..

theorem Device.keepsLock_setSeqs (st : Nat) : d.KeepsLock (d.setSeqs st) := by
  refine Device.keepsLock_foldl fun e c _ => e.keepsLock_set _ ?_
  rw [lockWord_eq, pageSeq, coreUnit]
  omega

theorem Device.keepsLock_domainFault (status node : Nat) : d.KeepsLock (d.domainFault status node) := by
  have halted (e : Device) : e.KeepsLock ((e.setHeatState 4).setSeqs 4) :=
    (e.keepsLock_set _ (by decide)).trans (Device.keepsLock_setSeqs _ 4)
  have reported (e : Device) : e.KeepsLock (e.heatEvent 3 status node) := e.keepsLock_event_above _ _ _ (by decide)
  have stopped (g : HeatCtl → HeatCtl) : d.KeepsLock { d.onHeat g with deferred := [], replayAsked := false } := .of_get rfl rfl
  have cleared (e : Device) (g : SyncUnit → SyncUnit) : e.KeepsLock (e.forgetSlots.onSync g) := .of_get rfl rfl
  exact (stopped _).trans ((halted _).trans ((cleared _ _).trans (reported _)))

theorem Device.keepsLock_reportFault (fault unlock : Bool) : d.KeepsLock (d.reportFault fault unlock) := by
  rw [Device.reportFault, Device.declareFault]
  split
  · split
    · exact (Device.keepsLock_foldl fun e n _ => e.keepsLock_cellTo ..).trans (Device.keepsLock_domainFault ..)
    · exact .refl
  · exact d.keepsLock_cellTo ..

end KeepsLock

/-! ### The lock gained and lost (R254, R255) -/

/-- The time-base pages end with that of the Phievo die, each at a multiple of 0x1000. -/
theorem pageTb_bounds {p : Nat} (h : p < 5) : pageTb p + 0x108 ≤ lockWord ∧ pageTb p % 0x1000 = 0 ∧ lockWord % 0x1000 = 0x108 := by
  rw [lockWord_eq, pageTb, pageDie]
  split <;> omega

section Lock
variable (d : Device) (offset : Int)

theorem Device.keepsLock_tbEvent (b : Nat) : d.KeepsLock (d.tbEvent b offset) :=
  Device.keepsLock_eachTb fun e _ hp => e.keepsLock_event _ _ _ (by obtain ⟨_, _, _⟩ := pageTb_bounds hp; omega)

/-- The page of the Phievo die is the last to be written. -/
theorem Device.setTb_last (hi lo v : Nat) : ∃ e : Device, d.setTb hi lo v = e.setBits lockWord hi lo v := ⟨_, rfl⟩

theorem Device.eachTb_mesh {f : Device → Nat → Device} (h : ∀ e g, (f e g).mesh = e.mesh) : (d.eachTb f).mesh = d.mesh :=
  List.foldlRecOn (motive := fun e => e.mesh = d.mesh) _ _ rfl fun e he _ _ => (h e _).trans he

theorem Device.setTb_mesh (hi lo v : Nat) : (d.setTb hi lo v).mesh = d.mesh := d.eachTb_mesh fun _ _ => rfl

theorem Device.setTb_locked : (d.setTb 0 0 1).locked = true ∧ (d.setTb 0 0 0).locked = false := by
  obtain ⟨e, set⟩ := d.setTb_last 0 0 1
  obtain ⟨f, cleared⟩ := d.setTb_last 0 0 0
  rw [set, cleared]
  exact ⟨e.bit_get_setBits (by decide), f.bit_get_setBits_zero (by decide)⟩

theorem Device.gainLock_locked : (d.gainLock offset).locked = true ∧ (d.gainLock offset).mesh.inLimits = d.mesh.inLimits := by
  have told := (d.setTb 0 0 1).keepsLock_tbEvent offset 0
  obtain ⟨locked, -⟩ := d.setTb_locked
  rw [Device.gainLock]
  exact ⟨told.locked.trans locked, told.inLimits.trans (congrArg MeshState.inLimits (d.setTb_mesh 0 0 1))⟩

/-- The step and the count toward the lock forgotten. -/
def Device.forgetsStep : Device := { d with mesh := { d.mesh with stepped := false, inLimits := 0 } }

theorem Device.loseLock_unlocked : (d.loseLock offset).locked = false ∧ (d.loseLock offset).mesh.inLimits = 0 := by
  have counted (e : Device) : e.KeepsLock (e.eachTb (fun d g => d.count (g + 0x118))) :=
    Device.keepsLock_eachTb fun e p hp => e.keepsLock_set _ (by obtain ⟨_, _, _⟩ := pageTb_bounds hp; omega)
  have told := (counted (d.setTb 0 0 0)).trans (Device.keepsLock_tbEvent _ offset 1)
  obtain ⟨-, unlocked⟩ := d.setTb_locked
  have forgets (e : Device) : e.forgetsStep.locked = e.locked ∧ e.forgetsStep.mesh.inLimits = 0 := ⟨rfl, rfl⟩
  have reported (e : Device) := e.forgetsStep.keepsLock_reportFault false true
  exact ⟨(reported _).locked.trans ((forgets _).1.trans (told.locked.trans unlocked)), (reported _).inLimits.trans (forgets _).2⟩

/-! ### The offsets of a timing message (R252, R254, R266) -/

/-- The device with the offsets of a timing message noted, the worst of them, its count and the steering, the lock not yet judged. -/
def Device.offsetsNoted (d : Device) (master group : Int) : Device :=
  let d := (d.setTb 15 8 (toTwos 8 (clampInt master (-127) 127))).setTb 23 16 (toTwos 8 (clampInt group (-127) 127))
  let worst := Nat.min (Nat.max master.natAbs group.natAbs) 0xFF
  let rate := toTwos 32 (d.steered master)
  (d.eachTb (fun d g => ((d.set (g + 0x110) (Nat.max (d.get (g + 0x110)) worst)).count (g + 0x114)).set (g + 0x10C) rate)).drawn

/-- One more message in the limits. -/
def Device.inLimitsAgain (d : Device) : Device := { d with mesh := { d.mesh with inLimits := d.mesh.inLimits + 1 } }

/-- The lock judged by the offsets: in the limits they count toward it, out of them it is lost. -/
def Device.judgeLock (d : Device) (master group : Int) : Device :=
  if master.natAbs ≤ 20 ∧ group.natAbs ≤ 6 then
    let d := d.inLimitsAgain
    if !d.locked && decide (100 ≤ d.mesh.inLimits) then d.gainLock master else d
  else if d.locked then d.loseLock master
  else { d with mesh := { d.mesh with inLimits := 0 } }

variable (master group : Int)

theorem Device.afterTiming_eq : d.afterTiming master group = (d.offsetsNoted master group).judgeLock master group := by
  unfold Device.afterTiming Device.judgeLock Device.offsetsNoted
  rfl

theorem Device.keepsLock_offsetsNoted : d.KeepsLock (d.offsetsNoted master group) := by
  have field (e : Device) {lo : Nat} (hi v : Nat) (h : 0 < lo) : e.KeepsLock (e.setTb hi lo v) :=
    Device.keepsLock_eachTb fun e p _ => e.keepsLock_setBits _ _ _ h
  have words (e : Device) (worst rate : Nat) : e.KeepsLock (e.eachTb (fun e g =>
      ((e.set (g + 0x110) (Nat.max (e.get (g + 0x110)) worst)).count (g + 0x114)).set (g + 0x10C) rate)) :=
    Device.keepsLock_eachTb fun e p hp => by
      obtain ⟨below, aligned, word⟩ := pageTb_bounds hp
      exact (e.keepsLock_set _ (by omega)).trans ((Device.keepsLock_set _ _ (by omega)).trans (Device.keepsLock_set _ _ (by omega)))
  have drawn (e : Device) : e.KeepsLock e.drawn := .of_get rfl rfl
  unfold Device.offsetsNoted
  exact (field d _ _ (by decide)).trans ((field _ _ _ (by decide)).trans ((words _ _ _).trans (drawn _)))

theorem Device.judgeLock_in (hm : master.natAbs ≤ 20) (hg : group.natAbs ≤ 6) :
    (d.judgeLock master group).mesh.inLimits = d.mesh.inLimits + 1 ∧
      (d.judgeLock master group).locked = (d.locked || decide (100 ≤ d.mesh.inLimits + 1)) := by
  have counted : d.judgeLock master group = if !d.locked && decide (100 ≤ d.mesh.inLimits + 1) then d.inLimitsAgain.gainLock master
      else d.inLimitsAgain := if_pos ⟨hm, hg⟩
  obtain ⟨locked, count⟩ := d.inLimitsAgain.gainLock_locked master
  have again : d.inLimitsAgain.locked = d.locked ∧ d.inLimitsAgain.mesh.inLimits = d.mesh.inLimits + 1 := ⟨rfl, rfl⟩
  rw [counted]
  cases hl : d.locked with
  | true => exact again.symm.imp_right (·.trans hl)
  | false =>
    by_cases hn : 100 ≤ d.mesh.inLimits + 1
    · simp [hn, locked, count, again]
    · simp [hn, hl, again]

theorem Device.judgeLock_out (h : 20 < master.natAbs ∨ 6 < group.natAbs) :
    (d.judgeLock master group).mesh.inLimits = 0 ∧ (d.judgeLock master group).locked = false := by
  rw [Device.judgeLock, if_neg (by omega)]
  split
  next => exact (d.loseLock_unlocked master).symm
  next unlocked => exact ⟨rfl, eq_false_of_ne_true unlocked⟩

end Lock

/-! ### The messages (R254 to R256, R434, R435) -/

/-- The one step of the counters taken, and the count toward the lock begun again. -/
def Device.stepTaken (d : Device) : Device := { d with mesh := { d.mesh with stepped := true, inLimits := 0 } }

section Messages
variable {d : Device}

theorem opTimingSend_master (h : bit (d.get (pageMesh + 0x110)) 31 = true) : opTimingSend d = d := if_pos h

theorem opTimingSend_other (h : bit (d.get (pageMesh + 0x110)) 31 = false) :
    opTimingSend d = d.cellOn (bits (d.get (pageMesh + 0x110)) 2 0) false (.timing 0 d.now 0 0 0 0) := if_neg (ne_true_of_eq_false h)

theorem opTimingSilence_none (h : d.locked = false ∨ bit (d.get (pageMesh + 0x110)) 31 = true) : opTimingSilence d = d :=
  if_pos (by simpa using h)

theorem opTimingSilence_lost (hl : d.locked = true) (hm : bit (d.get (pageMesh + 0x110)) 31 = false) : opTimingSilence d =
    let e := d.loseLock d.masterOffset
    if Config.masterGone e.free && e.heat.started then (e.domainFault stOk 0).drawn else e.drawn := if_neg (by simp [hl, hm])

variable {p : Nat} {f : MeshHdr} {t1 t2 t3 t4 m g : Nat} {e : Device}
  (mine : (d.intake p f (.timing 1 t1 t2 t3 m g)).1 = true)
  (checked : e = (d.intake p f (.timing 1 t1 t2 t3 m g)).2.lateCheck p f 0x08 (tripOf t1 t2 t3 t4))
include mine checked

/-- The first response of an unlocked module without a running plan steps every counter (R254). -/
theorem opTimingResponse_steps (hl : e.locked = false) (hs : e.mesh.stepped = false) (hp : e.planRuns = false) :
    opTimingResponse p f t1 t2 t3 t4 m g d =
      ((e.stepClock (offsetOf t1 t2 t3 t4 + signed 8 m)).afterTiming 0 0).stepTaken := by
  rw [opTimingResponse, Device.onFrame_mine _ mine]
  simp only [← checked, hl, hs, hp, Bool.not_false, Bool.and_self, if_true, Device.stepTaken]

/-- Another one gives the offsets (R254, R435). -/
theorem opTimingResponse_offsets (h : e.locked = true ∨ e.mesh.stepped = true ∨ e.planRuns = true) :
    opTimingResponse p f t1 t2 t3 t4 m g d = e.afterTiming (offsetOf t1 t2 t3 t4 + signed 8 m)
      (if e.node % 16 = 0 then 0 else offsetOf t1 t2 t3 t4 + signed 8 g) := by
  have stays : (!e.mesh.stepped && !e.planRuns && !e.locked) = false := by
    rcases h with h | h | h <;> simp [h]
  rw [opTimingResponse, Device.onFrame_mine _ mine]
  simp only [← checked, stays, Bool.false_eq_true, if_false]

end Messages

/-- Settles O39: each command is its operation on the device, and the lock follows from the offsets. -/
theorem timingMessages : Obligations.TimingMessages := by
  refine ⟨?sends, fun s die => s.onDev_next rfl, ?request, ?response, ?lock⟩
  case sends =>
    intro s d w e
    refine ⟨fun h => s.onDev_same (opTimingSend_master h), fun h => s.onDev_next (opTimingSend_other h), fun hl hm gone started => ?gone,
      fun hl hm stays => ?stays, fun h => s.onDev_same (opTimingSilence_none h)⟩
    case gone => exact s.onDev_next ((opTimingSilence_lost hl hm).trans (if_pos (Bool.and_eq_true_iff.mpr ⟨gone, started⟩)))
    case stays =>
      exact s.onDev_next ((opTimingSilence_lost hl hm).trans (if_neg (Bool.eq_false_iff.mp (Bool.and_eq_false_iff.mpr stays))))
  case request =>
    intro s p f t1 r
    exact ⟨fun other => s.onDev_next (Device.onFrame_other _ other), fun mine => s.onDev_next (Device.onFrame_mine _ mine)⟩
  case response =>
    intro s p f t1 t2 t3 t4 m g r trip late counted
    refine ⟨fun other => s.onDev_next (Device.onFrame_other _ other), ?_⟩
    intro d checked mine own master group e
    refine ⟨fun hl hs hp => ?steps, fun h => ?offsets⟩
    case steps =>
      have stepped : opTimingResponse p.val f t1.toNat t2.toNat t3.toNat t4.toNat m.toNat g.toNat s.part.dev = e.stepTaken :=
        opTimingResponse_steps mine checked hl hs hp
      exact s.onDev_next stepped
    case offsets => exact s.onDev_next (opTimingResponse_offsets mine checked h)
  case lock =>
    intro d master group
    have noted := d.keepsLock_offsetsNoted master group
    rw [d.afterTiming_eq, ← noted.locked, ← noted.inLimits]
    exact ⟨Device.judgeLock_out _ master group, Device.judgeLock_in _ master group⟩

end Sys2Proof.Machine
end

section
/-! SUPPORT. What admission, the end of a copy, a staged adapter and a shard's acknowledgement do in each of their cases, and that a read
takes back nothing that was sent (R300, R323, R326, R328, R330). -/

namespace Sys2Proof.Machine

/-! ### What a die control processor holds -/

@[simp] theorem Device.dieServing_onDie (d : Device) (die : Nat) (f : DieServing → DieServing) :
    (d.onDie die f).dieServing die = f (d.dieServing die) := smapGet_set_same ..

theorem Device.tileCrcEvent_serving (d : Device) (die a : Nat) : (d.tileCrcEvent die a).serving = d.serving :=
  Device.event_serving ..

@[simp] theorem Part.writePieces_dev (p : Part) (dst : Nat) (data : List Byte) (poison : List Nat) :
    (p.writePieces dst data poison).dev = p.dev := p.foldl_writePiece_dev dst data poison _

/-! ### The bank of the next heat (R300, R323, R326) -/

/-- The bank of a die filled, and its class proposed. -/
def Part.proposeClass (p : Part) (die cls : Nat) : Part := p.onDev (fun d =>
  (d.onDie die (fun y => { y with cls := cls, filled := true })).onHeat (fun h => { h with proposals := h.proposals ++ [(die, cls)] }))

/-- The cancels read and the old generation's requests refilled, before the bank is filled. -/
def Part.seeRequests (p : Part) (die : Nat) : Part :=
  ((p.readCancels die).refillOld die).onDev (·.onDie die (fun y => { y with noted := none }))

/-- The bank filled as the kind of the next heat asks, and the class that the die proposes (R215, R216, R326). -/
def Part.fillNext (p : Part) (die : Nat) (q : Plan) : Part :=
  match q.heats[(p.dev.nextProgram q).1]? with
  | none => p.proposeClass die 0
  | some h =>
    if h.kind = 0 then ((p.fillSlots die q h).1.evictLow.showRequests die).proposeClass die (p.fillSlots die q h).2
    else
      let e := p.onDev (·.onDie die (fun y => { y with next := [], adpNext := [], staged := [] }))
      (e.fillBank die (e.dev.nextBank die) [] []).proposeClass die 0

section NextHeat
variable {p : Part} {die : Nat} {q : Plan} {h : HeatEntry}

theorem Part.fillNext_none (hh : q.heats[(p.dev.nextProgram q).1]? = none) : p.fillNext die q = p.proposeClass die 0 := by
  simp only [Part.fillNext, hh]

theorem Part.fillNext_requests (hh : q.heats[(p.dev.nextProgram q).1]? = some h) (hk : h.kind = 0) :
    p.fillNext die q = ((p.fillSlots die q h).1.evictLow.showRequests die).proposeClass die (p.fillSlots die q h).2 := by
  simp only [Part.fillNext, hh, hk, if_true]

theorem Part.fillNext_empty (hh : q.heats[(p.dev.nextProgram q).1]? = some h) (hk : h.kind ≠ 0) :
    let e := p.onDev (·.onDie die (fun y => { y with next := [], adpNext := [], staged := [] }))
    p.fillNext die q = (e.fillBank die (e.dev.nextBank die) [] []).proposeClass die 0 := by
  simp only [Part.fillNext, hh, hk, if_false]

end NextHeat

section Bank
variable {p o : Part} {die : Nat} {space : List Nat} {q : Plan} (offered : p.onDev (·.addSpace die space) = o)
  (plan : o.dev.heat.plan = some q) (started : o.dev.heat.started = true) (fresh : o.dev.heat.proposals.any (fun e => e.1 == die) = false)
include offered plan started fresh

/-- A replay leaves the bank as it was filled (R323). -/
theorem opAdmission_replay (hr : o.dev.replaying = true) (hf : (o.dev.dieServing die).filled = true) :
    opAdmission die space p = o.proposeClass die (o.dev.dieServing die).cls := by
  simp only [opAdmission, offered, plan, started, fresh, hr, hf, Bool.not_true, Bool.or_self, Bool.and_self, Bool.false_eq_true, if_false,
    if_true, Part.proposeClass]

/-- Where no replay holds a filled bank, the requests are seen to and the bank is filled (R326). -/
theorem opAdmission_fills (fills : o.dev.replaying = false ∨ (o.dev.dieServing die).filled = false) :
    opAdmission die space p = (o.seeRequests die).fillNext die q := by
  have unfilled : (o.dev.replaying && (o.dev.dieServing die).filled) = false := Bool.and_eq_false_iff.mpr fills
  simp only [opAdmission, offered, plan, started, fresh, unfilled, Bool.not_true, Bool.or_self, Bool.false_eq_true, if_false]
  rfl

end Bank

/-! ### A copy complete (R300) -/

section CopyDone
variable {p o e : Part} {die : Nat} {space : List Nat} {c : PageCopy} {l : List PageCopy} (offered : p.onDev (·.addSpace die space) = o)
  (oldest : (o.dev.dieServing die).copies = c :: l) (taken : o.onDev (·.onDie die (fun y => { y with copies := l })) = e)
include offered oldest taken

/-- A copy whose sequence has ended gives its page back. -/
theorem opCowCopyDone_gone (hx : e.dev.sequence c.seq = none) : opCowCopyDone die space p = e.onDev (·.dropPage c.target) := by
  simp only [opCowCopyDone, offered, oldest, taken, hx]

/-- Any other is made, and named in its list. -/
theorem opCowCopyDone_copied {x : Sequence} (hx : e.dev.sequence c.seq = some x) :
    opCowCopyDone die space p = (e.copyPage x c).onDev (fun d =>
      (d.onSequence c.seq (·.onList c.lslot (fun l => { l with ents := listSet l.ents c.index (listEntry c.target false) }))).count
        (pagePst die + 0x16C)) := by
  simp only [opCowCopyDone, offered, oldest, taken, hx]

end CopyDone

/-! ### An adapter staged (R328) -/

/-- Tiles found bad leave what the die control processors hold. -/
theorem Device.foldl_tileCrcEvent_serving (d : Device) (die a : Nat) (l : List TileUse) :
    (l.foldl (fun d _ => d.tileCrcEvent die a) d).serving = d.serving :=
  List.foldlRecOn (motive := fun e : Device => e.serving = d.serving) l _ rfl fun e he _ _ => (e.tileCrcEvent_serving die a).trans he

/-- A listed slot counts as staged. -/
theorem opAdapterStageDone_staged {p : Part} {die i slot : Nat} (clean : p.mem.ecc = [])
    (listed : (p.dev.dieServing die).adpNext[i]? = some slot) :
    ((opAdapterStageDone die i p).dev.dieServing die).staged = setInsert (p.dev.dieServing die).staged i := by
  have kept (d e : Device) (h : e.serving = d.serving) : e.dieServing die = d.dieServing die := by
    rw [Device.dieServing, h, Device.dieServing]
  simp only [opAdapterStageDone, listed, Part.touch_clean _ _ _ clean, Part.onDev_dev, Device.dieServing_onDie, Part.writePieces_dev]
  rw [kept _ _ (Device.foldl_tileCrcEvent_serving ..)]

/-! ### A shard's acknowledgement (R330) -/

/-- It is taken off the slot that awaits it, whose sequence starves where the pages were refused. -/
theorem opShardAdmitAck_awaited {d : Device} {die entry holder : Nat} {starved : Bool} {u : SlotUse}
    (awaited : (d.dieServing die).next.find? (fun u => u.entry == entry && u.awaited.contains holder) = some u) :
    let e := d.onDie die (fun y => { y with next := y.next.map (fun v =>
      if v = u then { v with awaited := setErase v.awaited holder, overflow := v.overflow || starved } else v) })
    opShardAdmitAck die entry holder starved d = if starved then e.starve u.seq else e := by
  simp only [opShardAdmitAck, awaited]

/-! ### What was sent stays sent -/

section Sent
variable (d : Device)

theorem Device.sent_prefix_notifyEvent (page b : Nat) : d.sent <+: (d.notifyEvent page b).sent := by
  have told {e f : Device} (on : Bool) (h : e.sent <+: f.sent) : e.sent <+: (if on then f else e).sent := by
    cases on
    · exact List.prefix_rfl
    · exact h
  have sends (e : Device) (on : Bool) (o : Out) : e.sent <+: (if on then e.send o else e).sent := told on (List.prefix_append ..)
  exact (sends d _ _).trans ((sends _ _ _).trans ((sends _ _ _).trans ((sends _ _ _).trans (told _ (List.prefix_append ..)))))

theorem Device.sent_prefix_raise (page b : Nat) : d.sent <+: (d.raise page b).sent := by
  simp only [Device.raise]
  split
  · exact List.prefix_rfl
  · split
    · exact (d.set _ _).sent_prefix_notifyEvent page b
    · exact List.prefix_rfl

@[simp] theorem Device.capture_sent (page : Nat) (words : List Nat) : (d.capture page words).sent = d.sent := by
  simp only [Device.capture, apply_ite Device.sent, Device.set_sent, Device.setWords_sent, ite_self]

theorem Device.sent_prefix_event (page b word0 : Nat) (rest : List Nat) : d.sent <+: (d.event page b word0 rest).sent := by
  rw [Device.event, Device.capture_sent]
  exact d.sent_prefix_raise page b

theorem Device.sent_prefix_record (unit cls status page : Nat) (unstressed : Bool) :
    d.sent <+: (d.record unit cls status page unstressed).sent := by
  have counted {e : Device} {c : Prop} [Decidable c] {off : Nat} (h : d.sent <+: e.sent) :
      d.sent <+: (if c then e.count off else e).sent := by
    split
    · exact h
    · exact h
  rw [Device.record]
  refine List.foldlRecOn (motive := fun e => d.sent <+: Device.sent e) _ _ ?_ fun e he c _ => ?_
  · exact counted (counted List.prefix_rfl)
  · exact he.trans ((e.count _).sent_prefix_event ..)

theorem Device.sent_prefix_corrected (a : Nat) : d.sent <+: (d.corrected a).sent := (d.count _).sent_prefix_event ..

theorem Device.sent_prefix_uncorrected (a : Nat) : d.sent <+: (d.uncorrected a).sent := by
  have told (off : Nat) : d.sent <+: ((d.count off).memEvent a 1 stPoisoned).sent := (d.count off).sent_prefix_event ..
  rw [Device.uncorrected]
  split
  · exact (told _).trans (Device.sent_prefix_record ..)
  · split
    · exact (told _).trans (Device.sent_prefix_record ..)
    · exact told _

theorem Device.sent_prefix_parityMiss (a : Nat) (u : Detector) : d.sent <+: (d.parityMiss a u).sent := by
  have told (off b word0 : Nat) (rest : List Nat) : d.sent <+: ((d.count off).event (pageMem (parityDie u)) b word0 rest).sent :=
    (d.count off).sent_prefix_event ..
  rw [Device.parityMiss]
  split
  · exact (told ..).trans (Device.sent_prefix_record ..)
  · exact told ..

end Sent

section Reads
variable (p : Part)

theorem Part.sent_prefix_decodeWord (k : Nat) : p.dev.sent <+: (p.decodeWord k).dev.sent := by
  rw [Part.decodeWord]
  split
  · exact List.prefix_rfl
  · split
    · exact p.dev.sent_prefix_corrected _
    · exact p.dev.sent_prefix_uncorrected _
    · exact p.dev.sent_prefix_parityMiss _ _
    · exact List.prefix_rfl

/-- Operations one after another that each take back nothing. -/
theorem Part.sent_prefix_foldl {α : Type} {f : Part → α → Part} (h : ∀ e x, e.dev.sent <+: (f e x).dev.sent) (l : List α) :
    p.dev.sent <+: (l.foldl f p).dev.sent :=
  List.foldlRecOn (motive := fun e => p.dev.sent <+: (Part.dev e).sent) l f List.prefix_rfl fun e he x _ => he.trans (h e x)

theorem Part.sent_prefix_touch (a n : Nat) : p.dev.sent <+: (p.touch a n).dev.sent := by
  rw [Part.touch]
  split
  · exact List.prefix_rfl
  · exact p.sent_prefix_foldl Part.sent_prefix_decodeWord _

theorem Part.sent_prefix_touchAll (l : List (Nat × Nat)) : p.dev.sent <+: (p.touchAll l).dev.sent :=
  p.sent_prefix_foldl (f := fun (e : Part) (r : Nat × Nat) => e.touch r.1 r.2) (fun e r => e.sent_prefix_touch r.1 r.2) l

theorem Part.sent_prefix_patch (a : Nat) (data : List Byte) : p.dev.sent <+: (p.patch a data).dev.sent := by
  rw [Part.patch, Part.writePieces_dev]
  exact p.sent_prefix_touch _ _

theorem Part.sent_prefix_touchInput (u : SlotUse) : p.dev.sent <+: (p.touchInput u).dev.sent := by
  rw [Part.touchInput]
  split
  · exact List.prefix_rfl
  · split
    · exact p.sent_prefix_touch _ _
    · exact p.sent_prefix_touchAll _

theorem Part.sent_prefix_fillDescriptor (a : Nat) (x : Sequence) (u : SlotUse) : p.dev.sent <+: (p.fillDescriptor a x u).dev.sent := by
  rw [Part.fillDescriptor]
  split
  · exact List.prefix_rfl
  · exact (p.sent_prefix_patch _ _).trans ((Part.sent_prefix_patch _ _ _).trans (Part.sent_prefix_patch _ _ _))

/-- A slot's entry filled: its reads may report errors, and take back nothing. -/
theorem Part.sent_prefix_fillEntry (die bank : Nat) (adapters : List Nat) (u : SlotUse) :
    p.dev.sent <+: (p.fillEntry die bank adapters u).dev.sent := by
  have read (a : Nat) : p.dev.sent <+: ((p.touch a 32).touchInput u).dev.sent :=
    (p.sent_prefix_touch a 32).trans (Part.sent_prefix_touchInput _ u)
  have described (e : Part) (x : Option Sequence) (a : Nat) :
      e.dev.sent <+: (match x with | some x => e.fillDescriptor a x u | none => e).dev.sent := by
    cases x with
    | none => exact List.prefix_rfl
    | some x => exact e.sent_prefix_fillDescriptor a x u
  have entered (e : Part) (c : Prop) [Decidable c] (a : Nat) (data : List Byte) :
      (if c then e else e.writePieces a data []).dev = e.dev := by
    rw [apply_ite Part.dev, Part.writePieces_dev, ite_self]
  rw [Part.fillEntry, entered]
  exact (read _).trans ((Part.sent_prefix_patch _ _ _).trans (described _ _ _))

end Reads

/-- A holding module answers the home module, whatever it could grant (R330). -/
theorem opShardAdmitNote_answers (die entry kind ntok pos pages home record : Nat) (p : Part) :
    ∃ starved, .shardAck home die entry starved ∈ (opShardAdmitNote die entry kind ntok pos pages home record p).dev.sent := by
  rw [opShardAdmitNote]
  exact ⟨_, (Part.sent_prefix_fillEntry ..).subset (List.mem_append_right _ (List.mem_singleton_self _))⟩

/-- Settles O33: each command is its operation on the module, whose cases are the lemmas above. -/
theorem admission : Obligations.Admission := by
  refine ⟨?fill, ?copy, ?stage, ?ack, ?note⟩
  case fill =>
    intro s die space q p propose plan started fresh
    refine ⟨fun hr hf => ?_, fun fills => ?_⟩
    · exact s.onPart_next (opAdmission_replay rfl plan started fresh hr hf)
    · intro p1
      have filled {p' : Part} (h : p1.fillNext die.val q = p') : exec (.admission die space) s = .next (s.withPart p') :=
        s.onPart_next ((opAdmission_fills rfl plan started fresh fills).trans h)
      exact ⟨fun hh => filled (Part.fillNext_none hh), fun h hh =>
        ⟨fun hk => filled (Part.fillNext_requests hh hk), fun hk => filled (Part.fillNext_empty hh hk)⟩⟩
  case copy =>
    intro s die space c l p p1 oldest
    refine ⟨fun hx => ?_, fun x hx => ?_⟩
    · exact s.onPart_next (opCowCopyDone_gone rfl oldest rfl hx)
    · exact s.onPart_next (opCowCopyDone_copied rfl oldest rfl hx)
  case stage =>
    intro s die i slot listed clean
    exact ⟨_, s.onPart_eq _, opAdapterStageDone_staged clean listed⟩
  case ack =>
    intro s die entry holder starved u d awaited e
    exact s.onDev_next (opShardAdmitAck_awaited awaited)
  case note =>
    intro s die entry kind ntok pos pages home record
    obtain ⟨starved, answered⟩ := opShardAdmitNote_answers die.val entry.val kind.val ntok.toNat pos.toNat pages home.toNat
      (record.toNat % 8192) s.part
    refine ⟨_, starved, s.onPart_eq _, ?_⟩
    dsimp only
    exact answered

end Sys2Proof.Machine
end

section
/-! SUPPORT. What the commands on request records do in each of their cases: a notify, a found record of each kind refused or accepted, and
the end of an adapter's load (R317 to R319, R338, R341 to R343). -/

namespace Sys2Proof.Machine

/-! ### A record submitted (R317) -/

/-- A notify of the counter of a tenant with one record, in STATE 1 and not taken up before, finds that record. -/
theorem opSubmitNotify_finds {p e : Part} {die o t r : Nat}
    (dropped : p.onDev (·.onSync (fun u => { u with notify := dropFirst (fun n => n == (die, o)) u.notify })) = e) (clean : e.mem.ecc = [])
    (counter : e.submitTenant o = some t) (one : e.recRange t = (r, 1)) (inTable : r < 8192) (owner : recordDie r = die)
    (submitted : e.mem.nat (e.dev.recAddr r + 0x80) 1 = 1) (idle : e.dev.request r = none)
    (unseen : (e.dev.dieServing die).found.any (fun f => f.1 == r) = false) :
    opSubmitNotify die o p = e.findRecord r t ((((smapFind e.dev.sync.objs o).bind (·.lastSig)).map (·.2)).getD 0) := by
  have taken : (r < 8192 && recordDie r == die && e.mem.nat (e.dev.recAddr r + 0x80) 1 == 1 && (e.dev.request r).isNone &&
      !((e.dev.dieServing die).found.any (fun f => f.1 == r))) = true := by
    simp [inTable, owner, submitted, idle, unseen]
  simp only [opSubmitNotify, dropped, e.touch_clean _ _ clean, counter, one, List.range_one, List.map_cons, List.map_nil, Nat.add_zero,
    List.foldl_cons, List.foldl_nil, ite_self, taken, if_true]

/-! ### Control records found (R318, R338, R342, R343)

Each is refused with the status of its check, or accepted with its effect; `Option.elim` keeps the two beside each other. -/

section Control
variable {p o : Part} {r t arrive : Nat} {c : RecCopy} (read : p.touchRecord r = o)
include read

/-- An adapter load is refused too where its tenant holds as many adapters as it may. -/
theorem opAdapterLoadRecord_found (found : o.foundRecord r 1 = some (t, arrive, c)) :
    let refused st := (o.refuseRecord r t arrive st c).onDev (·.adapterFailed r st c)
    opAdapterLoadRecord r p = (o.recordProblem r t c).elim
      (if o.mem.nat (o.dev.tenSrv t + 8) 2 ≤ o.adaptersHeld t then refused stTenant else (o.acceptRecord r t arrive c id).startLoad r)
      refused := by
  simp only [opAdapterLoadRecord, read, found]
  cases o.recordProblem r t c <;> rfl

theorem opAdapterRetireRecord_found (found : o.foundRecord r 2 = some (t, arrive, c)) :
    let slots := (List.range 1024).filter (fun s => o.adpState s == 2 && o.adpIs s (rcAdapter c) t)
    opAdapterRetireRecord r p = (o.recordProblem r t c).elim
      ((slots.foldl (fun p s => p.setAdpState s 3) o).completeRecord r t arrive c) (fun st => o.refuseRecord r t arrive st c) := by
  simp only [opAdapterRetireRecord, read, found]
  cases o.recordProblem r t c <;> rfl

theorem opGrammarInstallRecord_found (found : o.foundRecord r 3 = some (t, arrive, c)) :
    let e := o.touch (rcPrompt c) 64
    opGrammarInstallRecord r p = (o.recordProblem r t c).elim
      ((e.setGrammar (rcGrammarId c) (leBytes 8 (rcPrompt c) ++ leBytes 4 (e.mem.nat (rcPrompt c + 4) 4) ++ leBytes 1 t ++
        [1, 0, 0])).completeRecord r t arrive c) (fun st => o.refuseRecord r t arrive st c) := by
  simp only [opGrammarInstallRecord, read, found]
  cases o.recordProblem r t c <;> rfl

theorem opGrammarRemoveRecord_found (found : o.foundRecord r 4 = some (t, arrive, c)) :
    opGrammarRemoveRecord r p = (o.recordProblem r t c).elim ((o.acceptRecord r t arrive c id).removeGrammar r)
      (fun st => o.refuseRecord r t arrive st c) := by
  simp only [opGrammarRemoveRecord, read, found]
  cases o.recordProblem r t c <;> rfl

end Control

/-! ### A generate record found (R319) -/

/-- The sequence that a generate record asks for, read with its prompt. -/
def Part.promptSequence (p : Part) (r t : Nat) (c : RecCopy) : Sequence :=
  let nshard := bits (p.dev.get (pageKv + 0x10C)) 4 0
  let gen := p.dev.get (pageBlt + 0x100)
  { seqId := p.dev.newSeqId, tenant := t, die := recordDie r, dir := 0, ovf := 0, striped := decide (1 < nshard), modelGen := gen
    shard := p.dev.node % 16 % nshard, nshard := nshard
    digests := digestChain (p.dev.scopeKey t) gen (List.replicate 16 0) ((promptBlocks p.mem c).map (·.1)) }

/-- The sequence with its digest chain in the free memory offered, none where that does not hold them. -/
def Part.grantSequence (p : Part) (r t : Nat) (c : RecCopy) : Option Part :=
  (p.newSequence r (p.promptSequence r t c)).bind (·.writeChain (recordDie r) (p.promptSequence r t c).digests)

section Generate
variable {p o e : Part} {r t arrive : Nat} {space : List Nat} {c : RecCopy}
  (read : (p.onDev (·.addSpace (recordDie r) space)).touchRecord r = o) (found : o.foundRecord r 0 = some (t, arrive, c))
include read found

theorem opGenerateRecord_refused {st : Nat} (problem : o.recordProblem r t c = some st) :
    opGenerateRecord r space p = o.refuseRecord r t arrive st c := by
  simp only [opGenerateRecord, read, found, problem]

variable (passes : o.recordProblem r t c = none) (prompt : o.touch (rcPrompt c) (4 * rcPromptLen c) = e)
include passes prompt

/-- It stays found while the memory offered does not hold its sequence. -/
theorem opGenerateRecord_waits (short : e.grantSequence r t c = none) : opGenerateRecord r space p = e := by
  rw [Part.grantSequence, Part.promptSequence] at short
  simp only [opGenerateRecord, read, found, passes, prompt, short]

/-- Without an adapter and without prefix caching it is accepted with no hits, and published. -/
theorem opGenerateRecord_granted {e1 e2 : Part} (granted : e.grantSequence r t c = some e1) (base : rcAdapter c = 0)
    (accepted : (e1.acceptRecord r t arrive c (fun q =>
      { q with seqId := e.dev.newSeqId, adpSlot := 0xFFFF, gstate := rcGstart c, draftNext := rcDraftMax c })).onDev (·.drawn) = e2)
    (uncached : e2.dev.pfxOn = false) (prompted : 0 < rcPromptLen c) : opGenerateRecord r space p = e2.publish r 0 := by
  have unread : ¬ rcPromptLen c ≤ 256 * 0 := Nat.not_le.mpr prompted
  rw [Part.grantSequence, Part.promptSequence] at granted
  simp only [opGenerateRecord, read, found, passes, prompt, granted, base, accepted, uncached, unread, Bool.false_eq_true, if_true,
    if_false]

end Generate

/-! ### An adapter loaded (R342) -/

/-- An image whose tiles and digest verify is copied to its slot, which becomes ready at the next commit. -/
theorem opAdapterLoadDone_verified {p e : Part} {r slot : Nat} {q : Request}
    (ended : p.onDev (·.onServing (fun v => { v with loads := v.loads.filter (fun l => l.1 != r) })) = e)
    (loading : p.dev.serving.loads.find? (fun l => l.1 == r) = some (r, slot)) (request : p.dev.request r = some q) (clean : e.mem.ecc = [])
    (own : (imageUse e.mem (rcPrompt q.copy) (rcPromptLen q.copy) q.tenant).any (·.stranger) = false)
    (whole : (imageUse e.mem (rcPrompt q.copy) (rcPromptLen q.copy) q.tenant).filter (·.crcFail) = [])
    (digest : sha256 (e.mem.read (rcPrompt q.copy) (64 * rcPromptLen q.copy)) = rcHash q.copy) :
    opAdapterLoadDone r p = (e.copyGranules (rcPrompt q.copy) (e.dev.adpImage slot) (rcPromptLen q.copy)).onDev
      (·.onServing (fun v => { v with ready := v.ready ++ [(r, slot)] })) := by
  have unmarked : e.onDev (fun d => d) = e := rfl
  simp only [opAdapterLoadDone, loading, request, ended, e.touch_clean _ _ clean, own, whole, digest, List.length_nil, List.range_zero,
    List.foldl_nil, unmarked, bne_self_eq_false, Bool.or_self, Bool.false_eq_true, if_false, if_true]

/-- Settles O34: each command is its operation on the module, whose cases are the lemmas above. -/
theorem requestRecords : Obligations.RequestRecords := by
  refine ⟨?notify, ?refused, ?accepted, ?generate, ?loaded⟩
  case notify =>
    intro s die o t r p clean counter one inTable owner submitted idle unseen
    exact s.onPart_next (opSubmitNotify_finds rfl clean counter one inTable owner submitted idle unseen)
  case refused =>
    intro s r t arrive st c p problem answer
    refine ⟨fun found => ?load, fun found => ?retire, fun found => ?install, fun found => ?remove⟩
    case load => exact s.onPart_next ((opAdapterLoadRecord_found rfl found).trans (by rw [problem, Option.elim_some]))
    case retire => exact s.onPart_next ((opAdapterRetireRecord_found rfl found).trans (by rw [problem, Option.elim_some]))
    case install => exact s.onPart_next ((opGrammarInstallRecord_found rfl found).trans (by rw [problem, Option.elim_some]))
    case remove => exact s.onPart_next ((opGrammarRemoveRecord_found rfl found).trans (by rw [problem, Option.elim_some]))
  case accepted =>
    intro s r t arrive c p passes
    refine ⟨fun found room => ?load, fun found full => ?full, fun found => ?retire, fun found => ?install, fun found => ?remove⟩
    case load => exact s.onPart_next ((opAdapterLoadRecord_found rfl found).trans (by rw [passes, Option.elim_none, if_neg (Nat.not_le.mpr room)]))
    case full => exact s.onPart_next ((opAdapterLoadRecord_found rfl found).trans (by rw [passes, Option.elim_none, if_pos full]))
    case retire => exact s.onPart_next ((opAdapterRetireRecord_found rfl found).trans (by rw [passes, Option.elim_none]))
    case install => exact s.onPart_next ((opGrammarInstallRecord_found rfl found).trans (by rw [passes, Option.elim_none]))
    case remove => exact s.onPart_next ((opGrammarRemoveRecord_found rfl found).trans (by rw [passes, Option.elim_none]))
  case generate =>
    intro s r space t arrive c p0 found
    refine ⟨fun st problem => ?_, fun passes base => ?_⟩
    · exact s.onPart_next (opGenerateRecord_refused rfl found problem)
    · intro p d nshard gen chain x granted
      refine ⟨fun short => ?_, fun p1 full uncached prompted => ?_⟩
      · exact s.onPart_next (opGenerateRecord_waits rfl found passes rfl short)
      · exact s.onPart_next (opGenerateRecord_granted rfl found passes rfl full base rfl uncached prompted)
  case loaded =>
    intro s r slot q p len src loading request clean own whole digest
    exact s.onPart_next (opAdapterLoadDone_verified rfl loading request clean own whole digest)

end Sys2Proof.Machine
end

section
/-! SUPPORT. What the billet controller does in each of its cases: a fetch begun, a request without an answer, the verification and the
shard given up, and the state that a failed check leaves (R359 to R361, R374, R380, R382). -/

namespace Sys2Proof.Machine

/-! ### BLT_STATE (R380) -/

theorem Device.bltState_setBlt (d : Device) {st : Nat} (h : st < 8) : (d.setBlt st).bltState = st := by
  rw [Device.bltState, Device.setBlt, Device.setBits, Device.get_set_same, bits_mod_two_pow (by decide), bits_withBits]
  exact Nat.mod_eq_of_lt h

/-- An event of the billet page leaves its state. -/
@[simp] theorem Device.bltState_bltEvent (d : Device) (b status check sect layer : Nat) :
    (d.bltEvent b status check sect layer).bltState = d.bltState :=
  congrArg (bits · 2 0) (d.get_event _ _ _ (by decide) (by decide))

theorem Device.bltState_verifyFails (d : Device) (check sect layer : Nat) : (d.verifyFails check sect layer).bltState = 5 := by
  rw [Device.verifyFails, Device.bltState_bltEvent, Device.bltState_setBlt _ (by decide)]

/-! ### A fetch begun (R359) -/

/-- BLT_STATE is not fetching, verifying or replacing, as BILLET_FETCH asks of it. -/
theorem not_fetchBusy_iff {st : Nat} : [1, 2, 4].contains st = false ↔ st ≠ 1 ∧ st ≠ 2 ∧ st ≠ 4 := by
  simp

section Fetch
variable {p q : Part} {agent : Nat} (read : p.touch (p.dev.get64 (pageBlt + 0x118) % 2 ^ 40) 64 = q)
include read

theorem opBilletFetch_busy (busy : ¬(q.dev.bltState ≠ 1 ∧ q.dev.bltState ≠ 2 ∧ q.dev.bltState ≠ 4)) :
    opBilletFetch agent p = q.onDev (·.refuseCtrl pageBlt 2 agent) := by
  have busy : [1, 2, 4].contains q.dev.bltState = true := Bool.of_not_eq_false (mt not_fetchBusy_iff.mp busy)
  simp only [opBilletFetch, read, if_pos busy]

variable (free : q.dev.bltState ≠ 1 ∧ q.dev.bltState ≠ 2 ∧ q.dev.bltState ≠ 4)
include free

theorem opBilletFetch_poisoned (poisoned : q.mem.poisoned (p.dev.get64 (pageBlt + 0x118) % 2 ^ 40) 64 = true) :
    opBilletFetch agent p = q.onDev (·.failFetch stPoisoned) := by
  simp only [opBilletFetch, read, not_fetchBusy_iff.mpr free, poisoned, Bool.false_eq_true, if_false, if_true]

variable (sound : q.mem.poisoned (p.dev.get64 (pageBlt + 0x118) % 2 ^ 40) 64 = false)
include sound

theorem opBilletFetch_refused (refused : q.dev.acceptsLoad (q.mem.read (p.dev.get64 (pageBlt + 0x118) % 2 ^ 40) 64) = false) :
    opBilletFetch agent p = q.onDev (·.refuseCtrl pageBlt 2 agent) := by
  simp only [opBilletFetch, read, not_fetchBusy_iff.mpr free, sound, refused, Bool.not_false, Bool.false_eq_true, if_false, if_true]

/-- The descriptor's fields are held, and the requests begin. -/
theorem opBilletFetch_begins {e : List Byte} (descriptor : q.mem.read (p.dev.get64 (pageBlt + 0x118) % 2 ^ 40) 64 = e)
    (accepted : q.dev.acceptsLoad e = true) :
    opBilletFetch agent p = q.onDev (fun d =>
      ((d.onBillet (fun b => { b with kind := field e 2 1, tenant := field e 3 1, length := field e 8 8, object := field e 0x10 16
                                      sha := (e.drop 0x20).take 32, reqs := [], nextReq := 0 })).setBlt 1).goOnFetch) := by
  simp only [opBilletFetch, read, not_fetchBusy_iff.mpr free, sound, descriptor, accepted, Bool.not_true, Bool.false_eq_true, if_false]

end Fetch

/-! ### A request without an answer (R359) -/

section Timeout
variable {d : Device} {i : Nat}

theorem opFetchTimeout_none (absent : d.billet.reqs.find? (fun r => r.index == i) = none) : opFetchTimeout i d = d := by
  simp only [opFetchTimeout, absent]

/-- It is sent again until it has been three times, and then the fetch fails. -/
theorem opFetchTimeout_out {r : FetchReq} (out : d.billet.reqs.find? (fun r => r.index == i) = some r) :
    let e := d.reach (r.sent + 100000000)
    opFetchTimeout i d = if r.again < 3 then
        ((e.onBillet (fun b => { b with
          reqs := b.reqs.map (fun q => if q.index = i then { q with got := 0, again := q.again + 1, sent := e.now } else q) })).count
            (pageBlt + 0x134)).sendFetch i
      else e.failFetch stTimeout := by
  simp only [opFetchTimeout, out]

end Timeout

/-! ### The verification (R360, R361, R374) -/

section Verification
variable {p e : Part}

theorem opShardVerifyDone_other (other : p.dev.bltState ≠ 2) : opShardVerifyDone p = p := by
  simp only [opShardVerifyDone, bne_iff_ne, if_pos other]

variable (verifying : p.dev.bltState = 2) (read : p.touch p.dev.stageRegion p.dev.billet.length = e)
include verifying read

theorem opShardVerifyDone_fails {n i layer : Nat} (failed : e.dev.shardFailure e.mem = some (n, i, layer)) :
    opShardVerifyDone p = e.onDev (·.verifyFails n i layer) := by
  simp only [opShardVerifyDone, verifying, read, failed, bne_self_eq_false, Bool.false_eq_true, if_false]

/-- A shard that passes is staged for a replacement, installed where the module holds its weights, or programmed. -/
theorem opShardVerifyDone_passes {q : Part} (passes : e.dev.shardFailure e.mem = none)
    (reported : e.onDev (·.bltEvent 0 stOk 0 0 0) = q) :
    let b := p.dev.stageRegion
    let h := readHead q.mem b
    let l := readSections q.mem b q.dev.billet.length
    opShardVerifyDone p = if q.dev.billet.kind = 1 then q.onDev (·.setBlt 3)
      else if q.dev.toProgram h l = [] then q.installShard q.dev.now
      else (((layersOf l).filter (fun k => q.dev.toProgram h (l.filter (fun s => s.layer == k)) != [])).foldl
        (fun p k => p.copyLayer b k l) q).onDev (fun d => (d.onBillet (fun x => { x with todo := q.dev.toProgram h l })).setBlt 4) := by
  simp only [opShardVerifyDone, verifying, read, passes, reported, bne_self_eq_false, Bool.false_eq_true, if_false]

end Verification

/-- Settles O46: each command is its operation on the module or the device, whose cases are the lemmas above. -/
theorem billetLoad : Obligations.BilletLoad := by
  refine ⟨fun s agent => ?fetch, fun s i => ?timeout, fun s => ?verification, Device.bltState_verifyFails, fun s agent => ?abandon⟩
  case fetch =>
    intro a p e free
    refine ⟨fun other => s.onPart_same (Part.written_other _ _ other), fun processor => ?_⟩
    have write {q : Part} (h : opBilletFetch agent.toNat s.part = q) : exec (.billetFetch agent) s = .next (s.withPart q) :=
      s.onPart_next ((Part.written_processor _ _ processor).trans h)
    exact ⟨fun busy => write (opBilletFetch_busy rfl busy),
      fun hf poisoned => write (opBilletFetch_poisoned rfl hf poisoned),
      fun hf sound refused => write (opBilletFetch_refused rfl hf sound refused),
      fun hf sound accepted => write (opBilletFetch_begins rfl hf sound rfl accepted)⟩
  case timeout =>
    refine ⟨fun absent => s.onDev_same (opFetchTimeout_none absent), fun r out => ⟨fun again => ?_, fun last => ?_⟩⟩
    · exact s.onDev_next ((opFetchTimeout_out out).trans (if_pos again))
    · exact s.onDev_next ((opFetchTimeout_out out).trans (if_neg (Nat.not_lt.mpr last)))
  case verification =>
    intro b p q h l
    refine ⟨fun other => s.onPart_same (opShardVerifyDone_other other),
      fun n i layer verifying failed => s.onPart_next (opShardVerifyDone_fails verifying rfl failed), fun verifying passes => ?_⟩
    have verified := opShardVerifyDone_passes verifying rfl passes rfl
    refine ⟨fun staged => ?_, fun load held => ?_, fun load todo => ?_⟩
    · exact s.onPart_next (verified.trans (if_pos staged))
    · exact s.onPart_next (verified.trans ((if_neg load).trans (if_pos held)))
    · exact s.onPart_next (verified.trans ((if_neg load).trans (if_neg todo)))
  case abandon =>
    refine ⟨fun processor staged => s.onDev_written processor (if_pos staged), fun h => s.onDev_same ?_⟩
    cases processor : isProcessor agent.toNat with
    | false => exact Device.written_other _ _ processor
    | true =>
      have other : s.part.dev.bltState ≠ 3 := h.resolve_left (by simp [processor])
      exact (Device.written_processor _ _ processor).trans (if_neg other)

end Sys2Proof.Machine
end

section
/-! SUPPORT. The canonical form of memory as a property of the module, and the rules by which the operations of transfers, streams
and walks keep it: each proof follows the operations that its definition is made of (R385, R386, R391). -/

namespace Sys2Proof.Machine

/-- The module's memory is in its canonical form. -/
def Part.Canonical (p : Part) : Prop := p.mem.wf = true

/-! ### Rules -/

section Rules
variable {p q : Part} (h : p.Canonical)
include h

theorem Part.Canonical.onDev {f : Device → Device} : (p.onDev f).Canonical := h

theorem Part.Canonical.withDev {d : Device} : ({ p with dev := d } : Part).Canonical := h

theorem Part.Canonical.onMem {f : Memory → Memory} (hf : p.mem.wf = true → (f p.mem).wf = true) : (p.onMem f).Canonical := hf h

theorem Part.Canonical.pair {α : Type} {x : α} : (p, x).1.Canonical := h

/-- The codeword errors and the writebacks are no part of the form. -/
theorem Part.Canonical.marks {e : Memory → SMap Ecc} {w : Memory → List Writeback} :
    (p.onMem (fun m => { m with ecc := e m, writebacks := w m })).Canonical := h

theorem Part.Canonical.arise {faults : EccFaults} : (p.onMem (·.arise faults)).Canonical := h

theorem Part.Canonical.ite {c : Prop} {dec : Decidable c} (hq : q.Canonical) : (if c then p else q).Canonical := by
  split
  · exact h
  · exact hq

theorem Part.Canonical.foldl {α : Type} {f : Part → α → Part} {l : List α} (hf : ∀ {q x}, q.Canonical → (f q x).Canonical) :
    (l.foldl f p).Canonical := Part.wf_foldl f (fun _ _ => hf) l h

theorem Part.Canonical.written {agent : Nat} {f : Part → Part} (hf : (f p).Canonical) : (p.written agent f).Canonical := hf.ite h

theorem Part.Canonical.write {a : Nat} {data : Memory → List Byte} {arrives : Memory → List Nat} :
    (p.onMem (fun m => m.write a (data m) (arrives m))).Canonical := Memory.wf_write _ _ _ h

theorem Part.Canonical.clear {lo hi : Nat} : (p.onMem (·.clear lo hi)).Canonical := Memory.wf_clear _ _ h

theorem Part.Canonical.clearStores {cores : List Nat} : (p.onMem (·.clearStores cores)).Canonical := Memory.wf_clearStores _ h

theorem Part.Canonical.decodeWord {k : Nat} : (p.decodeWord k).Canonical := Part.wf_decodeWord k h

theorem Part.Canonical.touch {a n : Nat} : (p.touch a n).Canonical := Part.wf_touch a n h

theorem Part.Canonical.touchAll {l : List (Nat × Nat)} : (p.touchAll l).Canonical := Part.wf_touchAll l h

theorem Part.Canonical.writePieces {a : Nat} {data : List Byte} {bad : List Nat} : (p.writePieces a data bad).Canonical :=
  Part.wf_writePieces a data bad h

theorem Part.Canonical.put {a : Nat} {data : List Byte} {bad : Bool} {agent : Nat} : (p.put a data bad agent).Canonical :=
  Part.wf_put a data bad agent h

theorem Part.Canonical.patch {a : Nat} {data : List Byte} : (p.patch a data).Canonical := Part.wf_patch a data h

theorem Part.Canonical.seal {a header tenant format source : Nat} : (p.seal a header tenant format source).Canonical :=
  Part.wf_seal a header tenant format source h

theorem Part.Canonical.coreWrite {c a : Nat} {data : List Byte} {bad : List Nat} : (p.coreWrite c a data bad).Canonical := h.write

theorem Part.Canonical.copyGranules {src dst n : Nat} : (p.copyGranules src dst n).Canonical := h.writePieces

end Rules

theorem Part.Canonical.ite_fst {α : Type} {r s : Part × α} {c : Prop} {dec : Decidable c} (hr : r.1.Canonical) (hs : s.1.Canonical) :
    (if c then r else s).1.Canonical := by
  split
  · exact hr
  · exact hs

/-- The module that a pair names is the pair's first. -/
theorem Part.Canonical.fst {α : Type} {q : Part} {r : Part × α} {x : α} (hr : r.1.Canonical) (e : r = (q, x)) : q.Canonical := by
  rwa [e] at hr

/-! ### Transfers and streams (R188, R190, R241, R616 to R618) -/

section Streams
variable {p : Part} (h : p.Canonical)
include h

theorem Part.Canonical.startTransfer {c idx : Nat} {x : XferWord} : (p.startTransfer c idx x).Canonical := .ite h.onDev h.touch.onDev

theorem opXferWord_canonical {c : Nat} : (opXferWord c p).Canonical := by
  rw [opXferWord]
  split
  · exact h
  · split
    · exact h.withDev
    · exact .ite h.withDev (.startTransfer h.withDev)

theorem Part.Canonical.landHere {t : Transfer} : (p.landHere t).Canonical :=
  .ite h.onDev (.ite h.onDev (.ite h.writePieces.onDev.onDev h.writePieces.onDev))

theorem Part.Canonical.deliverTransfer {t : Transfer} : (p.deliverTransfer t).Canonical := .ite h.landHere h.onDev

theorem opTransferDone_canonical {place : Nat} : (opTransferDone place p).Canonical := by
  rw [opTransferDone]
  split
  · exact h
  · exact .ite h h.onDev.deliverTransfer.onDev

theorem opPlanLoadDone_canonical : (opPlanLoadDone p).Canonical := by
  rw [opPlanLoadDone]
  split
  · exact h
  · exact .ite h (.ite h.touch.onDev.onDev h.touch.onDev.onDev)

theorem Part.Canonical.fetchInto {q : Plan} {heat level c : Nat} : (p.fetchInto q heat level c).Canonical :=
  have read : (p.touchStream q heat level c).Canonical := h.touch.touch
  read.onDev.onDev.ite read.onDev

theorem opStreamFetch_canonical {c : Nat} : (opStreamFetch c p).Canonical := by
  rw [opStreamFetch]
  split
  · exact h
  · exact .ite h h.fetchInto

end Streams

/-! ### Walks (R280 to R299) -/

section Walks
variable {p : Part} (h : p.Canonical)
include h

theorem Part.Canonical.touchJob {k word entry : Nat} : (p.touchJob k word entry).Canonical := h.touch.touchAll

/-- The list read: every granule that it reads is checked, and nothing is written. -/
theorem Part.Canonical.readList {dir s : Nat} : (p.readList dir s).1.Canonical := by
  have dirs {a : Nat} : ((p.touch dir 64).touch a 64).Canonical := h.touch.touch
  simp only [Part.readList, apply_ite Prod.fst, ite_self]
  exact .ite dirs (.ite dirs (.ite dirs.touch (.ite dirs.touch dirs.touch.touch)))

theorem Part.Canonical.endDescriptor {j : WalkJob} {status pages : Nat} : (p.endDescriptor j status pages).Canonical := h.patch

theorem Part.Canonical.dropSlot {die entry : Nat} : (p.dropSlot die entry).Canonical := .ite h h.patch.onDev

theorem Part.Canonical.endWalk {j : WalkJob} {status pages : Nat} : (p.endWalk j status pages).Canonical :=
  h.put.endDescriptor.dropSlot.onDev

theorem Part.Canonical.endPoisoned {j : WalkJob} {pages : Nat} : (p.endPoisoned j pages).Canonical := h.endWalk.onDev

theorem Part.Canonical.endPoisonedAt {j : WalkJob} : (p.endPoisonedAt j).Canonical := h.dropSlot.onDev

theorem Part.Canonical.writeScales {j : WalkJob} {s : Snapshot} {v : PageVisit} {page : Nat} {bad : Bool} :
    (p.writeScales j s v page bad).Canonical := .ite h h.writePieces.writePieces

theorem Part.Canonical.appendHead {j : WalkJob} {n page t k tenant kind : Nat} {codes : List Nat} {bad : Bool} :
    (p.appendHead j n page t k tenant kind codes bad).Canonical := .ite h.writePieces.seal h.writePieces

theorem Part.Canonical.appendPage {j : WalkJob} {s : Snapshot} {v : PageVisit} {n : Nat} : (p.appendPage j s v n).Canonical :=
  .onDev (.foldl h.writeScales fun h => h.appendHead)

theorem Part.Canonical.setOverflowFull {dir : Nat} {on : Bool} : (p.setOverflowFull dir on).Canonical := h.patch

theorem Part.Canonical.spill {j : WalkJob} {s : Snapshot} : (p.spill j s).Canonical := h.writePieces.setOverflowFull

theorem Part.Canonical.touchPage {j : WalkJob} {n : Nat} {v : PageVisit} : (p.touchPage j n v).Canonical :=
  .foldl (.foldl h.touch.touch fun h => h.touch) fun h => h.touch.touch

/-- A page visited: its granules are checked, and its new rows appended. -/
theorem Part.Canonical.visitPage {j : WalkJob} {s : Snapshot} {v : PageVisit} {r : WalkRun} : (p.visitPage j s v r).1.Canonical := by
  have read {n : Nat} : (p.touchPage j n v).Canonical := h.touchPage
  simp only [Part.visitPage, apply_ite Prod.fst]
  exact .ite h.onDev (.ite read (.ite read.onDev (.ite read.onDev (.ite read (.ite read.onDev (.ite read.onDev.appendPage read.onDev))))))

theorem Part.Canonical.visitAll {j : WalkJob} {s : Snapshot} {l : List PageVisit} {r : WalkRun} :
    (Part.visitAll j s l r p).1.Canonical := by
  induction l generalizing r p with
  | nil => exact h
  | cons v l ih =>
    have visited : (p.visitPage j s v r).1.Canonical := h.visitPage
    rw [Part.visitAll]
    split
    next visit => exact ih (visited.fst visit)
    next visit => exact visited.fst visit

theorem Part.Canonical.deliver {j : WalkJob} {s : Snapshot} {r : WalkRun} : (p.deliver j s r).Canonical :=
  have spilt : (if j.takesSpill s && j.desc.appends then p.spill j s else p).Canonical := .ite h.spill h
  .onDev (.endDescriptor (.put (.ite spilt.setOverflowFull spilt)))

theorem Part.Canonical.streamWalk {j : WalkJob} {s : Snapshot} : (p.streamWalk j s).Canonical := by
  have visited {l : List (Nat × Nat)} : (Part.visitAll j s (j.visits s) {} (p.touchAll l)).1.Canonical := h.touchAll.visitAll
  rw [Part.streamWalk]
  split
  next visit => exact (visited.fst visit).deliver
  next visit => exact (visited.fst visit).onDev.endWalk
  next visit => exact (visited.fst visit).onDev.endPoisoned

theorem Part.Canonical.leaveOut {k idx : Nat} {entries : List Nat} : (p.leaveOut k idx entries).Canonical :=
  .foldl h fun h => h.dropSlot.onDev

theorem Part.Canonical.walkEntry {k : Nat} {op : AttnOp} {e : Nat} : (p.walkEntry k op e).1.Canonical := by
  have read {dir s : Nat} : ((p.touchJob k op.word e).readList dir s).1.Canonical := h.touchJob.readList
  simp only [Part.walkEntry, apply_ite Prod.fst]
  refine .ite h.touchJob.endPoisonedAt ?_
  split
  next list =>
    have listed := read.fst list
    rw [apply_ite Prod.fst]
    exact .ite listed.endPoisoned listed.onDev.endWalk
  next list => exact (read.fst list).onDev
  next list =>
    have listed := read.fst list
    rw [apply_ite Prod.fst]
    exact .ite listed.leaveOut listed.onDev.streamWalk

theorem Part.Canonical.settleWord {k : Nat} {op : AttnOp} {rest : List AttnOp} : (p.settleWord k op rest).Canonical := h.onDev

theorem opWalk_canonical {k : Nat} {errors : EccFaults} : (opWalk k errors p).Canonical := by
  rw [opWalk]
  split
  · exact h.arise
  · refine .ite h.arise.onDev ?_
    split
    · exact h.arise.onDev
    · exact h.arise.walkEntry.settleWord

theorem Part.Canonical.retryWalk {k : Nat} {r : WalkRetry} {left : Nat} : (p.retryWalk k r left).Canonical := by
  have read {dir s : Nat} : ((p.touchJob k r.word r.entry).readList dir s).1.Canonical := h.touchJob.readList
  rw [Part.retryWalk]
  split
  next list =>
    have listed := read.fst list
    exact .ite listed.onDev.endPoisoned listed.onDev.endWalk
  next list => exact (read.fst list).onDev.endWalk
  next list =>
    have listed := read.fst list
    exact .ite listed.leaveOut (.ite listed.onDev.onDev.streamWalk listed.endWalk)

theorem opWalkRetry_canonical {k : Nat} : (opWalkRetry k p).Canonical := by
  rw [opWalkRetry]
  split
  · exact h
  · split
    · exact h.onDev.retryWalk
    · exact .ite h.onDev.endWalk h

end Walks
end Sys2Proof.Machine
end

section
/-! SUPPORT. The page store, the tree of shared pages, request records and the sampler keep the canonical form of memory (R277 to R345, R386). -/

namespace Sys2Proof.Machine

/-! ### Lists and sequences (R277, R278, R294 to R296) -/

section Lists
variable {p q : Part} (h : p.Canonical)
include h

theorem Part.Canonical.clearPage {n : Nat} : (p.clearPage n).Canonical := h.clear.clear

theorem Part.Canonical.applyGrant {x : Sequence} {g : Grant} : (p.applyGrant x g).Canonical := h.clearPage.onDev.writePieces.onDev

theorem Part.Canonical.writeList {x : Sequence} {s addr gen length : Nat} {ents : List Nat} :
    (p.writeList x s addr gen length ents).Canonical := h.writePieces.writePieces

theorem Part.Canonical.writePointer {x : Sequence} {s addr : Nat} : (p.writePointer x s addr).Canonical := h.patch

theorem Part.Canonical.writeDirectory {x : Sequence} : (p.writeDirectory x).Canonical := h.writePieces

theorem Part.Canonical.publishList {k s length : Nat} : (p.publishList k s length).Canonical := by
  rw [Part.publishList]
  split
  · exact h
  · split
    · exact h
    · split
      · exact .ite h h.writeList.onDev
      · split
        · exact h
        · exact h.writeList.writePointer.onDev

theorem Part.Canonical.publish {k length : Nat} : (p.publish k length).Canonical := by
  rw [Part.publish]
  split
  · exact h
  · exact .writeDirectory (.onDev (.foldl (.onDev (.foldl h fun h => h.applyGrant)) fun h => h.publishList))

theorem Part.Canonical.newSequence {k : Nat} {x : Sequence} (made : p.newSequence k x = some q) : q.Canonical := by
  rw [Part.newSequence] at made
  split at made
  · split at made
    · cases made
    · cases made
      exact .foldl h.onDev.writePieces.writeDirectory.writePieces fun h => h.writeList.writePointer
  · cases made

end Lists

/-! ### The tree of shared pages (R301 to R306) -/

section Tree
variable {p : Part} (h : p.Canonical)
include h

theorem Part.Canonical.pfxHit {k i : Nat} : (p.pfxHit k i).Canonical := h.patch.patch.onDev

theorem Part.Canonical.lookups {k tenant gen hits : Nat} {l : List (List Byte × List Byte × Nat)} :
    (p.lookups k tenant gen hits l).1.Canonical := by
  induction l generalizing p hits with
  | nil => exact h
  | cons b l ih =>
    rw [Part.lookups]
    split
    · exact h
    · refine .ite_fst (.ite_fst (ih h.withDev) h.withDev.pair) ?_
      extract_lets read
      have checked : read.Canonical := h.onDev.touchAll
      split
      · exact checked.pair
      · exact .ite_fst checked.touch.pair (.ite_fst checked.touch.onDev.pair (ih checked.touch.pfxHit))

theorem Part.Canonical.pfxRemove {i : Nat} : (p.pfxRemove i).Canonical := h.patch.onDev

theorem Part.Canonical.pfxWrite {k i b set : Nat} {digest tokens : List Byte} : (p.pfxWrite k i b set digest tokens).Canonical := by
  rw [Part.pfxWrite]
  split
  · exact h
  · exact .onDev (.foldl h.writePieces.writePieces fun h => h.patch)

theorem Part.Canonical.pfxInsert {k b : Nat} {digest tokens : List Byte} : (p.pfxInsert k b digest tokens).Canonical := by
  rw [Part.pfxInsert]
  split
  · exact h
  · refine .ite h (.ite h.onDev ?_)
    split
    · exact h.onDev
    · split
      · exact h
      · exact .pfxWrite (.ite h.onDev.pfxRemove h.onDev)

theorem Part.Canonical.evictFor {die pool waited n : Nat} : (Part.evictFor die pool waited n p).Canonical := by
  induction n generalizing p with
  | zero => exact h
  | succ n ih =>
    rw [Part.evictFor]
    refine .ite h ?_
    split
    · exact ih h.pfxRemove
    · exact h

theorem Part.Canonical.evictLow : p.evictLow.Canonical := .foldl h fun h => h.evictFor

theorem Part.Canonical.pfxRelease {i : Nat} : (p.pfxRelease i).Canonical := .ite h (.ite h.patch.pfxRemove h.patch)

theorem Part.Canonical.pfxNewGeneration : p.pfxNewGeneration.Canonical := .foldl h fun h => .ite h.pfxRemove h

theorem Part.Canonical.dropSequence {k : Nat} : (p.dropSequence k).Canonical := by
  rw [Part.dropSequence]
  split
  · exact h
  · exact .onDev (.foldl h fun h => h.pfxRelease)

end Tree

/-! ### Copies (R300) -/

section Copies
variable {p : Part} (h : p.Canonical)
include h

theorem Part.Canonical.copyPage {x : Sequence} {c : PageCopy} : (p.copyPage x c).Canonical :=
  .foldl h.applyGrant.copyGranules.patch fun h => h.copyGranules.copyGranules

theorem opCowCopyDone_canonical {die : Nat} {space : List Nat} : (opCowCopyDone die space p).Canonical := by
  rw [opCowCopyDone]
  split
  · exact h.onDev
  · dsimp only
    split
    · exact h.onDev.onDev.onDev
    · exact h.onDev.onDev.copyPage.onDev

end Copies

/-! ### Requests (R315 to R320) -/

section Requests
variable {p q : Part} (h : p.Canonical)
include h

theorem Part.Canonical.writeRequest {r : Nat} {x : Request} : (p.writeRequest r x).Canonical := h.writePieces

theorem Part.Canonical.updateRequest {r : Nat} {f : Request → Request} : (p.updateRequest r f).Canonical := by
  rw [Part.updateRequest]
  split
  · exact h.onDev.writeRequest
  · exact h

theorem Part.Canonical.refuseRecord {r t arrive status : Nat} {c : RecCopy} : (p.refuseRecord r t arrive status c).Canonical :=
  h.writeRequest.onDev

theorem Part.Canonical.setAdpRefs {s n : Nat} : (p.setAdpRefs s n).Canonical := h.patch

theorem Part.Canonical.setAdpState {s st : Nat} : (p.setAdpState s st).Canonical := h.patch.onDev

theorem Part.Canonical.freeAdapter {s : Nat} : (p.freeAdapter s).Canonical := h.setAdpState.writePieces

theorem Part.Canonical.endRequest {r reason status : Nat} : (p.endRequest r reason status).Canonical := by
  rw [Part.endRequest]
  split
  · exact h
  · exact .onDev (.ite h.writeRequest.dropSequence h.writeRequest.dropSequence.setAdpRefs)

theorem Part.Canonical.findRecord {r t arrive : Nat} : (p.findRecord r t arrive).Canonical :=
  .ite h.touch.refuseRecord (.ite h.touch.refuseRecord h.touch.onDev)

theorem opSubmitNotify_canonical {die o : Nat} : (opSubmitNotify die o p).Canonical := by
  rw [opSubmitNotify]
  split
  · exact h.onDev.touch
  · refine .foldl h.onDev.touch fun {q r} h => ?_
    have seen : (if (r < 8192 && recordDie r == die) = true then q.touch (q.dev.recAddr r + 0x80) 64 else q).Canonical := .ite h.touch h
    exact .ite seen.findRecord seen

theorem Part.Canonical.touchRecord {r : Nat} : (p.touchRecord r).Canonical := h.touch.touchAll

theorem Part.Canonical.acceptRecord {r t arrive : Nat} {c : RecCopy} {f : Request → Request} :
    (p.acceptRecord r t arrive c f).Canonical := h.writePieces.writeRequest.onDev

theorem Part.Canonical.completeRecord {r t arrive : Nat} {c : RecCopy} : (p.completeRecord r t arrive c).Canonical :=
  h.acceptRecord.endRequest

theorem Part.Canonical.writeChain {die : Nat} {chain : List (List Byte)} (made : p.writeChain die chain = some q) : q.Canonical := by
  rw [Part.writeChain] at made
  split at made
  · cases made
    exact h
  · split at made
    · cases made
    · cases made
      exact h.onDev.writePieces

/-- A sequence and its digests written. -/
theorem Part.Canonical.newChain {k die : Nat} {x : Sequence} {chain : List (List Byte)}
    (made : (p.newSequence k x).bind (·.writeChain die chain) = some q) : q.Canonical := by
  obtain ⟨e, he, hq⟩ := Option.bind_eq_some_iff.mp made
  exact (h.newSequence he).writeChain hq

theorem opGenerateRecord_canonical {r : Nat} {space : List Nat} : (opGenerateRecord r space p).Canonical := by
  rw [opGenerateRecord]
  split
  · exact h.onDev.touchRecord
  · split
    · exact h.onDev.touchRecord.refuseRecord
    · dsimp only
      split
      · exact h.onDev.touchRecord.touch
      next made =>
        have accepted {t arrive : Nat} {c : RecCopy} {f : Request → Request} {g : Device → Device} :=
          ((h.onDev.touchRecord.touch.newChain made).acceptRecord (r := r) (t := t) (arrive := arrive) (c := c) (f := f)).onDev (f := g)
        exact .publish (.ite (.onDev (.ite_fst (.lookups (.ite accepted accepted.setAdpRefs)) (.ite accepted accepted.setAdpRefs)))
          (.ite_fst (.lookups (.ite accepted accepted.setAdpRefs)) (.ite accepted accepted.setAdpRefs)))

theorem Part.Canonical.startLoad {r : Nat} : (p.startLoad r).Canonical := by
  rw [Part.startLoad]
  split
  · exact h.writePieces.onDev
  · exact h

theorem opAdapterLoadRecord_canonical {r : Nat} : (opAdapterLoadRecord r p).Canonical := by
  rw [opAdapterLoadRecord]
  split
  · split
    · exact .ite h.touchRecord.startLoad h.touchRecord
    · exact h.touchRecord
  · split
    · exact h.touchRecord.refuseRecord.onDev
    · exact .ite h.touchRecord.refuseRecord.onDev h.touchRecord.acceptRecord.startLoad

theorem opAdapterLoadDone_canonical {r : Nat} : (opAdapterLoadDone r p).Canonical := by
  rw [opAdapterLoadDone]
  split
  · have copied {a n src dst k : Nat} {f g : Device → Device} : ((((p.onDev f).touch a n).onDev g).copyGranules src dst k).Canonical :=
      h.onDev.touch.onDev.copyGranules
    exact .ite copied.onDev copied.freeAdapter.onDev.endRequest
  · exact h

theorem Part.Canonical.setAdpStates {l : List Nat} {st : Nat} : (l.foldl (fun p s => p.setAdpState s st) p).Canonical :=
  .foldl h fun h => h.setAdpState

theorem Part.Canonical.commitAdapters : p.commitAdapters.Canonical := by
  refine .foldl (.foldl (.foldl h.onDev fun {q l} h => ?_) fun h => h.freeAdapter) fun h => h.startLoad
  split
  · exact h
  · exact h.setAdpStates.setAdpState.onDev.endRequest

theorem opAdapterRetireRecord_canonical {r : Nat} : (opAdapterRetireRecord r p).Canonical := by
  rw [opAdapterRetireRecord]
  split
  · exact h.touchRecord
  · split
    · exact h.touchRecord.refuseRecord
    · exact h.touchRecord.setAdpStates.completeRecord

theorem Part.Canonical.setGrammar {g : Nat} {e : List Byte} : (p.setGrammar g e).Canonical := h.patch.onDev

theorem opGrammarInstallRecord_canonical {r : Nat} : (opGrammarInstallRecord r p).Canonical := by
  rw [opGrammarInstallRecord]
  split
  · exact h.touchRecord
  · split
    · exact h.touchRecord.refuseRecord
    · exact h.touchRecord.touch.setGrammar.completeRecord

theorem Part.Canonical.removeGrammar {r : Nat} : (p.removeGrammar r).Canonical := by
  rw [Part.removeGrammar]
  split
  · exact .ite h h.setGrammar.endRequest
  · exact h

theorem opGrammarRemoveRecord_canonical {r : Nat} : (opGrammarRemoveRecord r p).Canonical := by
  rw [opGrammarRemoveRecord]
  split
  · exact h.touchRecord.removeGrammar
  · split
    · exact h.touchRecord.refuseRecord
    · exact h.touchRecord.acceptRecord.removeGrammar

end Requests

/-! ### The sampler (R334 to R345) -/

section Sampler
variable {p : Part} (h : p.Canonical)
include h

theorem Part.Canonical.writeDrafts {r : Nat} {l : List Nat} : (p.writeDrafts r l).Canonical := h.patch

theorem Part.Canonical.writeSampled {r : Nat} {x : Sampled} : (p.writeSampled r x).Canonical := h.patch

theorem Part.Canonical.touchSampling {r : Nat} {q : Request} {drafts : List Nat} : (p.touchSampling r q drafts).Canonical := by
  rw [Part.touchSampling]
  refine .ite h.touchAll ?_
  dsimp only
  split
  · exact h.touchAll.touch
  · exact .foldl h.touchAll.touch.touch fun h => h.touchAll

theorem Part.Canonical.sampleSlot {c die : Nat} {w : SampleWord} {s : SlotEntry} {row : Nat} : (p.sampleSlot c die w s row).Canonical := by
  rw [Part.sampleSlot]
  refine .ite h ?_
  split
  · exact h
  · exact .ite h.touchSampling.touchAll.writeSampled.onDev h.touchSampling.touchAll.writeSampled.onDev.writeDrafts.onDev

theorem opSampleWord_canonical {c : Nat} : (opSampleWord c p).Canonical := by
  rw [opSampleWord]
  split
  · exact h
  · refine .ite h.withDev ?_
    dsimp only
    split
    · exact h.withDev
    · exact .foldl h.withDev fun h => h.sampleSlot

end Sampler

/-! ### Admission (R323 to R330) -/

theorem Gather.generation_canonical {die r : Nat} {q : Request} {g : Gather} (h : g.part.Canonical) :
    (Gather.generation die g r q).part.Canonical := by
  rw [Gather.generation]
  split
  · exact h
  · dsimp only
    split
    · split
      · exact h
      · exact h.withDev
    · exact h

theorem Gather.chunks_canonical {die limit r n start : Nat} {q : Request} {g : Gather} (h : g.part.Canonical) :
    (Gather.chunks die limit r q n start g).part.Canonical := by
  induction n generalizing start g with
  | zero => exact h
  | succ n ih =>
    rw [Gather.chunks]
    split
    · split
      · exact h
      · split
        · exact h
        · dsimp only
          split
          · exact h.onDev
          · exact ih h.withDev
    · exact h

theorem Gather.prefill_canonical {die cls r : Nat} {e : HeatEntry} {q : Request} {g : Gather} (h : g.part.Canonical) :
    (Gather.prefill die cls e g r q).part.Canonical := by
  rw [Gather.prefill]
  split
  · exact h
  · exact Gather.chunks_canonical h

/-- Requests gathered one after another leave memory as it is. -/
theorem Gather.foldl_canonical {α : Type} {f : Gather → α → Gather} {l : List α} {g : Gather} (h : g.part.Canonical)
    (hf : ∀ {g x}, g.part.Canonical → (f g x).part.Canonical) : (l.foldl f g).part.Canonical :=
  List.foldlRecOn (motive := fun g => Part.Canonical (Gather.part g)) l f h fun _ h _ _ => hf h

section Admission
variable {p : Part} (h : p.Canonical)
include h

theorem Part.Canonical.feedStarved {l : List Nat} : (Part.feedStarved l p).Canonical := by
  induction l generalizing p with
  | nil => exact h
  | cons k l ih =>
    rw [Part.feedStarved]
    split
    · refine .ite (ih h) ?_
      dsimp only
      split
      · exact h
      · exact ih h.withDev
    · exact ih h

theorem Part.Canonical.fillDescriptor {a : Nat} {x : Sequence} {u : SlotUse} : (p.fillDescriptor a x u).Canonical :=
  .ite h h.patch.patch.patch

theorem Part.Canonical.touchInput {u : SlotUse} : (p.touchInput u).Canonical := by
  rw [Part.touchInput]
  split
  · exact h
  · exact .ite h.touch h.touchAll

theorem Part.Canonical.fillEntry {die bank : Nat} {adapters : List Nat} {u : SlotUse} : (p.fillEntry die bank adapters u).Canonical := by
  have described {x : Option Sequence} {a : Nat} {q : Part} (h : q.Canonical) :
      (match x with | some x => q.fillDescriptor a x u | none => q).Canonical := by
    cases x with
    | none => exact h
    | some x => exact h.fillDescriptor
  have entered {a b k : Nat} {data : List Byte} {x : Option Sequence} :=
    described (x := x) (a := k) (((h.touch (a := a) (n := 32)).touchInput (u := u)).patch (a := b) (data := data))
  exact .ite entered entered.writePieces

theorem Part.Canonical.emptyEntry {die bank e : Nat} : (p.emptyEntry die bank e).Canonical := h.patch

theorem Part.Canonical.fillBank {die bank : Nat} {slots : List SlotUse} {adapters : List Nat} :
    (p.fillBank die bank slots adapters).Canonical :=
  .patch (.foldl (.foldl h.touch fun h => h.emptyEntry) fun h => h.fillEntry)

theorem Part.Canonical.readCancels {die : Nat} : (p.readCancels die).Canonical :=
  .foldl h fun h => .ite h.touchAll.endRequest (.ite h.touchAll.onDev h.touchAll)

theorem Part.Canonical.refillOld {die : Nat} : (p.refillOld die).Canonical :=
  .foldl h fun h => .ite h (.updateRequest (.onDev (.onDev (.foldl h fun h => h.pfxRelease))))

theorem Part.Canonical.fillSlots {die : Nat} {q : Plan} {e : HeatEntry} : (p.fillSlots die q e).1.Canonical := by
  have fed : (Part.feedStarved p.dev.serving.starved p).Canonical := h.feedStarved
  exact .pair (.fillBank (.onDev (Gather.foldl_canonical (Gather.foldl_canonical fed Gather.generation_canonical) Gather.prefill_canonical)))

theorem Part.Canonical.showRequests {die : Nat} : (p.showRequests die).Canonical := .foldl h fun h => h.writeRequest

theorem opAdmission_canonical {die : Nat} {space : List Nat} : (opAdmission die space p).Canonical := by
  rw [opAdmission]
  dsimp only
  split
  · exact h.onDev
  · refine .ite h.onDev (.ite h.onDev.onDev ?_)
    split
    · exact h.onDev.readCancels.refillOld.onDev.onDev
    · exact .ite h.onDev.readCancels.refillOld.onDev.fillSlots.evictLow.showRequests.onDev
        h.onDev.readCancels.refillOld.onDev.onDev.fillBank.onDev

theorem Part.Canonical.shardLookups {k blocks : Nat} : (p.shardLookups k blocks).Canonical := by
  rw [Part.shardLookups]
  split
  · exact h
  · exact .ite h (.foldl h fun h => h.onDev.lookups)

theorem Part.Canonical.getD {o : Option Part} (ho : ∀ q, o = some q → q.Canonical) : (o.getD p).Canonical := by
  cases o with
  | none => exact h
  | some q => exact ho q rfl

theorem opShardAdmitNote_canonical {die entry kind ntok pos pages home record : Nat} :
    (opShardAdmitNote die entry kind ntok pos pages home record p).Canonical := by
  have renewed : (if pos = 0 then p.dropSequence (shardKey home record) else p).Canonical := .ite h.dropSequence h
  exact .fillEntry (.onDev (.withDev (.ite renewed (.shardLookups (.getD renewed fun _ made => renewed.newSequence made)))))

theorem opAdapterStageDone_canonical {die i : Nat} : (opAdapterStageDone die i p).Canonical := by
  rw [opAdapterStageDone]
  split
  · exact h
  · exact h.touch.touch.onDev.writePieces.onDev

theorem Part.Canonical.withdrawSlots {die : Nat} {late : List SlotUse} : (p.withdrawSlots die late).Canonical :=
  .foldl h.onDev fun h => h.emptyEntry

theorem Part.Canonical.lateSlots {die : Nat} : (p.lateSlots die).Canonical :=
  h.withdrawSlots.onDev.withdrawSlots.onDev.withdrawSlots.onDev

theorem opDieArrive_canonical {die : Nat} : (opDieArrive die p).Canonical := .ite (.onDev (.ite h.onDev h.onDev.lateSlots)) h

end Admission
end Sys2Proof.Machine
end

section
/-! SUPPORT. Billets, programming, the engines of a core and the boundary of a heat keep the canonical form of memory (R163 to R220,
R352 to R377, R386). -/

namespace Sys2Proof.Machine

/-! ### Billets (R352 to R361, R374) -/

section Billets
variable {p : Part} (h : p.Canonical)
include h

theorem Part.Canonical.shardData {a n : Nat} : (p.shardData a n).Canonical := by
  rw [Part.shardData]
  refine .ite h.onDev ?_
  dsimp only
  split
  · exact h.onDev.onDev
  · exact h.onDev

theorem opBilletFetch_canonical {agent : Nat} : (opBilletFetch agent p).Canonical :=
  .ite h.touch.onDev (.ite h.touch.onDev (.ite h.touch.onDev h.touch.onDev))

theorem Part.Canonical.copyLayer {b layer : Nat} {l : List Section} : (p.copyLayer b layer l).Canonical :=
  .foldl h fun h => h.touch.write

theorem Part.Canonical.enterLayer {s : ShardHead} {l : List Section} {ks : List Nat} : (Part.enterLayer s l ks p).Canonical := by
  induction ks generalizing p with
  | nil => exact h
  | cons k ks ih => exact .ite (ih h.onDev) h.copyLayer.onDev

theorem Part.Canonical.endReplacement : p.endReplacement.Canonical := .ite h.onDev h

theorem Part.Canonical.beginReplacement : p.beginReplacement.Canonical := .ite h.onDev.enterLayer.endReplacement h.onDev

theorem Part.Canonical.nextLayer : p.nextLayer.Canonical := h.onDev.enterLayer.endReplacement

theorem Part.Canonical.markOld : p.markOld.Canonical :=
  .foldl (.foldl h fun h => h.updateRequest) fun h => h.onDev.writeDirectory

theorem Part.Canonical.installShard {tick : Nat} : (p.installShard tick).Canonical := h.onDev.markOld.pfxNewGeneration

theorem opShardVerifyDone_canonical : (opShardVerifyDone p).Canonical := by
  rw [opShardVerifyDone]
  refine .ite h ?_
  dsimp only
  split
  · exact h.touch.onDev
  · exact .ite h.touch.onDev.onDev (.ite h.touch.onDev.installShard (.onDev (.foldl h.touch.onDev fun h => h.copyLayer)))

end Billets

/-! ### Programming (R362 to R372) -/

section Programming
variable {p : Part} (h : p.Canonical)
include h

theorem Part.Canonical.touchSections {b : BatchAnvil} {l : List Section} : (p.touchSections b l).Canonical := by
  refine .foldl h fun h => ?_
  split
  · exact h.touch
  · exact h

theorem Part.Canonical.failReplacement : p.failReplacement.Canonical := .ite h.onDev h

theorem opProgramBatchStart_canonical {die : Nat} {anvils : List Nat} : (opProgramBatchStart die anvils p).Canonical := by
  have read {d : Device} {l : List BatchAnvil} :
      (l.foldl (fun p b => p.touchSections b (shardSections p.mem b.shard)) ({ p with dev := d } : Part)).Canonical :=
    .foldl h.withDev fun h => h.touchSections
  exact .ite h (.ite read.onDev.failReplacement read.onDev)

theorem opProgramRowStep_canonical {die : Nat} {stuck : List StuckCell} : (opProgramRowStep die stuck p).Canonical := by
  rw [opProgramRowStep]
  split
  · exact h
  · exact .ite h h.withDev

theorem Part.Canonical.afterBatch : p.afterBatch.Canonical :=
  .ite h (.ite h.failReplacement (.ite h (.ite h.installShard (.ite h.nextLayer h))))

theorem opProgramBatchDone_canonical {die : Nat} : (opProgramBatchDone die p).Canonical := by
  rw [opProgramBatchDone]
  split
  · exact h
  · exact .ite h h.onDev.afterBatch

end Programming

/-! ### Passes and the vector engine (R174 to R177, R187, R191) -/

section Engines
variable {p : Part} (h : p.Canonical)
include h

theorem opPassWord_canonical {c : Nat} : (opPassWord c p).Canonical := by
  rw [opPassWord]
  split
  · exact h
  · dsimp only
    split
    · exact .onDev (.touch (.foldl h.withDev fun h => h.touch))
    · exact .onDev (.foldl h.withDev fun h => h.touch)

theorem opVector_canonical {c vop : Nat} : (opVector c vop p).Canonical := by
  have run {v : VecWord} : (p.vecRun c v).Canonical := .coreWrite (.touch (.foldl h fun h => h.touch))
  rw [opVector]
  split
  · exact h
  · exact .ite run.onDev h

end Engines

/-! ### The fuller (R157 to R162, R170 to R173, R191) -/

section Fuller
variable {p : Part} (h : p.Canonical)
include h

theorem Part.Canonical.touchInputs {c e : Nat} {t : Tile} : (p.touchInputs c e t).Canonical := .foldl h fun h => h.touch

theorem Part.Canonical.touchOutliers {a : Nat} {l : List (Nat × PassWord)} : (Part.touchOutliers a l p).Canonical := by
  induction l generalizing a p with
  | nil => exact h
  | cons w l ih => exact ih h.touch.touch

theorem Part.Canonical.touchBillet {kind bytes c e : Nat} {t : Tile} : (p.touchBillet kind bytes c e t).Canonical :=
  .foldl h fun h => h.touch

theorem Part.Canonical.adaptA {c e : Nat} {t : Tile} {f : FullWord} : (p.adaptA c e t f).Canonical :=
  .ite h (.foldl h fun h => h.coreWrite)

theorem Part.Canonical.gradPrepare {c : Nat} {f : FullWord} : (p.gradPrepare c f).Canonical := h.coreWrite

theorem Part.Canonical.gradAdapt {c e : Nat} {t : Tile} {f : FullWord} : (p.gradAdapt c e t f).Canonical :=
  .ite h h.coreWrite.onDev.onDev

/-- A word of the fuller keeps the form when its operation on an open tile does. -/
theorem opFuller_canonical {c sub : Nat} {act : Part → Nat → Tile → FullWord → Part} (hact : ∀ {e t f}, (act p e t f).Canonical) :
    (opFuller c sub act p).Canonical := by
  rw [opFuller]
  split
  · exact h
  · refine .ite (.onDev ?_) h
    split
    · exact hact
    · exact h.onDev

theorem opFullOutlier_canonical {c : Nat} : (opFullOutlier c p).Canonical :=
  opFuller_canonical h (.ite h.touchInputs.touchOutliers.onDev h.onDev)

theorem opFullAdaptA_canonical {c : Nat} : (opFullAdaptA c p).Canonical := opFuller_canonical h h.touch.touchInputs.touch.adaptA

theorem opFullAdaptB_canonical {c : Nat} : (opFullAdaptB c p).Canonical :=
  opFuller_canonical h (.ite (.onDev (.foldl h.touch.touch fun h => h.touch)) h.touch.onDev)

theorem opFullRung3_canonical {c : Nat} : (opFullRung3 c p).Canonical := opFuller_canonical h h.touchInputs.touchBillet.onDev

theorem opFullRung4_canonical {c : Nat} : (opFullRung4 c p).Canonical := opFuller_canonical h h.touchInputs.touchBillet.onDev

theorem opFullGradPrep_canonical {c : Nat} : (opFullGradPrep c p).Canonical := by
  rw [opFullGradPrep]
  split
  · exact h
  · exact .ite h.touch.touch.gradPrepare.onDev h

theorem opFullGradRows_canonical {c : Nat} : (opFullGradRows c p).Canonical := opFuller_canonical h (.ite h.touch.touch.touch.onDev h)

theorem opFullGradAdapt_canonical {c : Nat} : (opFullGradAdapt c p).Canonical :=
  opFuller_canonical h (.ite h.touch.touch.touch.gradAdapt h)

end Fuller

/-! ### Reheats and epilogues (R163 to R166, R202, R203) -/

section Tiles
variable {p : Part} (h : p.Canonical)
include h

theorem opReheat_canonical {c : Nat} : (opReheat c p).Canonical := by
  rw [opReheat]
  dsimp only
  split
  · split
    · refine .ite (.onDev ?_) h.onDev
      split
      · exact h.touchInputs.touchBillet
      · exact h.touchInputs.touchBillet
      · exact h.touchInputs
    · exact h.onDev
  · exact h

theorem opEpilogueStart_canonical {c : Nat} : (opEpilogueStart c p).Canonical := by
  rw [opEpilogueStart]
  dsimp only
  split
  · exact h
  · refine .ite (.onDev (.foldl h.onDev.touch.touch fun h => ?_)) h
    split
    · exact h.touch
    · exact h

theorem opEpilogueDone_canonical {c : Nat} : (opEpilogueDone c p).Canonical := by
  rw [opEpilogueDone]
  split
  · exact h
  · exact h.coreWrite.onDev

end Tiles

/-! ### The boundary of a heat (R199, R294, R306, R320 to R333, R346) -/

theorem Emission.ite_canonical {e f : Emission} {c : Prop} {dec : Decidable c} (he : e.part.Canonical) (hf : f.part.Canonical) :
    (if c then e else f).part.Canonical := by
  split
  · exact he
  · exact hf

theorem Emission.tokens_canonical {c : RecCopy} {l : List Nat} {e : Emission} (h : e.part.Canonical) :
    (Emission.tokens c l e).part.Canonical := by
  induction l generalizing e with
  | nil => exact h
  | cons t l ih =>
    rw [Emission.tokens]
    dsimp only
    refine Emission.ite_canonical ?_ (Emission.ite_canonical ?_ (ih ?_)) <;> exact (Emission.ite_canonical h h.touch).writePieces

section Boundary
variable {p : Part} (h : p.Canonical)
include h

theorem Part.Canonical.eachDie {f : Part → Nat → Part} (hf : ∀ {q die}, q.Canonical → (f q die).Canonical) : (p.eachDie f).Canonical :=
  .foldl h hf

theorem Part.Canonical.renewEntry {k s i : Nat} : (p.renewEntry k s i).Canonical := by
  rw [Part.renewEntry]
  split
  · exact h
  · split
    · exact h
    · exact h.withDev

theorem Part.Canonical.renewRejected {k length reached : Nat} : (p.renewRejected k length reached).Canonical := by
  rw [Part.renewRejected]
  split
  · exact h
  · exact .foldl h fun h => .foldl h fun h => h.renewEntry

theorem Part.Canonical.commitLists {die : Nat} : (p.commitLists die).Canonical := .foldl h fun h => h.onDev.renewRejected.publish

theorem Part.Canonical.commitTree {old : List (Nat × Nat)} : (p.commitTree old).Canonical := by
  refine .foldl h fun h => ?_
  split
  · exact h
  · dsimp only
    split
    · refine .foldl h fun h => ?_
      split
      · exact h.touch.pfxInsert
      · exact h
    · exact .foldl h fun h => h.onDev.pfxInsert

theorem Part.Canonical.takeDrafts {r : Nat} : (p.takeDrafts r).Canonical := h.patch

theorem Part.Canonical.endPoisonedRequest {die r : Nat} {q : Request} {counted : Bool} :
    (p.endPoisonedRequest die r q counted).Canonical := h.onDev.endRequest

theorem Part.Canonical.emitSlot {die start r : Nat} {q : Request} {u : SlotUse} {o : SlotOut} {status : Nat} :
    (p.emitSlot die start r q u o status).Canonical := by
  have emitted {l : List Nat} : (Emission.tokens q.copy l { part := p, copy := q.outCopy, emitted := q.emitted }).part.Canonical :=
    Emission.tokens_canonical h
  exact .ite emitted.takeDrafts.onDev.writeRequest.onDev.endRequest (.ite emitted.takeDrafts.onDev.writeRequest.endRequest
    (.ite emitted.takeDrafts.onDev.writeRequest emitted.takeDrafts.onDev.writeRequest.onDev))

theorem Part.Canonical.commitSlot {die start : Nat} {e : SlotUse × SlotOut} : (p.commitSlot die start e).Canonical := by
  rw [Part.commitSlot]
  split
  · exact h
  · exact .ite h.endPoisonedRequest (.ite h.updateRequest (.ite h.endPoisonedRequest (.ite h.endRequest
      (.emitSlot (.ite h.onDev (.ite h.onDev h))))))

theorem Part.Canonical.commitCancels {die : Nat} : (p.commitCancels die).Canonical := .foldl h fun h => .ite h.onDev.endRequest h

theorem Part.Canonical.checkLatency {die t r : Nat} {q : Request} : (p.checkLatency die t r q).Canonical := by
  have told {b b' : Prop} [Decidable b] [Decidable b'] {g g' : Device → Device} {x : Part} (h : x.Canonical) :
      (if b' then (if b then x.onDev g else x).onDev g' else if b then x.onDev g else x).Canonical := .ite (.onDev (.ite h.onDev h)) (.ite h.onDev h)
  exact .ite (.writeRequest (told h.onDev)) (told h.onDev)

theorem Part.Canonical.latencies {die t : Nat} : (p.latencies die t).Canonical := .foldl h fun h => h.checkLatency

theorem Part.Canonical.takeBank {die cls : Nat} {e : HeatEntry} : (p.takeBank die cls e).Canonical :=
  .onDev (.foldl (.foldl h fun h => h.emptyEntry) fun h => h.fillEntry)

theorem Part.Canonical.commitServing {start : Nat} : (p.commitServing start).Canonical := by
  rw [Part.commitServing]
  refine .commitAdapters (.eachDie (.commitTree (.eachDie (.eachDie h fun h => ?_) fun h => h.commitLists)) fun h => ?_)
  · exact .foldl h fun h => h.touchAll
  · exact .commitCancels (.foldl h fun h => h.commitSlot)

theorem Part.Canonical.undrop {die : Nat} : (p.undrop die).Canonical := .foldl h fun h => .ite h.patch h

theorem Part.Canonical.serveBoundary {start cls : Nat} {replay : Bool} {e : HeatEntry} :
    (p.serveBoundary start cls replay e).Canonical := by
  have served : (if replay = true then p.eachDie (fun p die => p.undrop die) else p.commitServing start).Canonical :=
    .ite (h.eachDie fun h => h.undrop) h.commitServing
  exact .eachDie (.ite served.onDev.onDev (.ite served.onDev (served.onDev.eachDie fun h => h.takeBank))) fun h => h.latencies

theorem Part.Canonical.applyDue {start : Nat} {maint : Bool} : (p.applyDue start maint).Canonical := .foldl h fun h => h.onDev

theorem Part.Canonical.startPrograms {start : Nat} : (p.startPrograms start).Canonical := .ite h.installShard h.onDev

theorem Part.Canonical.loadStream {q : Plan} {x : HeatRun} {old c : Nat} : (Part.loadStream q x old p c).Canonical :=
  .ite h (.onDev (.ite h h.fetchInto))

theorem Part.Canonical.loadStreams {q : Plan} {x : HeatRun} {old : Nat} {l : List Nat} :
    (l.foldl (Part.loadStream q x old) p).Canonical := .foldl h fun h => h.loadStream

theorem Part.Canonical.beginHeat {x : HeatRun} : (p.beginHeat x).Canonical :=
  .ite h.serveBoundary.onDev.beginReplacement h.serveBoundary.onDev

theorem opHeatStart_canonical : (opHeatStart p).Canonical := by
  rw [opHeatStart]
  split
  · refine .ite h ?_
    extract_lets reached due applied started
    have applies : applied.Canonical := by
      unfold applied
      split
      · exact .ite h.onDev.applyDue.applyDue h.onDev.applyDue
      · exact h.onDev.applyDue
    have starts : started.Canonical := applies.startPrograms
    split
    · exact starts.onDev
    · exact .ite starts.loadStreams.beginHeat starts.beginHeat.loadStreams
  · exact h

end Boundary
end Sys2Proof.Machine
end

section
/-! SUPPORT. Commits, the monitor, frames, sessions, scrubbers, resets, the security processor and register writes keep the canonical
form of memory (R386, R389 to R393, R401 to R416). -/

namespace Sys2Proof.Machine

/-! ### Commits and the monitor (R472, R548) -/

section Upkeep
variable {p : Part} (h : p.Canonical)
include h

theorem opCommitCheckDone_canonical : (opCommitCheckDone p).Canonical := by
  rw [opCommitCheckDone]
  split
  · exact h
  next c _ =>
    have read : (if c.hk then p else p.touch c.list (4 * Nat.min c.n 256)).Canonical := .ite h h.touch
    dsimp only
    split
    · exact read.onDev
    · split
      · exact read.onDev
      · exact read.onDev

theorem opCommitApply_canonical {tag : Nat} : (opCommitApply tag p).Canonical := by
  rw [opCommitApply]
  refine .ite h ?_
  split
  · exact h
  · exact h.onDev.onDev

theorem Part.Canonical.storeRing {k w ch step : Nat} {inj outside : Bool} : (p.storeRing k w ch step inj outside).Canonical :=
  .ite h (.ite h.onDev h.write.onDev)

theorem Part.Canonical.deliverResult {k ch step word : Nat} {inj : Bool} {mean : Int} :
    (p.deliverResult k ch step word inj mean).Canonical := .ite h.onDev.storeRing h.onDev

theorem opConverterStepDone_canonical {k : Nat} {mean : Int} : (opConverterStepDone k mean p).Canonical :=
  .ite h (.ite h.deliverResult.onDev (.ite h.deliverResult.onDev h))

/-! ### Scrubbing and clearing (R393, R401 to R416) -/

theorem opVmClearGranule_canonical {die : Nat} : (opVmClearGranule die p).Canonical := by
  rw [opVmClearGranule]
  split
  · exact h
  next c l _ =>
    have cleared : (match mapGranule (64 * c.lo) (64 * c.hi) c.cleared with
        | some g => p.onMem (·.clearMapGranule (64 * c.lo) (64 * c.hi) g)
        | none => p).Canonical := by
      split
      · exact h.onMem (Memory.wf_clearMapGranule _ _ _)
      · exact h
    exact .ite cleared.onDev cleared.onDev

theorem Part.Canonical.scrubRead {die g : Nat} {error : Option Ecc} : (p.scrubRead die g error).Canonical := by
  have arisen : (match error with | some e => p.onMem (·.arise [(BitVec.ofNat 40 (64 * g), e)]) | none => p).Canonical := by
    split
    · exact h.arise
    · exact h
  have read {q : Part} {l k : List Nat} {f : Device → Device} (h : q.Canonical) :
      (k.foldl (fun p _ => p.onDev f) (l.foldl Part.decodeWord q)).Canonical := .foldl (.foldl h fun h => h.decodeWord) fun h => h.onDev
  exact .ite (.onDev (.onMem (read arisen) (Memory.wf_poisonGranule g))) (.ite (read arisen).marks (read arisen))

theorem opDramScrubRead_canonical {die stack : Nat} {error : Option Ecc} : (opDramScrubRead die stack error p).Canonical := by
  rw [opDramScrubRead]
  refine .ite h ?_
  dsimp only
  split
  · exact h
  next g wrapped _ =>
    have passed {f : Device → Device} : (if wrapped = true then p.onDev f else p).Canonical := .ite h.onDev h
    exact .scrubRead (.ite passed.onDev.onDev passed.onDev)

theorem opCoreStoreScrubRead_canonical {die : Nat} {error : Option Ecc} : (opCoreStoreScrubRead die error p).Canonical :=
  .ite h h.onDev.scrubRead

theorem opSramScrubRead_canonical {error : Option Ecc} : (opSramScrubRead error p).Canonical := .ite h h.onDev.scrubRead

theorem opScrubWriteback_canonical {die : Nat} : (opScrubWriteback die p).Canonical := by
  rw [opScrubWriteback]
  refine .ite h ?_
  split
  · exact h
  · exact .ite h.marks.onDev h.marks.marks

theorem opRepairCopyDone_canonical {die : Nat} : (opRepairCopyDone die p).Canonical := by
  rw [opRepairCopyDone]
  split
  · exact h
  · exact h.touch.marks.onDev

end Upkeep

/-! ### Resets and power (R390 to R392, R513 to R520) -/

theorem Part.manageReset_canonical {p : Part} {powerOn : Bool} {cause : Nat} : (p.manageReset powerOn cause).Canonical := rfl

section Power
variable {p : Part} (h : p.Canonical)
include h

theorem opWakeComplete_canonical {die : Nat} : (opWakeComplete die p).Canonical := .ite h (.onDev (.ite h.clearStores h))

theorem opGroupReset_canonical {port : Nat} {f : MeshHdr} : (opGroupReset port f p).Canonical :=
  .ite h.withDev (.ite Part.manageReset_canonical h.withDev)

theorem opFaultCell_canonical {port node evt : Nat} {f : MeshHdr} : (opFaultCell port f node evt p).Canonical :=
  .ite (opGroupReset_canonical h) h.onDev

theorem opBootStepDone_canonical : (opBootStepDone p).Canonical := by
  rw [opBootStepDone]
  split
  case h_6 => exact h.clear.onDev
  case h_7 => exact h.clearStores.onDev
  case h_11 => exact h
  all_goals exact h.onDev

theorem opCoreResetAct_canonical : (opCoreResetAct p).Canonical := by
  rw [opCoreResetAct]
  split
  · exact h
  · exact .ite h h.onDev.clearStores

end Power

/-! ### Frames and messages (R241, R387, R425, R450 to R457) -/

section Messages
variable {p : Part} (h : p.Canonical)
include h

theorem Part.Canonical.takeData {src : Nat} {d : DataHdr} {payload : List Byte} : (p.takeData src d payload).Canonical :=
  .onDev (.ite h.onDev.writePieces.shardData.onDev h.onDev.onDev)

theorem opDataFrame_canonical {port : Nat} {f : MeshHdr} {d : DataHdr} {payload : List Byte} :
    (opDataFrame port f d payload p).Canonical := by
  rw [opDataFrame]
  refine .ite ?_ h.withDev
  split
  · exact h.withDev
  · exact .takeData h.withDev

theorem Part.Canonical.segment {s role : Nat} {o : BhtOp} {m : BhtMsg} {status a : Nat} {data : List Byte} :
    (p.segment s role o m status a data).Canonical := .ite (.ite h.onDev.put.onDev h.onDev) (.ite h.onDev (.ite h.onDev h))

theorem Part.Canonical.bhtWrite {s : Nat} {m : BhtMsg} : (p.bhtWrite s m).Canonical := by
  rw [Part.bhtWrite]
  split
  · exact h
  · exact .ite h.segment.onDev h.segment.onDev.onDev

theorem Part.Canonical.bhtReadMem {a n : Nat} : (p.bhtReadMem a n).2.2.Canonical := by
  rw [Part.bhtReadMem, apply_ite Prod.snd, apply_ite Prod.snd]
  exact .ite h h.onDev.touch

theorem Part.Canonical.bhtRead {s : Nat} {m : BhtMsg} : (p.bhtRead s m).Canonical := by
  rw [Part.bhtRead]
  split
  · exact h
  · exact .ite h.onDev (.ite (.ite h.onDev h.onDev) (.ite (.ite h.onDev (.ite h.onDev h.bhtReadMem.onDev))
      (.ite (.ite h.onDev h.bhtReadMem.onDev) h.onDev.onDev)))

theorem Part.Canonical.storePut {q : StoreReq} {offset : Nat} {last : Bool} {data : List Byte} :
    (p.storePut q offset last data).Canonical := .ite (.ite h.put h.put.shardData) h.onDev

theorem Part.Canonical.bhtStoreData {s : Nat} {m : BhtMsg} : (p.bhtStoreData s m).Canonical := by
  rw [Part.bhtStoreData]
  split
  · exact h
  · exact .ite h.onDev h.onDev.storePut

theorem Part.Canonical.runMessage {s op : Nat} {m : BhtMsg} : (p.runMessage s op m).Canonical := by
  unfold Part.runMessage
  split
  · exact h.bhtWrite
  · exact h.bhtRead
  · exact h.onDev
  · exact h.onDev
  · exact h.bhtStoreData
  · exact h

theorem Part.Canonical.runMessages {s n : Nat} : (p.runMessages s n).Canonical := by
  induction n generalizing p with
  | zero => exact h
  | succ n ih =>
    rw [Part.runMessages]
    split
    · exact h
    · split
      · exact h
      · exact ih h.onDev.runMessage

theorem Part.Canonical.takeMessage {s op : Nat} {m : BhtMsg} : (p.takeMessage s op m).Canonical := .ite h h.onDev.runMessages.onDev

theorem opBhtData_canonical {op : Nat} {k : BhtPacket} {m : BhtMsg} : (opBhtData op k m p).Canonical :=
  .ite h.withDev (.takeMessage (.onDev h.withDev))

end Messages

/-! ### The security processor and the history (R563 to R574, R578, R589) -/

section Security
variable {p : Part} (h : p.Canonical)
include h

theorem opExtend_canonical {agent : Nat} : (opExtend agent p).Canonical := .ite h.onDev h.touch.onDev

theorem opQuote_canonical {agent : Nat} : (opQuote agent p).Canonical := .ite h.onDev h.touchAll.onDev

theorem opQuoteDone_canonical : (opQuoteDone p).Canonical := by
  rw [opQuoteDone]
  split
  · exact h
  · exact h.put.onDev

theorem opDbgUnlock_canonical : (opDbgUnlock p).Canonical := .ite h.touch.onDev.onDev.clear.onDev h.touch.onDev.onDev

theorem opProofCompare_canonical {i : Nat} : (opProofCompare i p).Canonical := by
  rw [opProofCompare]
  split
  · exact h
  · exact .ite h (.ite h.touch (.ite h.touch.onDev (.ite h.touch.touch.touch.onDev h.touch.touch.touch.onDev.onDev)))

theorem opDumpDone_canonical : (opDumpDone p).Canonical := by
  rw [opDumpDone]
  split
  · exact h
  · exact h.put.onDev

end Security

/-! ### Register writes (R536, R606) -/

section Registers
variable {p : Part} (h : p.Canonical)
include h

/-- A strobe of CTRL: those that reach memory are FETCH, SYS_RESET, EXTEND, QUOTE and DBG_UNLOCK. -/
theorem Part.Canonical.strobe {page agent i : Nat} {k : PageKind} : (p.strobe page k agent i).Canonical := by
  unfold Part.strobe
  generalize (if offDie page = 8 then 4 else offDie page) = die
  split
  case h_4 => exact opBilletFetch_canonical h
  case h_6 => exact .ite h.onDev h.onDev
  case h_12 => exact Part.manageReset_canonical
  case h_17 => exact opExtend_canonical h
  case h_18 => exact opQuote_canonical h
  case h_20 => exact opDbgUnlock_canonical h
  case h_26 | h_28 => exact h
  all_goals exact h.onDev

theorem Part.Canonical.writeCtrl {off v agent : Nat} {k : PageKind} : (p.writeCtrl off v agent k).Canonical :=
  .ite h.onDev (.foldl h.onDev fun h => .ite h.strobe h)

theorem Part.Canonical.writeReg {off v width agent : Nat} : (p.writeReg off v width agent).Canonical := by
  rw [Part.writeReg]
  split
  · exact h.withDev
  · split
    · exact h
    · exact .ite h.onDev (.ite h.onDev.writeCtrl h.onDev.onDev)

theorem opI3cWrite_canonical {off v : Nat} : (opI3cWrite off v p).Canonical := .ite h (.ite h.onDev.writeReg h.onDev.onDev)

end Registers
end Sys2Proof.Machine
end

section
/-! SUPPORT. Every command keeps memory in its canonical form, and those of `Instr.leavesMemory` keep the memory itself (R385, R386,
R389, R391). -/

namespace Sys2Proof.Machine

/-- A command that acts on the module goes on safely when its operation keeps memory canonical. -/
theorem State.safe_onPart {s : State} {f : Part → Part} (h : (f s.part).Canonical) : safeOutcome (s.onPart f) := ⟨_, rfl, h⟩

/-- A command that acts on the device alone goes on safely. -/
theorem State.safe_onDev {s : State} {f : Device → Device} (h : s.part.Canonical) : safeOutcome (s.onDev f) := ⟨_, rfl, h⟩

/-- A processor's write that acts on the module goes on safely when its operation keeps memory canonical. -/
theorem Part.Canonical.safe_written {s : State} {agent : Nat} {f : Part → Part} (h : s.part.Canonical) (hf : (f s.part).Canonical) :
    safeOutcome (s.onPart (fun p => p.written agent f)) := ⟨_, rfl, h.written hf⟩

theorem safeOutcome_next {t : State} : safeOutcome (.next t) ↔ t.wf :=
  ⟨fun ⟨_, same, ht⟩ => by cases same; exact ht, fun ht => ⟨t, rfl, ht⟩⟩

/-- Every command goes on in a state whose memory is canonical: by the rule of its operation where it reaches memory, and because the
memory is the same where it acts on the device alone. -/
theorem exec_safe {s : State} (c : Instr) (h : s.part.Canonical) : safeOutcome (exec c s) := by
  cases c with
  | pass => exact State.safe_onPart (opPassWord_canonical h)
  | fullOutlier => exact State.safe_onPart (opFullOutlier_canonical h)
  | fullAdaptA => exact State.safe_onPart (opFullAdaptA_canonical h)
  | fullAdaptB => exact State.safe_onPart (opFullAdaptB_canonical h)
  | fullRung3 => exact State.safe_onPart (opFullRung3_canonical h)
  | fullRung4 => exact State.safe_onPart (opFullRung4_canonical h)
  | fullGradPrep => exact State.safe_onPart (opFullGradPrep_canonical h)
  | fullGradRows => exact State.safe_onPart (opFullGradRows_canonical h)
  | fullGradAdapt => exact State.safe_onPart (opFullGradAdapt_canonical h)
  | vecAdd | vecSub | vecMul | vecFma | vecMin | vecMax | vecAbs | vecNeg | vecCompare | vecSelect | vecInt32Add | vecAnd | vecOr
  | vecShift | vecRecip | vecDiv | vecSqrt | vecRsqrt | vecExp | vecLog | vecTanh | vecSin | vecCos | vecConvert | vecSum
  | vecReduceMax | vecReduceMin | vecArgmax => exact State.safe_onPart (opVector_canonical h)
  | xfer => exact State.safe_onPart (opXferWord_canonical h)
  | transferDone => exact State.safe_onPart (opTransferDone_canonical h)
  | epilogueStart => exact State.safe_onPart (opEpilogueStart_canonical h)
  | epilogueDone => exact State.safe_onPart (opEpilogueDone_canonical h)
  | walk => exact State.safe_onPart (opWalk_canonical h)
  | walkRetry => exact State.safe_onPart (opWalkRetry_canonical h)
  | sample => exact State.safe_onPart (opSampleWord_canonical h)
  | reheat => exact State.safe_onPart (opReheat_canonical h)
  | streamFetch => exact State.safe_onPart (opStreamFetch_canonical h)
  | planLoadDone => exact State.safe_onPart (opPlanLoadDone_canonical h)
  | dieArrive => exact State.safe_onPart (opDieArrive_canonical h)
  | heatStart => exact State.safe_onPart (opHeatStart_canonical h)
  | admission => exact State.safe_onPart (opAdmission_canonical h)
  | cowCopyDone => exact State.safe_onPart (opCowCopyDone_canonical h)
  | adapterStageDone => exact State.safe_onPart (opAdapterStageDone_canonical h)
  | shardAdmitNote => exact State.safe_onPart (opShardAdmitNote_canonical h)
  | submitNotify => exact State.safe_onPart (opSubmitNotify_canonical h)
  | generateRecord => exact State.safe_onPart (opGenerateRecord_canonical h)
  | adapterLoadRecord => exact State.safe_onPart (opAdapterLoadRecord_canonical h)
  | adapterLoadDone => exact State.safe_onPart (opAdapterLoadDone_canonical h)
  | adapterRetireRecord => exact State.safe_onPart (opAdapterRetireRecord_canonical h)
  | grammarInstallRecord => exact State.safe_onPart (opGrammarInstallRecord_canonical h)
  | grammarRemoveRecord => exact State.safe_onPart (opGrammarRemoveRecord_canonical h)
  | dataFrame => exact State.safe_onPart (opDataFrame_canonical h)
  | faultCell => exact State.safe_onPart (opFaultCell_canonical h)
  | groupReset => exact State.safe_onPart (opGroupReset_canonical h)
  | bhtRead => exact State.safe_onPart (f := fun p => opBhtData 2 _ _ (p.onMem (·.arise _))) (opBhtData_canonical h.arise)
  | bhtWrite | bhtAck | bhtSyncRead | bhtWatch | bhtStoreData | bhtKeepalive => exact State.safe_onPart (opBhtData_canonical h)
  | billetFetch => exact h.safe_written (opBilletFetch_canonical h)
  | shardVerifyDone => exact State.safe_onPart (opShardVerifyDone_canonical h)
  | programBatchStart => exact State.safe_onPart (opProgramBatchStart_canonical h)
  | programRowStep => exact State.safe_onPart (opProgramRowStep_canonical h)
  | programBatchDone => exact State.safe_onPart (opProgramBatchDone_canonical h)
  | vmClearGranule => exact State.safe_onPart (opVmClearGranule_canonical h)
  | dramScrubRead => exact State.safe_onPart (opDramScrubRead_canonical h)
  | coreStoreScrubRead => exact State.safe_onPart (opCoreStoreScrubRead_canonical h)
  | sramScrubRead => exact State.safe_onPart (opSramScrubRead_canonical h)
  | scrubWriteback => exact State.safe_onPart (opScrubWriteback_canonical h)
  | repairCopyDone => exact State.safe_onPart (opRepairCopyDone_canonical h)
  | converterStepDone => exact State.safe_onPart (opConverterStepDone_canonical h)
  | wakeComplete => exact State.safe_onPart (opWakeComplete_canonical h)
  | pwrOkRise | pwrOkFall | powerDetectorTrip | resetIn => exact State.safe_onPart Part.manageReset_canonical
  | watchdogExpire => exact State.safe_onPart Part.manageReset_canonical.onDev
  | sysReset => exact h.safe_written Part.manageReset_canonical
  | bootStepDone => exact State.safe_onPart (opBootStepDone_canonical h)
  | coreResetAct => exact State.safe_onPart (opCoreResetAct_canonical h)
  | commitCheckDone => exact State.safe_onPart (opCommitCheckDone_canonical h)
  | commitApply => exact State.safe_onPart (opCommitApply_canonical h)
  | registerWrite => exact h.safe_written h.writeReg
  | extend => exact h.safe_written (opExtend_canonical h)
  | quote => exact h.safe_written (opQuote_canonical h)
  | quoteDone => exact State.safe_onPart (opQuoteDone_canonical h)
  | dbgUnlock => exact h.safe_written (opDbgUnlock_canonical h)
  | proofCompare => exact State.safe_onPart (opProofCompare_canonical h)
  | dumpDone => exact State.safe_onPart (opDumpDone_canonical h)
  | i3cRegisterWrite => exact State.safe_onPart (opI3cWrite_canonical h)
  | _ => exact State.safe_onDev h

/-- Settles O4: a step is the command in front, which keeps the form, or one nanosecond, which leaves memory as it is. -/
theorem stepKeepsMemoryCanonical : Obligations.StepKeepsMemoryCanonical := by
  intro s t hs stepped
  have safe : safeOutcome (step s) := by
    rw [step]
    split
    · exact exec_safe _ hs
    · exact State.safe_onDev (f := (·.elapse 1)) hs
  rw [stepped] at safe
  exact safeOutcome_next.mp safe

/-- A commit applied acts on the device alone. -/
theorem opCommitApply_mem (tag : Nat) (p : Part) : (opCommitApply tag p).mem = p.mem := by
  rw [opCommitApply]
  split
  · rfl
  · split
    · rfl
    · rfl

/-- A command of the list acts on the device alone. -/
theorem exec_mem_of_leavesMemory {c : Instr} (s : State) (hc : c.leavesMemory = true) :
    ∃ t, exec c s = .next t ∧ t.part.mem = s.part.mem := by
  cases c with
  | commitApply tag => exact ⟨_, rfl, opCommitApply_mem tag.toNat s.part⟩
  | _ => cases hc <;> exact ⟨_, State.onDev_eq s _, rfl⟩

/-- Settles O6: a command of the list leaves the memory itself, and so every byte of it. -/
theorem deviceCommandsLeaveMemory : Obligations.DeviceCommandsLeaveMemory := by
  intro c s t hc ht
  obtain ⟨u, hu, same⟩ := exec_mem_of_leavesMemory s hc
  cases hu.symm.trans ht
  exact ⟨same, fun a => by rw [same]⟩

end Sys2Proof.Machine
end

section
/-! SUPPORT. What a reset of the management class leaves of the module, and when it ends (R390, R392, R513 to R517, R531). -/

namespace Sys2Proof.Machine

/-! ### Bits of a word -/

theorem bit_eq_testBit (w i : Nat) : bit w i = w.testBit i := by
  rw [Bool.eq_iff_iff, bit, Nat.testBit_eq_decide_div_mod_eq, Nat.shiftRight_eq_div_pow, beq_iff_eq, decide_eq_true_iff]

/-- A field leaves the word below it. -/
theorem withBits_mod (w hi lo v : Nat) : withBits w hi lo v % 2 ^ lo = w % 2 ^ lo := by
  have held : bits w hi lo * 2 ^ lo ≤ w := by
    rw [bits, Nat.shiftRight_eq_div_pow]
    exact Nat.le_trans (Nat.mul_le_mul_right _ (Nat.mod_le _ _)) (Nat.div_mul_le_self _ _)
  rw [Nat.mul_comm] at held
  rw [withBits, Nat.add_mul_mod_self_right, Nat.mul_comm, Nat.sub_mul_mod held]

theorem bit_withBits_below (w hi v : Nat) {i lo : Nat} (h : i < lo) : bit (withBits w hi lo v) i = bit w i := by
  have below (n : Nat) : bit n i = bit (n % 2 ^ lo) i := by simp [bit_eq_testBit, h]
  rw [below, withBits_mod, ← below]

/-- A field of a register leaves the bits below it. -/
theorem Device.bit_get_setBits_below (d : Device) (off hi v : Nat) {i lo : Nat} (h : i < lo) (hi32 : i < 32) :
    bit ((d.setBits off hi lo v).get off) i = bit (d.get off) i := by
  rw [Device.setBits, Device.get_set_same, bit_eq_bits, bits_mod_two_pow hi32, ← bit_eq_bits, bit_withBits_below _ _ _ h]

/-- A flag joined to a word is set. -/
theorem bit_lor_two_pow (w : Nat) {i : Nat} (h : i < 32) : bit (Nat.lor w (2 ^ i) % 2 ^ 32) i = true := by
  rw [bit_eq_bits, bits_mod_two_pow h, ← bit_eq_bits, bit_eq_testBit]
  exact (Nat.testBit_or w (2 ^ i) i).trans (by simp [Nat.testBit_two_pow_self])

/-! ### What a reset keeps -/

/-- The parts of the history that no flash write changes, and the counters, are those of before. -/
def Device.KeepsTime (d e : Device) : Prop :=
  e.hist.fences = d.hist.fences ∧ e.hist.dead = d.hist.dead ∧ e.hist.sec = d.hist.sec ∧ e.ticks = d.ticks

section KeepsTime
variable {d e f : Device}

theorem Device.KeepsTime.refl (d : Device) : d.KeepsTime d := ⟨rfl, rfl, rfl, rfl⟩

theorem Device.KeepsTime.trans (h : d.KeepsTime e) (k : e.KeepsTime f) : d.KeepsTime f := by
  obtain ⟨fences, dead, sec, ticks⟩ := h
  obtain ⟨fences', dead', sec', ticks'⟩ := k
  exact ⟨fences'.trans fences, dead'.trans dead, sec'.trans sec, ticks'.trans ticks⟩

theorem Device.KeepsTime.of_eq (hist : e.hist = d.hist) (ticks : e.ticks = d.ticks) : d.KeepsTime e :=
  ⟨by rw [hist], by rw [hist], by rw [hist], ticks⟩

/-- The flash of an anvil is a part of the history of its own. -/
theorem Device.keepsTime_setFlash (d : Device) (u : Nat) (x : AnvilFlash) : d.KeepsTime (d.setFlash u x) := ⟨rfl, rfl, rfl, rfl⟩

theorem Device.keepsTime_eventSt (d : Device) (page b status : Nat) (rest : List Nat) : d.KeepsTime (d.eventSt page b status rest) :=
  .of_eq (d.eventSt_hist ..) (d.eventSt_ticks ..)

/-- A program counted changes the anvil's flash and raises events. -/
theorem Device.keepsTime_countProgram (d : Device) (b : BatchAnvil) : d.KeepsTime (d.countProgram b) := by
  have reached (x : Device) (c : Prop) [Decidable c] (page k : Nat) (rest : List Nat) :
      x.KeepsTime (if c then x.eventSt page k stOk rest else x) := by
    split
    · exact x.keepsTime_eventSt page k stOk rest
    · exact .refl x
  rw [Device.countProgram]
  exact (d.keepsTime_setFlash _ _).trans ((reached _ _ _ _ _).trans (reached _ _ _ _ _))

theorem Device.keepsTime_interruptAnvil (d : Device) (b : BatchAnvil) : d.KeepsTime (d.interruptAnvil b) := by
  rw [Device.interruptAnvil]
  exact (d.keepsTime_countProgram b).trans ((Device.keepsTime_setFlash _ _ _).trans
    (.trans (.of_eq (Device.count_hist _ _ _) (Device.count_ticks _ _ _)) (Device.keepsTime_eventSt _ _ _ _ _)))

theorem Device.keepsTime_foldl {α : Type} {g : Device → α → Device} (h : ∀ (e : Device) x, e.KeepsTime (g e x)) (l : List α)
    (d : Device) : d.KeepsTime (l.foldl g d) := by
  induction l generalizing d with
  | nil => exact .refl d
  | cons x l ih => exact (h d x).trans (ih _)

theorem Device.keepsTime_interruptPrograms (d : Device) (die : Nat) : d.KeepsTime (d.interruptPrograms die) := by
  rw [Device.interruptPrograms]
  split
  · exact .refl d
  · exact (Device.keepsTime_foldl Device.keepsTime_interruptAnvil _ d).trans (.of_eq rfl rfl)

end KeepsTime

/-! ### The state after a reset (R390, R513, R531) -/

/-- The device `e` that a reset leaves of `d`: in reset, with nothing waiting in its blocks and no plan, the history kept, and its
cause in RST_CAUSE, alone after a power-on reset, which also clears the counters. -/
def Device.ResetTo (d e : Device) (powerOn : Bool) (cause : Nat) : Prop :=
  e.power.inReset = true ∧ e.bht.sessions = [] ∧ e.commits.commits = [] ∧ e.planRuns = false ∧ e.cores = [] ∧ e.transfers = [] ∧
    e.sync.waiters = [] ∧ e.hist.fences = d.hist.fences ∧ e.hist.dead = d.hist.dead ∧ e.hist.sec = d.hist.sec ∧
    e.ticks = (if powerOn then #v[0, 0, 0, 0, 0] else d.ticks) ∧ bit (e.get (pagePwr + 0x140)) cause = true ∧
    (powerOn = true → e.get (pagePwr + 0x140) = 2 ^ cause)

/-- No plan runs in a module whose HC_STATE has its reset value. -/
theorem Device.planRuns_eq_false {e : Device} (h : e.get (pageHeat + 0x100) = resetValue (pageHeat + 0x100)) : e.planRuns = false := by
  have idle : resetValue (pageHeat + 0x100) = 0 := by decide
  simp only [Device.planRuns, Device.heatState, h, idle]
  rfl

/-- Registers reset, but for RST_CAUSE and two fields that a system reset keeps (R513). -/
theorem Device.get_afterReset (d : Device) (powerOn : Bool) {off : Nat} (cause : off ≠ pagePwr + 0x140) (sec : off ≠ pageSec + 0x100)
    (pwr : off ≠ pagePwr + 0x160) : (d.afterReset powerOn).get off = resetValue off := by
  cases powerOn with
  | true => rfl
  | false =>
    rw [Device.afterReset]
    simp only [Bool.false_eq_true, if_false, Device.setBits, Device.get_set_other _ _ pwr, Device.get_set_other _ _ sec,
      Device.get_set_other _ _ cause]
    rfl

theorem Part.get_manageReset_cause (p : Part) (powerOn : Bool) (cause : Nat) : (p.manageReset powerOn cause).dev.get (pagePwr + 0x140) =
    Nat.lor ((p.dev.afterReset powerOn).get (pagePwr + 0x140)) cause % 2 ^ 32 := Device.get_set_same _ _ _

/-- A reset of the management class has its effects whatever the state before. -/
theorem Part.manageReset_resetTo (p : Part) (powerOn : Bool) {w cause : Nat} (hw : w = 2 ^ cause) (h : cause < 32) :
    p.dev.ResetTo (p.manageReset powerOn w).dev powerOn cause := by
  subst hw
  obtain ⟨fences, dead, sec, ticks⟩ : p.dev.KeepsTime ((List.range 4).foldl (fun d i => d.interruptPrograms i) p.dev) :=
    Device.keepsTime_foldl Device.keepsTime_interruptPrograms _ _
  have flagged : bit ((p.manageReset powerOn (2 ^ cause)).dev.get (pagePwr + 0x140)) cause = true := by
    rw [p.get_manageReset_cause, bit_lor_two_pow _ h]
  have idle : (p.manageReset powerOn (2 ^ cause)).dev.planRuns = false :=
    Device.planRuns_eq_false ((Device.get_set_other _ _ (by decide)).trans
      (p.dev.get_afterReset powerOn (by decide) (by decide) (by decide)))
  cases powerOn with
  | true =>
    refine ⟨rfl, rfl, rfl, idle, rfl, rfl, rfl, fences, dead, sec, rfl, flagged, fun _ => ?_⟩
    have clear : (p.dev.afterReset true).get (pagePwr + 0x140) = 0 := by
      show resetValue (pagePwr + 0x140) = 0
      decide
    rw [Part.get_manageReset_cause, clear]
    exact (congrArg (· % 2 ^ 32) (Nat.zero_or (2 ^ cause))).trans (Nat.mod_eq_of_lt (Nat.pow_lt_pow_right (by decide) h))
  | false => exact ⟨rfl, rfl, rfl, idle, rfl, rfl, rfl, fences, dead, sec, ticks, flagged, nofun⟩

/-- What the power control notes before the reset is no part of what the reset keeps. -/
theorem Part.manageReset_onPower_resetTo (p : Part) (f : PowerCtl → PowerCtl) (powerOn : Bool) {w cause : Nat} (hw : w = 2 ^ cause)
    (h : cause < 32) : p.dev.ResetTo ((p.onDev (·.onPower f)).manageReset powerOn w).dev powerOn cause :=
  (p.onDev (·.onPower f)).manageReset_resetTo powerOn hw h

theorem opPwrOkRise_resetTo (p : Part) : p.dev.ResetTo (opPwrOkRise p).dev true 1 :=
  p.manageReset_onPower_resetTo _ true (w := 2) rfl (by decide)

theorem opPwrOkFall_resetTo (p : Part) : p.dev.ResetTo (opPwrOkFall p).dev true 1 :=
  p.manageReset_onPower_resetTo _ true (w := 2) rfl (by decide)

theorem opDetectorTrip_resetTo (p : Part) : p.dev.ResetTo (opDetectorTrip p).dev true 0 :=
  p.manageReset_onPower_resetTo _ true (w := 1) rfl (by decide)

theorem opResetIn_resetTo (p : Part) : p.dev.ResetTo (opResetIn p).dev false 2 :=
  p.manageReset_onPower_resetTo _ false (w := 4) rfl (by decide)

theorem opSysReset_resetTo (p : Part) : p.dev.ResetTo (opSysReset p).dev false 4 :=
  p.manageReset_resetTo false (w := 0x10) rfl (by decide)

/-! ### The watchdog's entry of the log (R515, R583) -/

/-- What the history's records and log, its counters and its events leave as it was, a record leaves as it was. -/
theorem Device.record_invariant {α : Type} (g : Device → α)
    (hist : ∀ (d : Device) s l, g { d with hist := { d.hist with summaries := s, log := l } } = g d)
    (count : ∀ (d : Device) off, pageHis ≤ off → g (d.count off) = g d)
    (event : ∀ (d : Device) w rest, g (d.event pageHis 0 w rest) = g d) (d : Device) (unit cls status page : Nat)
    (unstressed : Bool) : g (d.record unit cls status page unstressed) = g d := by
  have counted (e : Device) (c : Prop) [Decidable c] (k : Nat) : g (if c then e.count (pageHis + k) else e) = g e := by
    split
    · exact count e _ (Nat.le_add_right ..)
    · rfl
  have permanent (l : List Nat) (e : Device) : g (l.foldl (fun d c => d.becamePermanent unit c status) e) = g e := by
    induction l generalizing e with
    | nil => rfl
    | cons c l ih => exact (ih _).trans ((event ..).trans (count e _ (Nat.le_add_right ..)))
  rw [Device.record]
  exact (permanent _ _).trans ((counted _ _ _).trans ((counted _ _ _).trans (hist ..)))

/-- A record leaves the registers below the history page. -/
theorem Device.get_record_below (d : Device) {off : Nat} (unit cls status page : Nat) (unstressed : Bool) (h : off < pageHis) :
    (d.record unit cls status page unstressed).get off = d.get off := by
  refine Device.record_invariant (·.get off) (fun _ _ _ => rfl) (fun d c hc => d.get_count_other _ (by omega)) (fun d w rest => ?_) ..
  have brd : pageHis ≤ pageBrd + 0x108 := by decide
  rw [Device.event, Device.get_capture_below _ _ (by omega), Device.get_raise _ _ (by omega) (by omega)]

/-- The parts of a device beside its registers that say whether it is reset. -/
def Device.resetView (d : Device) :=
  (d.power, d.bht, d.commits, d.cores, d.transfers, d.sync, d.ticks, d.hist.fences, d.hist.dead, d.hist.sec)

theorem Device.record_resetView (d : Device) (unit cls status page : Nat) (unstressed : Bool) :
    (d.record unit cls status page unstressed).resetView = d.resetView :=
  Device.record_invariant (·.resetView) (fun _ _ _ => rfl) (fun _ _ _ => rfl)
    (fun d w rest => by simp only [Device.resetView, Device.event_power, Device.event_bht, Device.event_commits, Device.event_cores,
      Device.event_transfers, Device.event_sync, Device.event_ticks, Device.event_hist]) ..

/-- A module reset stays so through what changes registers alone, and of these neither HC_STATE nor the cause's bit of RST_CAUSE. -/
theorem Device.ResetTo.of_view {d e f : Device} {cause : Nat} (h : d.ResetTo e false cause) (view : f.resetView = e.resetView)
    (heat : f.get (pageHeat + 0x100) = e.get (pageHeat + 0x100))
    (rst : bit (f.get (pagePwr + 0x140)) cause = bit (e.get (pagePwr + 0x140)) cause) : d.ResetTo f false cause := by
  simp only [Device.resetView, Prod.mk.injEq] at view
  obtain ⟨power, bht, commits, cores, transfers, sync, ticks, fences, dead, sec⟩ := view
  have plan : f.planRuns = e.planRuns := by simp only [Device.planRuns, Device.heatState, heat]
  rw [Device.ResetTo, power, bht, commits, cores, transfers, sync, ticks, fences, dead, sec, plan, rst]
  obtain ⟨inReset, sessions, commits, idle, cores, transfers, waiters, fences, dead, sec, ticks, flagged, -⟩ := h
  exact ⟨inReset, sessions, commits, idle, cores, transfers, waiters, fences, dead, sec, ticks, flagged, nofun⟩

theorem Device.ResetTo.record {d e : Device} {cause : Nat} (h : d.ResetTo e false cause) (unit cls status page : Nat) :
    d.ResetTo (e.record unit cls status page) false cause :=
  h.of_view (e.record_resetView ..) (e.get_record_below _ _ _ _ _ (by decide))
    (congrArg (bit · cause) (e.get_record_below _ _ _ _ _ (by decide)))

theorem Device.ResetTo.setBits {d e : Device} {cause hi lo : Nat} (h : d.ResetTo e false cause) (v : Nat) (below : cause < lo)
    (h32 : cause < 32) : d.ResetTo (e.setBits (pagePwr + 0x140) hi lo v) false cause :=
  h.of_view rfl (e.get_set_other _ (by decide)) (e.bit_get_setBits_below _ hi v below h32)

theorem opWatchdog_resetTo (processor die : Nat) (p : Part) : p.dev.ResetTo (opWatchdog processor die p).dev false 3 := by
  have reset : p.dev.ResetTo (p.manageReset false 8).dev false 3 := p.manageReset_resetTo false rfl (by decide)
  exact ((reset.setBits _ (by decide) (by decide)).setBits _ (by decide) (by decide)).record ..

/-! ### The end of a reset, and the group's (R516, R517) -/

theorem opResetStretchEnd_free {d : Device}
    (h : d.power.inReset = true ∧ d.power.pwrOk = true ∧ d.power.resetIn = false ∧ d.power.inputOk = true) :
    opResetStretchEnd d =
      (d.elapse (d.power.causeEnd + 2000000 - d.poweredNs)).onPower (fun x => { x with inReset := false, step := 1 }) := by
  obtain ⟨inReset, pwr, pin, input⟩ := h
  rw [opResetStretchEnd, if_pos (by simp [inReset, pwr, pin, input])]

theorem opResetStretchEnd_held {d : Device}
    (h : d.power.inReset = false ∨ d.power.pwrOk = false ∨ d.power.resetIn = true ∨ d.power.inputOk = false) :
    opResetStretchEnd d = d := by
  rw [opResetStretchEnd, if_neg]
  rcases h with h | h | h | h <;> simp [h]

section GroupReset
variable {p : Part} {port : Nat} {f : MeshHdr}

/-- The frame of a group reset message as its port takes it in. -/
def Part.groupIntake (p : Part) (port : Nat) (f : MeshHdr) : Bool × Device := p.dev.intake port f (.fault f.src.toNat 0xFFFF)

/-- Whether a module that takes a group reset message in accepts it (R516). -/
def Device.acceptsGroupReset (d : Device) (port : Nat) (f : MeshHdr) : Bool :=
  bit (d.get (pagePwr + 0x144)) 0 && bit (d.get (pagePort port + 0x104)) 3 && f.src.toNat == d.node / 16 * 16 &&
    bit (d.get (pagePort port + 0x100)) 12 && f.macsecOk

/-- It takes group resets, and the bridge of the group sent this one on a trained port with MACsec. -/
theorem Device.acceptsGroupReset_iff {d : Device} : d.acceptsGroupReset port f = true ↔
    bit (d.get (pagePwr + 0x144)) 0 = true ∧ bit (d.get (pagePort port + 0x104)) 3 = true ∧ f.src.toNat = d.node / 16 * 16 ∧
      bit (d.get (pagePort port + 0x100)) 12 = true ∧ f.macsecOk = true := by
  simp only [Device.acceptsGroupReset, Bool.and_eq_true, beq_iff_eq, and_assoc]

theorem opGroupReset_dropped (h : (p.groupIntake port f).1 = false) :
    opGroupReset port f p = { p with dev := (p.groupIntake port f).2 } := by
  rw [Part.groupIntake] at h
  exact if_pos (by rw [h]; rfl)

theorem opGroupReset_taken (h : (p.groupIntake port f).1 = true) :
    opGroupReset port f p = if (p.groupIntake port f).2.acceptsGroupReset port f
      then Part.manageReset { p with dev := (p.groupIntake port f).2 } false 0x20
      else { p with dev := (p.groupIntake port f).2.stranger port f 0x0C } := by
  rw [Part.groupIntake] at h
  exact if_neg (by rw [h]; decide)

end GroupReset

/-- A command that leaves the module reset, with memory empty and the queues as they are. -/
theorem State.resets {s : State} {i : Instr} {p : Part} {powerOn : Bool} {cause : Nat} (hi : exec i s = .next (s.withPart p))
    (mem : p.mem = {}) (h : s.part.dev.ResetTo p.dev powerOn cause) :
    ∃ t, exec i s = .next t ∧ t.pending = s.pending ∧ t.part.mem = {} ∧ s.part.dev.ResetTo t.part.dev powerOn cause :=
  ⟨_, hi, rfl, mem, h⟩

/-- Settles O52: each cause is a reset of the management class, whose effects are `Part.manageReset_resetTo`. -/
theorem managementResetsLoseMemory : Obligations.ManagementResetsLoseMemory := by
  refine ⟨fun s agent processor die => ?resets, fun s => ?stretch, fun s p f => ?group⟩
  case resets =>
    intro after
    have watchdog : after (.watchdogExpire processor die) false 3 := State.resets rfl rfl (opWatchdog_resetTo processor.val die.val s.part)
    have byProcessor (ha : isProcessor agent.toNat = true) : after (.sysReset agent) false 4 := by
      have done : s.part.written agent.toNat opSysReset = opSysReset s.part := Part.written_processor _ _ ha
      exact State.resets (s.onPart_next (f := fun p => p.written agent.toNat opSysReset) done) rfl (opSysReset_resetTo s.part)
    have byOther (ha : isProcessor agent.toNat = false) : exec (.sysReset agent) s = .next s := by
      have same : s.part.written agent.toNat opSysReset = s.part := Part.written_other _ _ ha
      exact s.onPart_same (f := fun p => p.written agent.toNat opSysReset) same
    exact ⟨State.resets rfl rfl (opPwrOkRise_resetTo s.part), State.resets rfl rfl (opPwrOkFall_resetTo s.part),
      State.resets rfl rfl (opDetectorTrip_resetTo s.part), State.resets rfl rfl (opResetIn_resetTo s.part),
      watchdog, byProcessor, byOther⟩
  case stretch =>
    exact ⟨rfl, rfl, fun h => s.onDev_next (opResetStretchEnd_free h), fun h => s.onDev_same (opResetStretchEnd_held h)⟩
  case group =>
    refine ⟨fun h => s.onPart_next (opGroupReset_dropped h),
      fun h ha => s.onPart_next ((opGroupReset_taken h).trans (if_neg (mt Device.acceptsGroupReset_iff.mp ha))),
      fun h ha => ⟨_, s.onPart_next ((opGroupReset_taken h).trans (if_pos (Device.acceptsGroupReset_iff.mpr ha))), rfl, rfl, ?_⟩,
      fun node evt h => ?_⟩
    · rw [State.withPart, Part.get_manageReset_cause]
      exact bit_lor_two_pow _ (i := 5) (by decide)
    · have same : opFaultCell p.val f node.toNat evt.toNat s.part = opGroupReset p.val f s.part := if_pos h
      exact s.onPart_next same

end Sys2Proof.Machine
end

section
/-! SUPPORT. Ranges cleared, granules scrubbed and written back, and blocks repaired (R385, R386, R393, R401, R404 to R410, R416). -/

namespace Sys2Proof.Machine

/-! ### VM_CLEAR (R393, R416) -/

section Clear
variable {die agent : Nat} {d : Device} {p : Part} {c : ClearRange} {l : List ClearRange}

theorem opVmClear_busy (h : bit (d.get (pageMem die + 0x150)) 31 = false) :
    opVmClear die agent d = d.refuseCtrl (pageMem die) 4 agent := by
  rw [opVmClear, if_pos (by rw [h]; rfl)]

/-- One on a die that is not busy begins where its range lies in the die's DRAM, and else ends at once. -/
theorem opVmClear_idle (h : bit (d.get (pageMem die + 0x150)) 31 = true) :
    let hi := d.get (pageMem die + 0x14C)
    let a := d.get (pageMem die + 0x148) / 64 * 64 + bits hi 7 0 * 2 ^ 32
    let n := bits hi 31 12 + 1
    opVmClear die agent d = if dramBase die ≤ a ∧ a + 64 * n ≤ dramBase (die + 1)
      then d.startClear die { lo := a / 64, hi := a / 64 + n }
      else d.endClear die a stTenant := by
  intro hi a n
  have outside : (decide (a < dramBase die) || decide (dramBase (die + 1) < a + 64 * n)) = true ↔
      ¬(dramBase die ≤ a ∧ a + 64 * n ≤ dramBase (die + 1)) := by
    simp only [Bool.or_eq_true, decide_eq_true_iff]
    omega
  rw [opVmClear, if_neg (by rw [h]; decide)]
  exact (if_congr outside rfl rfl).trans (ite_not ..)

theorem opVmClearGranule_none (h : (smapGet p.dev.mems {} die).clears = []) : opVmClearGranule die p = p := by
  rw [opVmClearGranule, h]

/-- The module once the map granule that is next in a range has been cleared. -/
def Part.clearNext (p : Part) (c : ClearRange) : Part :=
  match mapGranule (64 * c.lo) (64 * c.hi) c.cleared with
  | some g => p.onMem (·.clearMapGranule (64 * c.lo) (64 * c.hi) g)
  | none => p

theorem Part.eq_clearNext {q : Part}
    (touched : ∀ g, mapGranule (64 * c.lo) (64 * c.hi) c.cleared = some g → q = p.onMem (·.clearMapGranule (64 * c.lo) (64 * c.hi) g))
    (beyond : mapGranule (64 * c.lo) (64 * c.hi) c.cleared = none → q = p) : p.clearNext c = q := by
  rw [Part.clearNext]
  split
  case h_1 g hg => exact (touched g hg).symm
  case h_2 hg => exact (beyond hg).symm

theorem opVmClearGranule_more (h : (smapGet p.dev.mems {} die).clears = c :: l)
    (more : (mapGranule (64 * c.lo) (64 * c.hi) (c.cleared + 1)).isSome = true) :
    opVmClearGranule die p =
      (p.clearNext c).onDev (·.onMems die (fun m => { m with clears := { c with cleared := c.cleared + 1 } :: l })) := by
  rw [opVmClearGranule, h]
  exact if_pos more

theorem opVmClearGranule_last (h : (smapGet p.dev.mems {} die).clears = c :: l)
    (last : mapGranule (64 * c.lo) (64 * c.hi) (c.cleared + 1) = none) :
    opVmClearGranule die p = (p.clearNext c).onDev (fun d =>
      let e := (d.onMems die (fun m => { m with clears := l })).endClear die (64 * c.lo) stOk
      if l = [] then e else e.set (pageMem die + 0x150) 0) := by
  rw [opVmClearGranule, h]
  refine (if_neg (by rw [last]; decide)).trans ?_
  cases l <;> rfl

end Clear

/-! ### The scrubbers (R404, R405, R408) -/

section Scrub
variable {die stack g : Nat} {error : Option Ecc} {p : Part}

theorem opDramScrubRead_stopped (h : p.dev.scrubs die 0x100 = false) : opDramScrubRead die stack error p = p := by
  rw [opDramScrubRead, if_pos (by rw [h]; rfl)]

theorem opCoreStoreScrubRead_stopped (h : p.dev.scrubs die 0x104 = false) : opCoreStoreScrubRead die error p = p := by
  rw [opCoreStoreScrubRead, if_pos (by rw [h]; rfl)]

theorem opSramScrubRead_stopped (h : p.dev.scrubs 4 0x104 = false) : opSramScrubRead error p = p := by
  rw [opSramScrubRead, if_pos (by rw [h]; rfl)]

theorem opDramScrubRead_empty (hs : p.dev.scrubs die 0x100 = true)
    (h : nextValid p.mem.valid die stack (p.dev.get (pageMem die + 0x108 + 4 * stack)) = none) : opDramScrubRead die stack error p = p := by
  rw [opDramScrubRead, if_neg (by rw [hs]; decide)]
  simp only [h]

/-- The position of a stack's scrubber, beyond the granule read. -/
def Device.scrubBeyond (d : Device) (die stack g : Nat) : Device :=
  let d := d.set (pageMem die + 0x108 + 4 * stack) ((stackGranule g + 1) % stackGranules)
  if stackGranule g + 1 = stackGranules then d.scrubPass die stack else d

theorem opDramScrubRead_granule {wrapped : Bool} (hs : p.dev.scrubs die 0x100 = true)
    (h : nextValid p.mem.valid die stack (p.dev.get (pageMem die + 0x108 + 4 * stack)) = some (g, wrapped)) :
    opDramScrubRead die stack error p =
      Part.scrubRead { p with dev := (if wrapped then p.dev.scrubPass die stack else p.dev).scrubBeyond die stack g } die g error := by
  rw [opDramScrubRead, if_neg (by rw [hs]; decide)]
  simp only [h, Device.scrubBeyond]
  cases wrapped <;> split <;> rfl

theorem Device.scrubBeyond_inside (d : Device) (h : stackGranule g + 1 < stackGranules) :
    d.scrubBeyond die stack g = d.set (pageMem die + 0x108 + 4 * stack) (stackGranule g + 1) := by
  simp only [Device.scrubBeyond, Nat.mod_eq_of_lt h, if_neg (Nat.ne_of_lt h)]

theorem Device.scrubBeyond_end (d : Device) (h : stackGranule g + 1 = stackGranules) :
    d.scrubBeyond die stack g = (d.set (pageMem die + 0x108 + 4 * stack) 0).scrubPass die stack := by
  simp only [Device.scrubBeyond, h, Nat.mod_self, if_true]

theorem opCoreStoreScrubRead_runs (h : p.dev.scrubs die 0x104 = true) : opCoreStoreScrubRead die error p =
    let pos := p.dev.get (pageMem die + 0x110)
    let core := pos / 131072 % 128
    let g := pos % 131072
    (p.onDev (·.set (pageMem die + 0x110) (if g + 1 = 98304 then (core + 1) % 128 * 131072 else core * 131072 + g + 1))).scrubRead die
      (storeBase (128 * die + core) / 64 + g) error := by
  rw [opCoreStoreScrubRead, if_neg (by rw [h]; decide)]

theorem opSramScrubRead_runs (h : p.dev.scrubs 4 0x104 = true) : opSramScrubRead error p =
    let pos := p.dev.get (pageMem 4 + 0x110)
    (p.onDev (·.set (pageMem 4 + 0x110) ((pos + 1) % 1048576))).scrubRead 4 (sramBase / 64 + pos) error := by
  rw [opSramScrubRead, if_neg (by rw [h]; decide)]

/-- A granule without a codeword that the parity decoder takes is read as the errors listed say. -/
theorem Part.scrubRead_none (h : p.mem.errorsOf (64 * g) 64 isParity = []) : p.scrubRead die g none =
    let q := (p.mem.errorsIn (64 * g) 64 .correctable).foldl (fun (p : Part) _ => p.onDev (·.corrected (64 * g))) p
    if p.mem.errorsIn (64 * g) 64 .uncorrectable ≠ [] then (q.onMem (·.poisonGranule g)).onDev (·.uncorrected (64 * g))
    else if p.mem.errorsIn (64 * g) 64 .correctable ≠ [] then
      q.onMem (fun m => { m with writebacks := m.writebacks ++ [⟨die, g, true, false⟩] })
    else q := by
  rw [Part.scrubRead]
  simp only [h, List.foldl_nil]

end Scrub

/-! ### Writebacks and repair copies (R405 to R407, R410) -/

section Writeback
variable {die : Nat} {w : Writeback} {p : Part}

theorem opScrubWriteback_asleep (h : die < 4) (hs : 2 ≤ p.dev.sleepState die) : opScrubWriteback die p = p := by
  rw [opScrubWriteback, if_pos (by simp [h, hs])]

theorem opScrubWriteback_none (h : p.mem.writebacks.find? (fun w => w.page == die) = none) : opScrubWriteback die p = p := by
  rw [opScrubWriteback]
  simp only [h, ite_self]

theorem opScrubWriteback_some (awake : die = 4 ∨ p.dev.sleepState die < 2)
    (h : p.mem.writebacks.find? (fun w => w.page == die) = some w) :
    let q := p.onMem (fun m => { m with writebacks := dropFirst (fun w => w.page == die) m.writebacks })
    opScrubWriteback die p = if w.stale then q.onDev (·.count (pageMem die + 0x13C))
      else q.onMem (fun m => { m with ecc := smapEraseRange m.ecc (8 * w.granule) (8 * w.granule + 8) }) := by
  have up : ¬(decide (die < 4) && decide (2 ≤ p.dev.sleepState die)) = true := by
    simp only [Bool.and_eq_true, decide_eq_true_iff]
    omega
  simp only [opScrubWriteback, if_neg up, h]

theorem opRepairCopyDone_none (h : (smapGet p.dev.mems {} die).copy = none) : opRepairCopyDone die p = p := by
  rw [opRepairCopyDone, h]

theorem opRepairCopyDone_some {stack k : Nat} (h : (smapGet p.dev.mems {} die).copy = some (stack, k)) :
    let a := blockAddr (2 * die + stack) k
    opRepairCopyDone die p =
      ((p.touch a 4096).onMem (fun m => { m with ecc := smapEraseRange m.ecc (a / 8) (a / 8 + 512) })).onDev (fun d =>
        ((d.onMems die (fun m => { m with copy := none })).memEvent a 5 stOk).onHist (fun h => { h with
          repairs := h.repairs ++ [⟨true, 2 * die + stack, k⟩] })) := by
  rw [opRepairCopyDone, h]

end Writeback

/-- Settles O48: each command is its operation on the device or the module, whose cases are the lemmas above. -/
theorem memoryUpkeep : Obligations.MemoryUpkeep := by
  refine ⟨fun s die agent => ?clear, fun s die => ?granule, fun s die stack error => ?scrub, fun _ _ _ _ => rfl,
    fun p die g parity => ?read, fun s die => ?writeback, fun s die => ?repair⟩
  case clear =>
    intro d hi a n inside idle
    exact ⟨fun ha => s.onDev_same (Device.written_other _ _ ha), fun ha h => s.onDev_written ha (opVmClear_busy h),
      fun ha h within => s.onDev_written ha ((opVmClear_idle h).trans (if_pos within)),
      fun ha h outside => s.onDev_written ha ((opVmClear_idle h).trans (if_neg outside))⟩
  case granule =>
    refine ⟨fun h => s.onPart_same (opVmClearGranule_none h), fun c l q h touched beyond => ?_⟩
    rw [← Part.eq_clearNext touched beyond]
    exact ⟨fun more => s.onPart_next (opVmClearGranule_more h more), fun last => s.onPart_next (opVmClearGranule_last h last)⟩
  case scrub =>
    refine ⟨fun h => s.onPart_same (opDramScrubRead_stopped h), fun h => s.onPart_same (opCoreStoreScrubRead_stopped h),
      fun h => s.onPart_same (opSramScrubRead_stopped h), fun hs h => s.onPart_same (opDramScrubRead_empty hs h),
      fun g wrapped hs h => ⟨fun inside => ?_, fun ends => ?_⟩, fun h => s.onPart_next (opCoreStoreScrubRead_runs h),
      fun h => s.onPart_next (opSramScrubRead_runs h)⟩
    · exact s.onPart_next ((opDramScrubRead_granule hs h).trans (by rw [Device.scrubBeyond_inside _ inside]))
    · exact s.onPart_next ((opDramScrubRead_granule hs h).trans (by rw [Device.scrubBeyond_end _ ends]))
  case read =>
    refine ⟨fun bad good => ?_, fun bad good => ?_, fun w bad good => ?_⟩
    · rw [Part.scrubRead_none parity, bad, good]; rfl
    · rw [Part.scrubRead_none parity, good]
      exact if_pos bad
    · rw [Part.scrubRead_none parity, bad, good]; rfl
  case writeback =>
    exact ⟨fun h hs => s.onPart_same (opScrubWriteback_asleep h hs), fun h => s.onPart_same (opScrubWriteback_none h),
      fun w awake h => ⟨fun stale => s.onPart_next ((opScrubWriteback_some awake h).trans (if_pos stale)),
        fun fresh => s.onPart_next ((opScrubWriteback_some awake h).trans (if_neg (by simp [fresh])))⟩⟩
  case repair =>
    exact ⟨fun h => s.onPart_same (opRepairCopyDone_none h), fun stack k h => s.onPart_next (opRepairCopyDone_some h)⟩

end Sys2Proof.Machine
end

section
/-! SUPPORT. Dies that fall asleep and wake, level changes, and the state after a power-on reset (R390, R391, R505 to R514, R531). -/

namespace Sys2Proof.Machine

/-! ### Idle timers (R507, R508, R510) -/

section Idle
variable (die : Nat) (d : Device)

/-- S1 comes without an event; S2 and S3 raise EVT.SLEEP. -/
theorem Device.fallAsleep_one : d.fallAsleep die 1 = (d.setSleep die 1).count (pagePwr + 0x114) := rfl
theorem Device.fallAsleep_two : d.fallAsleep die 2 = ((d.setSleep die 2).count (pagePwr + 0x118)).pwrEvent 1 die := rfl
theorem Device.fallAsleep_three : d.fallAsleep die 3 = ((d.setSleep die 3).count (pagePwr + 0x11C)).pwrEvent 1 die := rfl

theorem opIdleS1_eq : opIdleS1 die d = if d.get (pagePwr + 0x108) ≠ 0 ∧ d.maySleep die 1 = true ∧
      (d.planRuns = false ∨ d.now + wakeLead + 1000 ≤ d.nextIssue die)
    then (d.setSleep die 1).count (pagePwr + 0x114) else d := by
  rw [← Device.fallAsleep_one]
  exact if_congr (by simp only [Bool.and_eq_true, Bool.or_eq_true, Bool.not_eq_true', bne_iff_ne, decide_eq_true_iff, and_assoc]) rfl rfl

theorem opIdleS2_eq : opIdleS2 die d = if d.get (pagePwr + 0x10C) ≠ 0 ∧ d.maySleep die 2 = true ∧ d.planRuns = false
    then ((d.setSleep die 2).count (pagePwr + 0x118)).pwrEvent 1 die else d := by
  rw [← Device.fallAsleep_two]
  exact if_congr (by simp only [Bool.and_eq_true, Bool.not_eq_true', bne_iff_ne, and_assoc]) rfl rfl

theorem opIdleS3_eq : opIdleS3 die d = if bit (d.get (pagePwr + 0x110)) 31 = true ∧ d.maySleep die 3 = true ∧ d.planRuns = false
    then ((d.setSleep die 3).count (pagePwr + 0x11C)).pwrEvent 1 die else d := by
  rw [← Device.fallAsleep_three]
  exact if_congr (by simp only [Bool.and_eq_true, Bool.not_eq_true', and_assoc]) rfl rfl

end Idle

/-! ### Waking (R390, R508, R510 to R512) -/

section Wake
variable {die : Nat} {d : Device} {p : Part}

theorem opS1SelfWake_other (h : d.sleepState die ≠ 1) : opS1SelfWake die d = d := by
  rw [opS1SelfWake, if_pos (bne_iff_ne.mpr h)]

theorem opS1SelfWake_asleep (h : d.sleepState die = 1) :
    opS1SelfWake die d = (if d.planRuns then d.reach (d.nextIssue die - wakeLead) else d).setSleep die 0 := by
  rw [opS1SelfWake, if_neg (by simp [h])]

theorem Device.wakeDie_asleep (h : 2 ≤ d.sleepState die) :
    d.wakeDie die = d.onPower (fun p => { p with waking := setInsert p.waking die }) := if_pos h

theorem Device.wakeDie_awake (h : d.sleepState die < 2) : d.wakeDie die = d := if_neg (Nat.not_le.mpr h)

/-- The end of a wake, after the re-check: awake, with EVT.WAKE, and where the module waits for it at the initial barrier (R510). -/
def Device.awaken (d : Device) (die : Nat) : Device :=
  (((d.setSleep die 0).onPower (fun p => { p with waking := setErase p.waking die })).pwrEvent 2 die).initialArrival

theorem opWakeComplete_not_waking (h : die ∉ p.dev.power.waking) : opWakeComplete die p = p := by
  rw [opWakeComplete, if_pos (by simp [h])]

theorem opWakeComplete_shallow (h : die ∈ p.dev.power.waking) (hs : p.dev.sleepState die ≠ 3) :
    opWakeComplete die p = p.onDev (fun d => (d.recheckDie die).awaken die) := by
  have shallow : (p.dev.sleepState die == 3) = false := beq_eq_false_iff_ne.mpr hs
  rw [opWakeComplete, if_neg (by simp [h])]
  simp only [shallow, Bool.false_eq_true, if_false]
  rfl

theorem opWakeComplete_deep (h : die ∈ p.dev.power.waking) (hs : p.dev.sleepState die = 3) :
    opWakeComplete die p =
      (p.onMem (·.clearStores (dieCores die))).onDev (fun d => ((d.recheckDie die).wakePass die).awaken die) := by
  rw [opWakeComplete, if_neg (by simp [h])]
  simp only [hs, beq_self_eq_true, if_true]
  rfl

end Wake

/-! ### Level changes (R505) -/

section Levels
variable {d : Device}

/-- The clock relocks at once on the way to a slower level, and else after the rail. -/
theorem opClockRelock_changing (h : d.changing = true) : opClockRelock d =
    if d.slowing = true ∨ d.power.railDone = true then d.onPower (fun p => { p with clockDone := true }) else d := by
  simp only [opClockRelock, h, Bool.true_and, Bool.or_eq_true]

/-- The rail ramps at once on the way to a faster level, and else after the clock. -/
theorem opRailRamp_changing (h : d.changing = true) : opRailRamp d =
    if d.slowing = false ∨ d.power.clockDone = true then d.onPower (fun p => { p with railDone := true }) else d := by
  simp only [opRailRamp, h, Bool.true_and, Bool.or_eq_true, Bool.not_eq_true']

theorem opClockRelock_steady (h : d.changing = false) : opClockRelock d = d := by
  rw [opClockRelock, h]; rfl

theorem opRailRamp_steady (h : d.changing = false) : opRailRamp d = d := by
  rw [opRailRamp, h]; rfl

end Levels

/-- Settles O51: each command is its operation on the device or the module, whose cases are the lemmas above. -/
theorem sleepAndLevels : Obligations.SleepAndLevels := by
  refine ⟨fun s die => ?dies, fun s agent => ?wake, fun s => ?levels⟩
  case dies =>
    intro d n may1 may2 may3
    refine ⟨fun h => ?_, fun h => ?_, fun h => ?_, fun h => ?_, fun h => ?_, fun h => ?_, fun h => ?_, fun h hp => ?_, fun h hp => ?_,
      fun h => ?_, fun h => ?_, fun h => ?_, fun h hs => ?_, fun h hs => ?_⟩
    · exact s.onDev_next ((opIdleS1_eq n d).trans (if_pos h))
    · exact s.onDev_same ((opIdleS1_eq n d).trans (if_neg h))
    · exact s.onDev_next ((opIdleS2_eq n d).trans (if_pos h))
    · exact s.onDev_same ((opIdleS2_eq n d).trans (if_neg h))
    · exact s.onDev_next ((opIdleS3_eq n d).trans (if_pos h))
    · exact s.onDev_same ((opIdleS3_eq n d).trans (if_neg h))
    · exact s.onDev_same (opS1SelfWake_other h)
    · exact s.onDev_next ((opS1SelfWake_asleep h).trans (by rw [if_neg (by simp [hp])]))
    · exact s.onDev_next ((opS1SelfWake_asleep h).trans (by rw [if_pos hp]))
    · exact s.onDev_next (Device.wakeDie_asleep h)
    · exact s.onDev_same (Device.wakeDie_awake h)
    · exact s.onPart_same (opWakeComplete_not_waking h)
    · exact s.onPart_next (opWakeComplete_shallow h hs)
    · exact s.onPart_next (opWakeComplete_deep h hs)
  case wake =>
    exact ⟨fun ha => s.onDev_written ha rfl, fun ha => s.onDev_same (Device.written_other _ _ ha)⟩
  case levels =>
    intro d
    refine ⟨fun h => ⟨s.onDev_same (opClockRelock_steady h), s.onDev_same (opRailRamp_steady h)⟩,
      fun h slower => ?_, fun h faster => ?_⟩
    · exact ⟨s.onDev_next ((opClockRelock_changing h).trans (if_pos (.inl slower))),
        fun clock => s.onDev_same ((opRailRamp_changing h).trans (if_neg (by simp [slower, clock]))),
        fun clock => s.onDev_next ((opRailRamp_changing h).trans (if_pos (.inr clock)))⟩
    · exact ⟨s.onDev_next ((opRailRamp_changing h).trans (if_pos (.inl faster))),
        fun rail => s.onDev_same ((opClockRelock_changing h).trans (if_neg (by simp [faster, rail]))),
        fun rail => s.onDev_next ((opClockRelock_changing h).trans (if_pos (.inr rail)))⟩

/-! ### The state after the power-on reset (R391, R514, R531, R538) -/

/-- RST_CAUSE is the only word that the power-on reset leaves written. -/
theorem State.get_reset (off : Nat) : State.reset.part.dev.get off = if off = pagePwr + 0x140 then 2 else resetValue off := by
  by_cases h : off = pagePwr + 0x140
  · rw [if_pos h, h]; rfl
  · simp [State.reset, Device.get, smapFind, h]

/-- Settles O5: the reset state lists nothing in memory, and one register. -/
theorem resetState : Obligations.ResetState := by
  refine ⟨⟨rfl, rfl, rfl, rfl, rfl, rfl⟩, ?_, fun off h => ?_⟩
  · rw [State.get_reset, if_pos rfl]
  · rw [State.get_reset, if_neg h]

end Sys2Proof.Machine
end

section
/-! SUPPORT. What a step and every command answer (00_scope.md), and what a command that takes a frame answers (R423 to R429). -/

namespace Sys2Proof.Machine

/-- Settles O1: the front of the queue decides the step. -/
theorem stepTakesTheFrontCommand : Obligations.StepTakesTheFrontCommand := by
  intro c rest s front
  rw [step, front]

/-- Every command answers the state with another module. -/
theorem exec_withPart (c : Instr) (s : State) : ∃ p, exec c s = .next (s.withPart p) := by
  cases c <;> exact ⟨_, rfl⟩

/-- Settles O3: another module leaves the queue as it was. -/
theorem everyCommandAnswers : Obligations.EveryCommandAnswers := by
  intro c s
  obtain ⟨p, acts⟩ := exec_withPart c s
  exact ⟨s.withPart p, acts, rfl⟩

/-! ### Commands that take a frame (R423 to R429) -/

section Frames
variable (s : State) {p : Nat} {f : MeshHdr} {c : Cell} {act : Device → Device}

/-- A frame command answers with what its cell does, where it is for this module. -/
theorem State.onFrame_next {d : Device} (mine : (s.part.dev.intake p f c).1 = true) (acts : act (s.part.dev.intake p f c).2 = d) :
    s.onDev (fun d => d.onFrame p f c act) = .next (s.withDev d) :=
  s.onDev_next ((Device.onFrame_mine act mine).trans acts)

/-- And else with what its port leaves. -/
theorem State.onFrame_dropped (other : (s.part.dev.intake p f c).1 = false) :
    s.onDev (fun d => d.onFrame p f c act) = .next (s.withDev (s.part.dev.intake p f c).2) :=
  s.onDev_next (Device.onFrame_other act other)

end Frames

end Sys2Proof.Machine
end

section
/-! SUPPORT. How a port trains, measures its hop latency and goes down, in each of their cases (R433, R434, R436, R458, R583). -/

namespace Sys2Proof.Machine

/-! ### Training (R433, R434, R458) -/

section Training
variable {d : Device} {p rate : Nat} {lock preempt : Bool}

/-- A port set up and locked, its lanes calibrated, with EVT.UP where it was not up. -/
def Device.portUp (d : Device) (p : Nat) (preempt : Bool) (rate : Nat) : Device :=
  let set := (d.set (pagePort p + 0x104) (3 + 4 * flag preempt + 32 * rate)).calibrateLanes p
  if bit (d.get (pagePort p + 0x104)) 0 then set else set.portEvent p 0 stOk 0 0 0

/-- A port that begins to train: its old figures are dropped and its TRAIN cells sent. -/
def Device.beginTraining (d : Device) (p : Nat) : Device :=
  (d.onPort p (fun x => { x with training := true, figures := [] })).sendTrain p

theorem opPortTraining_off (h : lock = false ∨ bit (d.get (pagePort p + 0x100)) 31 = false ∨ bits (d.get (pagePort p + 0x100)) 1 0 = 0) :
    opPortTraining p lock preempt rate d = d := by
  rw [opPortTraining, Device.train, if_pos (by rcases h with h | h | h <;> simp [h])]

theorem opPortTraining_on (locks : lock = true) (enabled : bit (d.get (pagePort p + 0x100)) 31 = true)
    (mode : bits (d.get (pagePort p + 0x100)) 1 0 ≠ 0) (hr : rate < 4) : opPortTraining p lock preempt rate d =
      if bits (d.get (pagePort p + 0x100)) 1 0 = 1 then (d.portUp p preempt rate).beginTraining p else d.portUp p preempt rate := by
  rw [opPortTraining, Device.train, if_neg (by simp [locks, enabled, mode]), Nat.mod_eq_of_lt hr]
  rfl

/-- What a TRAIN cell for this module does: a request is returned, and a return gives a figure or is held against HOP_LAT. -/
def Device.trained (d : Device) (p : Nat) (f : MeshHdr) (role seq sent turn : Nat) : Device :=
  if role = 0 then (d.cellOn p true (.train 1 seq sent (Config.turnaround d.free).toNat)).drawn
  else if (d.port p).training then d.onPort p (fun x => { x with figures := x.figures ++ [d.now - sent - turn] })
  else d.lateCheck p f 0x09 ((d.now - sent - turn) / 2)

theorem Device.trained_figure {f : MeshHdr} {role seq sent turn : Nat} (back : role ≠ 0) (trains : (d.port p).training = true) :
    d.trained p f role seq sent turn = d.onPort p (fun x => { x with figures := x.figures ++ [d.now - sent - turn] }) := by
  rw [Device.trained, if_neg back, if_pos trains]

theorem Device.trained_checked {f : MeshHdr} {role seq sent turn : Nat} (back : role ≠ 0) (still : (d.port p).training = false) :
    d.trained p f role seq sent turn = d.lateCheck p f 0x09 ((d.now - sent - turn) / 2) := by
  rw [Device.trained, if_neg back, if_neg (by simp [still])]

theorem exec_trainCell (s : State) (p : Port) (f : MeshHdr) (role : BitVec 8) (seq : U32) (sent : Tick) (turn : U32) :
    exec (.trainCell p f role seq sent turn) s = s.onDev (fun d =>
      d.onFrame p.val f (.train role.toNat seq.toNat sent.toNat turn.toNat)
        (fun d => d.trained p.val f role.toNat seq.toNat sent.toNat turn.toNat)) := rfl

theorem opTrainingDone_idle (figures : List Nat) (h : (d.port p).training = false) : opTrainingDone p figures d = d :=
  if_pos (by rw [h]; decide)

theorem opTrainingDone_trains (figures : List Nat) (h : (d.port p).training = true) : opTrainingDone p figures d =
    ((((d.onPort p (fun x => { x with training := false, figures := [] })).set (pagePort p + 0x108)
      (Nat.min (hopLat ((d.port p).figures ++ figures)) 0xFFFF)).set (pagePort p + 0x10C)
      (Nat.min (hopJit ((d.port p).figures ++ figures)) 0xFFFF)).setBits (pagePort p + 0x104) 3 3 1).measureHops :=
  if_neg (by rw [h]; decide)

theorem opRetrain_running (agent : Nat) (h : d.planRuns = true) : opRetrain p agent d = d.refuseCtrl (pagePort p) 2 agent := if_pos h

theorem opRetrain_stopped (agent : Nat) (h : d.planRuns = false) {e : Device}
    (he : (d.setBits (pagePort p + 0x104) 3 3 0).calibrateLanes p = e) : opRetrain p agent d =
      if bits (e.get (pagePort p + 0x104)) 1 0 = 3 ∧ e.portMode p = 1 then e.beginTraining p else e := by
  subst he
  unfold opRetrain Device.beginTraining
  exact if_neg (by rw [h]; decide)

end Training

/-! ### A port that goes down (R436, R583) -/

section Down
variable (d : Device) (p : Nat)

/-- A port that has gone down: its state cleared and counted, EVT.DOWN raised and the history of a lane written. -/
def Device.portDown : Device :=
  ((((d.set (pagePort p + 0x104) (withBits (d.get (pagePort p + 0x104)) 3 0 0)).count (pagePort p + 0x164)).portEvent p 1 stOk 0 0
    0).linkRecord p).onPort p (fun x => { x with training := false, figures := [] })

/-- The fault of a mesh port that has gone down: declared by the root, and else sent to it where a port is up. -/
def Device.downFault : Device :=
  if d.isRoot then d.declareFault stOk d.node
  else match d.faultPort p with
    | some q => d.sendOn q d.node 0 24 d.heatField false (.fault d.node ((0x40 + p) * 0x100 + 1))
    | none => d

variable {d p}

theorem Device.downFault_root (root : d.isRoot = true) : d.downFault p = d.declareFault stOk d.node := if_pos root

theorem Device.downFault_cut_off (far : d.isRoot = false) (cut : d.faultPort p = none) : d.downFault p = d := by
  rw [Device.downFault, far, cut]; rfl

theorem Device.downFault_sent {q : Nat} (far : d.isRoot = false) (up : d.faultPort p = some q) : d.downFault p =
    d.sendOn q d.node 0 24 d.heatField false (.fault d.node ((0x40 + p) * 0x100 + 1)) := by
  rw [Device.downFault, far, up]; rfl

theorem opLinkDown_host {e : Device} (he : d.portDown p = e) (host : e.portMode p ≠ 1) : opLinkDown p d = e := by
  subst he
  unfold opLinkDown
  exact if_pos host

theorem opLinkDown_mesh {e : Device} (he : d.portDown p = e) (mesh : e.portMode p = 1) : opLinkDown p d = e.downFault p := by
  subst he
  unfold opLinkDown
  exact if_neg (not_not.mpr mesh)

end Down

/-- Settles O40: each command is its operation on the device, whose cases are the lemmas above. -/
theorem trainingAndLinks : Obligations.TrainingAndLinks := by
  refine ⟨fun s p lock preempt rate => ?training, fun s p f role seq sent turn => ?cell, fun s p figures => ?done,
    fun s p agent => ?retrain, fun s p => ?down⟩
  case training =>
    refine ⟨fun off => ?_, fun locks enabled mesh => ?_, fun locks enabled on other => ?_⟩
    · exact s.onDev_same (opPortTraining_off off)
    · exact s.onDev_next ((opPortTraining_on locks enabled (by rw [mesh]; decide) rate.isLt).trans (if_pos mesh))
    · exact s.onDev_next ((opPortTraining_on locks enabled on rate.isLt).trans (if_neg other))
  case cell =>
    rw [exec_trainCell]
    refine ⟨fun other => ?_, fun mine request => ?_, fun mine back trains => ?_, fun mine back still late => ?_,
      fun mine back still inTime => ?_⟩
    · exact s.onFrame_dropped other
    · exact s.onFrame_next mine (if_pos request)
    · exact s.onFrame_next mine (Device.trained_figure back trains)
    · exact s.onFrame_next mine ((Device.trained_checked back still).trans (if_pos late))
    · exact s.onFrame_next mine ((Device.trained_checked back still).trans (if_neg (Int.not_lt.mpr inTime)))
  case done =>
    refine ⟨fun idle => ?_, fun trains => ?_⟩
    · exact s.onDev_same (opTrainingDone_idle figures idle)
    · exact s.onDev_next (opTrainingDone_trains figures trains)
  case retrain =>
    refine ⟨fun ha runs => ?_, fun ha stopped trains => ?_, fun ha stopped still => ?_, fun ha => ?_⟩
    · exact s.onDev_written ha (opRetrain_running _ runs)
    · exact s.onDev_written ha ((opRetrain_stopped _ stopped rfl).trans (if_pos trains))
    · exact s.onDev_written ha ((opRetrain_stopped _ stopped rfl).trans (if_neg still))
    · exact s.onDev_same (Device.written_other _ _ ha)
  case down =>
    refine ⟨fun host => ?_, fun mesh root => ?_, fun mesh far cut => ?_, fun q mesh far up => ?_⟩
    · exact s.onDev_next (opLinkDown_host rfl host)
    · exact s.onDev_next ((opLinkDown_mesh rfl mesh).trans (Device.downFault_root root))
    · exact s.onDev_next ((opLinkDown_mesh rfl mesh).trans (Device.downFault_cut_off far cut))
    · exact s.onDev_next ((opLinkDown_mesh rfl mesh).trans (Device.downFault_sent far up))

end Sys2Proof.Machine
end

section
/-! SUPPORT. How a module takes its node and its group, and what HELLO and ring cells do, in each of their cases (R437 to R441). -/

namespace Sys2Proof.Machine

/-! ### Enumeration (R437 to R441) -/

section Enumeration
variable {d : Device} {v : Nat}

theorem opEnumStart_module (h : d.mesh.bridgeSel = false) : opEnumStart d = d := by rw [opEnumStart, h]; rfl

theorem opEnumStart_bridge (h : d.mesh.bridgeSel = true) : opEnumStart d =
    (((d.takeNode 0).setBits (pageMesh + 0x100) 12 12 1).send (.enumOut 1)).helloAll := by rw [opEnumStart, h]; rfl

theorem opRingDiscTimeout_open (hb : d.mesh.bridgeSel = true) (hf : d.mesh.groupFailed = false) (hc : d.mesh.closed = none) :
    opRingDiscTimeout d = d.enumFail 0 := by
  rw [opRingDiscTimeout, if_pos (by simp [hb, hf, hc])]

theorem opRingDiscTimeout_other (h : d.mesh.bridgeSel = false ∨ d.mesh.groupFailed = true ∨ d.mesh.closed ≠ none) :
    opRingDiscTimeout d = d := by
  rw [opRingDiscTimeout, if_neg (by rcases h with h | h | h <;> simp [h])]

/-- The device once a token has come. -/
def Device.tokenSeen (d : Device) : Device := { d with mesh := { d.mesh with token := true } }

theorem opEnumToken_taken (first : d.mesh.token = false) (hb : d.mesh.bridgeSel = false) (h1 : 1 ≤ v) (h15 : v ≤ 15) :
    opEnumToken v d = ((d.tokenSeen.takeNode v).send (.enumOut (v + 1))).helloAll := by
  have valid : ¬((d.mesh.token || decide (v = 0) || decide (15 < v) || d.mesh.bridgeSel) = true) := by simp [first, hb]; omega
  simp only [opEnumToken]
  exact if_neg valid

theorem opEnumToken_fails (h : d.mesh.token = true ∨ d.mesh.bridgeSel = true ∨ v = 0 ∨ 15 < v) :
    opEnumToken v d = (d.tokenSeen.setBits (pageMesh + 0x100) 13 13 0).enumFail v := by
  have invalid : (d.mesh.token || decide (v = 0) || decide (15 < v) || d.mesh.bridgeSel) = true := by
    rcases h with h | h | h | h <;> simp [h]
  simp only [opEnumToken]
  exact if_pos invalid

/-- The device once the neighbours that no HELLO has come from are found missing. -/
def Device.neighboursJudged (d : Device) : Device := if d.enumBit 13 then d.missingNeighbours else d

/-- All 15 reports have come and are in order. -/
def Device.AllReported (d : Device) : Prop := ∀ n, 1 ≤ n → n ≤ 15 → (n, true) ∈ d.mesh.reports

theorem Device.allReported_iff : ((List.range 16).tail.all (fun n => d.mesh.reports.contains (n, true))) = true ↔ d.AllReported := by
  simp only [List.all_eq_true, List.tail_range, List.mem_range'_1, List.contains_iff_mem, Device.AllReported]
  exact forall_congr' fun n => ⟨fun h h1 h15 => h ⟨h1, by omega⟩, fun h hn => h hn.1 (by omega)⟩

theorem opEnumReportTimeout_lacks (hb : d.neighboursJudged.mesh.bridgeSel = true) (lacks : ¬d.neighboursJudged.AllReported) :
    opEnumReportTimeout d = ({ d.neighboursJudged with mesh := { d.neighboursJudged.mesh with groupFailed := true } } : Device).meshEvent 2 0 := by
  rw [← Device.allReported_iff] at lacks
  rw [opEnumReportTimeout]
  exact if_pos (by rw [Bool.and_eq_true, Bool.not_eq_true']; exact ⟨hb, Bool.eq_false_iff.mpr lacks⟩)

theorem opEnumReportTimeout_waits (h : d.neighboursJudged.mesh.bridgeSel = false ∨ d.neighboursJudged.AllReported) :
    opEnumReportTimeout d = d.neighboursJudged := by
  rw [← Device.allReported_iff] at h
  rw [opEnumReportTimeout]
  refine if_neg ?_
  rw [Bool.and_eq_true, Bool.not_eq_true', not_and_or]
  exact h.imp Bool.eq_false_iff.mp fun all => Bool.eq_false_iff.not.mpr (not_not.mpr all)

end Enumeration

/-! ### HELLO and ring cells (R439, R440) -/

/-- What a HELLO for this module does: it gives a node without a group its group, and else it is checked. -/
def Device.greeted (d : Device) (p node group serial : Nat) (groupValid : Bool) : Device :=
  if groupValid && node == 0 && !d.mesh.bridgeSel && d.enumBit 13 && !(d.enumBit 14) then d.takeGroup group
  else d.checkNeighbour p node group serial groupValid

theorem Device.greeted_takes {d : Device} {node : Nat} {groupValid : Bool} (hg : groupValid = true) (hn : node = 0)
    (hb : d.mesh.bridgeSel = false) (h13 : d.enumBit 13 = true) (h14 : d.enumBit 14 = false) (p group serial : Nat) :
    d.greeted p node group serial groupValid = d.takeGroup group := by
  rw [Device.greeted, if_pos (by simp [hg, hn, hb, h13, h14])]

theorem Device.greeted_checks {d : Device} {node : Nat} {groupValid : Bool}
    (h : groupValid = false ∨ node ≠ 0 ∨ d.mesh.bridgeSel = true ∨ d.enumBit 13 = false ∨ d.enumBit 14 = true) (p group serial : Nat) :
    d.greeted p node group serial groupValid = d.checkNeighbour p node group serial groupValid := by
  rw [Device.greeted, if_neg (by rcases h with h | h | h | h | h <;> simp [h])]

/-- What a report for this module does: the bridge keeps it, and another module sends it on until its HOPS are used up. -/
def Device.reported (d : Device) (p : Nat) (f : MeshHdr) (c : Cell) (node : Nat) (ok : Bool) : Device :=
  if d.mesh.bridgeSel then d.keepReport node ok
  else if f.hops.toNat = 0 then d.count (pagePort p + 0x168)
  else d.sendOn (d.portTo (d.node / 16 * 16) false) f.src.toNat f.dst.toNat (f.hops.toNat - 1) f.heat.toNat f.broadcast c

/-- What a ring cell for this module does. -/
def Device.ringSeen (d : Device) (origin smallest groups : Nat) : Device :=
  if !d.mesh.bridgeSel || d.mesh.groupFailed then d
  else if origin = d.serial then ({ d with mesh := { d.mesh with closed := some (groups, smallest) } }).fixGroup
  else (({ d with mesh := { d.mesh with ring := smapSet d.mesh.ring origin groups } } : Device).cellOn 5 true
    (.ringDisc origin (Nat.min smallest d.serial) (groups + 1))).fixGroup

section RingSeen
variable {d : Device} {origin : Nat} (smallest groups : Nat)

theorem Device.ringSeen_idle (h : d.mesh.bridgeSel = false ∨ d.mesh.groupFailed = true) : d.ringSeen origin smallest groups = d := by
  rw [Device.ringSeen, if_pos (by rcases h with h | h <;> simp [h])]

theorem Device.ringSeen_bridge (hb : d.mesh.bridgeSel = true) (hf : d.mesh.groupFailed = false) : d.ringSeen origin smallest groups =
    if origin = d.serial then ({ d with mesh := { d.mesh with closed := some (groups, smallest) } }).fixGroup
    else (({ d with mesh := { d.mesh with ring := smapSet d.mesh.ring origin groups } } : Device).cellOn 5 true
      (.ringDisc origin (Nat.min smallest d.serial) (groups + 1))).fixGroup := by
  rw [Device.ringSeen, if_neg (by simp [hb, hf])]

end RingSeen

/-! ### The node address (R441) -/

section NodeAddress
variable (d : Device) {off : Nat}

theorem Device.get_setBits_other (hi lo v : Nat) {off' : Nat} (h : off' ≠ off) : (d.setBits off hi lo v).get off' = d.get off' :=
  d.get_set_other _ h

theorem Device.get_eachTb {f : Device → Nat → Device} (h : ∀ e p, p < 5 → (f e (pageTb p)).get off = Device.get e off) :
    (d.eachTb f).get off = d.get off :=
  List.foldlRecOn (motive := fun e => e.get off = d.get off) _ _ rfl fun e he p hp => (h e p (List.mem_range.mp hp)).trans he

/-- The lock is written and told on the time-base pages alone, which end before the mesh page. -/
theorem Device.get_gainLock (offset : Int) (h : lockWord < off) (hb : off ≠ pageBrd + 0x108) :
    (d.gainLock offset).get off = d.get off := by
  have told (e : Device) : (e.tbEvent 0 offset).get off = e.get off := e.get_eachTb fun e p hp =>
    e.get_event _ _ _ hb (by obtain ⟨_, _, _⟩ := pageTb_bounds hp; omega)
  have set : (d.setTb 0 0 1).get off = d.get off := d.get_eachTb fun e p hp =>
    e.get_setBits_other _ _ _ (by obtain ⟨_, _, _⟩ := pageTb_bounds hp; omega)
  exact (told _).trans set

theorem Device.get_takeGroup_node {g : Nat} (hg : g < 32) :
    (d.takeGroup g).get (pageMesh + 0x104) = g * 16 + bits (d.get (pageMesh + 0x100)) 3 0 := by
  have small : bits (d.get (pageMesh + 0x100)) 3 0 < 2 ^ 4 := Nat.mod_lt _ (by decide)
  have behind : lockWord < pageMesh + 0x104 := by decide
  have away : pageMesh + 0x104 ≠ pageBrd + 0x108 := by decide
  have locks (e : Device) (n : Nat) : (if n = 0 then (e.setTb 1 1 1).gainLock 0 else e).get (pageMesh + 0x104) = e.get (pageMesh + 0x104) := by
    split
    · exact (Device.get_gainLock _ _ behind away).trans (e.get_eachTb fun e p hp =>
        e.get_setBits_other _ _ _ (by obtain ⟨_, _, _⟩ := pageTb_bounds hp; omega))
    · rfl
  rw [Device.takeGroup, locks, Device.meshEvent, Device.get_eventSt _ _ _ _ away (by decide), Device.get_setBits_other _ _ _ _ (by decide),
    Device.get_setBits_other _ _ _ _ (by decide), Device.get_set_other _ _ (by decide), Device.get_set_same, Nat.mod_eq_of_lt (by omega)]

end NodeAddress

/-- Settles O41: each command is its operation on the device or its cell, whose cases are the lemmas above. -/
theorem enumeration : Obligations.Enumeration := by
  refine ⟨fun s => ?timers, fun s v => ?token, fun s p f node group port serial nodeValid groupValid ok => ⟨?hello, ?report⟩,
    fun s p f origin smallest groups => ?ring, fun d g hg => d.get_takeGroup_node hg⟩
  case timers =>
    refine ⟨fun hb => ?_, fun hb => ?_, fun hb hf hc => ?_, fun h => ?_, fun hb lacks => ?_, fun h => ?_⟩
    · exact s.onDev_same (opEnumStart_module hb)
    · exact s.onDev_next (opEnumStart_bridge hb)
    · exact s.onDev_next (opRingDiscTimeout_open hb hf hc)
    · exact s.onDev_same (opRingDiscTimeout_other h)
    · obtain ⟨n, h1, h15, absent⟩ := lacks
      exact s.onDev_next (opEnumReportTimeout_lacks hb fun all => absent (all n h1 h15))
    · exact s.onDev_next (opEnumReportTimeout_waits h)
  case token =>
    refine ⟨fun first hb h1 h15 => ?_, fun h => ?_⟩
    · exact s.onDev_next (opEnumToken_taken first hb h1 h15)
    · exact s.onDev_next (opEnumToken_fails h)
  case hello =>
    have hello : exec (.helloCell p f node group port serial nodeValid groupValid false ok) s = s.onDev (fun d => d.onFrame p.val f
        (.hello node.toNat group.toNat port.toNat serial.toNat nodeValid groupValid false ok)
        (fun d => d.greeted p.val node.toNat group.toNat serial.toNat groupValid)) := rfl
    rw [hello]
    refine ⟨fun other => ?_, fun mine hg hn hb h13 h14 => ?_, fun mine h => ?_⟩
    · exact s.onFrame_dropped other
    · exact s.onFrame_next mine (Device.greeted_takes hg hn hb h13 h14 ..)
    · exact s.onFrame_next mine (Device.greeted_checks h ..)
  case report =>
    have report : exec (.helloCell p f node group port serial nodeValid groupValid true ok) s = s.onDev (fun d => d.onFrame p.val f
        (.hello node.toNat group.toNat port.toNat serial.toNat nodeValid groupValid true ok)
        (fun d => d.reported p.val f (.hello node.toNat group.toNat port.toNat serial.toNat nodeValid groupValid true ok) node.toNat ok)) := rfl
    rw [report]
    refine ⟨fun other => ?_, fun mine hb => ?_, fun mine hb last => ?_, fun mine hb more => ?_⟩
    · exact s.onFrame_dropped other
    · exact s.onFrame_next mine (if_pos hb)
    · exact s.onFrame_next mine ((if_neg (by simp [hb])).trans (if_pos last))
    · exact s.onFrame_next mine ((if_neg (by simp [hb])).trans (if_neg more))
  case ring =>
    have ring : exec (.ringDiscCell p f origin smallest groups) s = s.onDev (fun d => d.onFrame p.val f
        (.ringDisc origin.toNat smallest.toNat groups.toNat) (fun d => d.ringSeen origin.toNat smallest.toNat groups.toNat)) := rfl
    rw [ring]
    refine ⟨fun h => ?_, fun mine hb hf own => ?_, fun mine hb hf far => ?_⟩
    · cases mine : (s.part.dev.intake p.val f (.ringDisc origin.toNat smallest.toNat groups.toNat)).1
      · exact s.onFrame_dropped mine
      · exact s.onFrame_next mine (Device.ringSeen_idle _ _ (h.resolve_left (by simp [mine])))
    · exact s.onFrame_next mine ((Device.ringSeen_bridge _ _ hb hf).trans (if_pos own))
    · exact s.onFrame_next mine ((Device.ringSeen_bridge _ _ hb hf).trans (if_neg far))

end Sys2Proof.Machine
end

section
/-! SUPPORT. What a converter delivers, and how triggers, alarms and self-calibrations act, in each of their cases (R467 to R469, R472, R473,
R475, R504). -/

namespace Sys2Proof.Machine

/-! ### Steps (R467, R469) -/

section Steps
variable {x : Part} {p st : Nat} {c : Converter}

theorem opConverterStepDone_rests (mean : Int) (hs : x.dev.mcStat p = st) (hc : x.dev.converter p = c)
    (h : bit st 0 = true ∨ (bit st 2 = false ∧ bit c.cfg 0 = false)) : opConverterStepDone p mean x = x := by
  subst hs hc
  unfold opConverterStepDone
  rcases h with calibrates | ⟨regular, stands⟩
  · exact if_pos calibrates
  · exact ite_eq_left_iff.mpr fun _ => (if_neg (by simp [regular])).trans (if_neg (by simp [stands]))

theorem opConverterStepDone_regular (mean : Int) (hs : x.dev.mcStat p = st) (hc : x.dev.converter p = c) (idle : bit st 0 = false)
    (regular : bit st 2 = false) (runs : bit c.cfg 0 = true) {step word : Nat} (at_ : bits st 12 8 = step) (hw : c.steps.getD step 0 = word) :
    opConverterStepDone p mean x = (x.deliverResult p (bits word 3 0) step word false mean).onDev (·.nextStep p) := by
  subst hs hc at_ hw
  unfold opConverterStepDone
  exact (if_neg (by simp [idle])).trans ((if_neg (by simp [regular])).trans (if_pos runs))

theorem opConverterStepDone_injected (mean : Int) (hs : x.dev.mcStat p = st) (hc : x.dev.converter p = c) (idle : bit st 0 = false)
    (injected : bit st 2 = true) {word : Nat} (hw : c.inj.getD c.injStep 0 = word) :
    opConverterStepDone p mean x = (x.deliverResult p (bits word 3 0) c.injStep word true mean).onDev (fun d =>
      if bits c.cfg 21 20 ≤ c.injStep then d.endInjected p else d.onConverter p (fun c => { c with injStep := c.injStep + 1 })) := by
  subst hs hc hw
  unfold opConverterStepDone
  exact (if_neg (by simp [idle])).trans (if_pos injected)

end Steps

/-! ### Triggers (R468, R469) -/

section Triggers
variable {d : Device} {p k : Nat}

theorem Device.trigger_masked (h : bit (d.converter p).cfg (16 + k) = false) : d.trigger p k = d := if_pos (by simp [h])

theorem Device.trigger_starts (enabled : bit (d.converter p).cfg (16 + k) = true) (free : bit (d.mcStat p) 2 = false) :
    d.trigger p k = d.startInjected p (decide (k = 0)) :=
  (if_neg (by simp [enabled])).trans (if_pos (by simp [free]))

theorem Device.trigger_missed (enabled : bit (d.converter p).cfg (16 + k) = true) (runs : bit (d.mcStat p) 2 = true)
    (pending : bit (d.mcStat p) 3 = true) : d.trigger p k = d.count (pageMon p + 0x13C) :=
  (if_neg (by simp [enabled])).trans ((if_neg (by simp [runs])).trans (if_pos pending))

theorem Device.trigger_waits (enabled : bit (d.converter p).cfg (16 + k) = true) (runs : bit (d.mcStat p) 2 = true)
    (free : bit (d.mcStat p) 3 = false) : d.trigger p k =
      (if k = 0 then d.onConverter p (fun c => { c with witnessNext := true }) else d).setStat p 3 3 1 :=
  (if_neg (by simp [enabled])).trans ((if_neg (by simp [runs])).trans (if_neg (by simp [free])))

theorem opInjectTrigger_none (h : k ∉ (d.converter p).alarms) : opInjectTrigger p k d = d := if_pos (by simp [h])

theorem opInjectTrigger_posted (h : k ∈ (d.converter p).alarms) : opInjectTrigger p k d =
    (d.onConverter p (fun c => { c with alarms := dropFirst (· == k) c.alarms })).trigger p k := if_neg (by simp [h])

end Triggers

/-! ### Self-calibration (R475) -/

section SelfCal
variable {d : Device} {p : Nat}

theorem opSelfCal_busy (agent : Nat) (h : bit (d.get (pageMon p + 0x100)) 0 = true ∨ bit (d.mcStat p) 0 = true) :
    opSelfCal p agent d = d.refuseCtrl (pageMon p) 4 agent := if_pos (by simpa using h)

theorem opSelfCal_free (agent : Nat) (h : ¬(bit (d.get (pageMon p + 0x100)) 0 = true ∨ bit (d.mcStat p) 0 = true)) :
    opSelfCal p agent d = d.startCal p := if_neg (by simpa using h)

theorem opSelfCalDone_idle (residual : Int) (gain offset : Nat) (h : bit (d.mcStat p) 0 = false) :
    opSelfCalDone p residual gain offset d = d := if_neg (by simp [h])

theorem opSelfCalDone_begun (residual : Int) (gain offset : Nat) (h : bit (d.mcStat p) 0 = true) : opSelfCalDone p residual gain offset d =
    (d.elapse ((d.converter p).calSince + 1600000 - d.pageTick (pageMon p))).calibrated p residual gain offset := if_pos h

end SelfCal

/-- Settles O49: each command is its operation on the device or the module, whose cases are the lemmas above. -/
theorem monitorConverters : Obligations.MonitorConverters := by
  refine ⟨fun s die mean => ?steps, fun s die k => ?alarms, fun d p k => ?triggers, fun s die agent => ?processor,
    fun s die residual gain offset => ?done, fun s die ch => s.onDev_next rfl⟩
  case steps =>
    refine ⟨fun rests => ?_, fun idle regular runs => ?_, fun idle injected => ?_⟩
    · exact s.onPart_same (opConverterStepDone_rests mean rfl rfl rests)
    · exact s.onPart_next (opConverterStepDone_regular mean rfl rfl idle regular runs rfl rfl)
    · exact s.onPart_next (opConverterStepDone_injected mean rfl rfl idle injected rfl)
  case alarms =>
    refine ⟨fun absent => ?_, fun posted => ?_, s.onDev_next rfl⟩
    · exact s.onDev_same (opInjectTrigger_none absent)
    · exact s.onDev_next (opInjectTrigger_posted posted)
  case triggers =>
    exact ⟨Device.trigger_masked, fun enabled => ⟨Device.trigger_starts enabled, Device.trigger_missed enabled, Device.trigger_waits enabled⟩⟩
  case processor =>
    refine ⟨fun ha => ⟨?_, ?_⟩, fun ha => ?_, fun ha busy => ?_, fun ha free => ?_⟩
    · exact s.onDev_same (Device.written_other _ _ ha)
    · exact s.onDev_same (Device.written_other _ _ ha)
    · exact s.onDev_written ha rfl
    · exact s.onDev_written ha (opSelfCal_busy _ busy)
    · exact s.onDev_written ha (opSelfCal_free _ free)
  case done =>
    refine ⟨fun idle => ?_, fun begun => ?_⟩
    · exact s.onDev_same (opSelfCalDone_idle _ _ _ idle)
    · exact s.onDev_next (opSelfCalDone_begun _ _ _ begun)

end Sys2Proof.Machine
end

section
/-! SUPPORT. What a port does with a frame: its FEC, the checks in their order, the counts, and the frame sent on (R419, R423 to R429, R458,
R583). -/

namespace Sys2Proof.Machine

/-! ### The FEC (R419, R458, R583) -/

section Fec
variable {d : Device} {p : Nat} {f : MeshHdr} {type : Nat}

theorem Device.fecSeen_clean (h : f.fecUncorrectable = 0) : d.fecSeen p f type = d.countMany (pagePort p + 0x140) f.fecCorrected :=
  if_pos h

theorem Device.fecSeen_lost (h : f.fecUncorrectable ≠ 0) {e : Device} (he : d.countMany (pagePort p + 0x140) f.fecCorrected = e) :
    d.fecSeen p f type =
      ((e.countMany (pagePort p + 0x144) f.fecUncorrectable).portEvent p 2 stOk type f.src.toNat f.seq.toNat).linkRecord p := by
  subst he
  exact if_neg h

end Fec

/-! ### The checks (R423, R424, R426, R429, R458) -/

section Judge
variable (d : Device) (p : Nat) (f : MeshHdr) (c : Cell)

/-- A frame counted, on a port that takes it. -/
def Device.frameCounted : Device := (d.count64 (pagePort p + 0x128) 1).count64 (pagePort p + 0x138) c.size

/-- The port takes the frame's class, and the frame is sent to it or is of a broadcast type. -/
def Device.Takes (f : MeshHdr) (c : Cell) : Prop :=
  f.express = c.express ∧ (f.toOwn = true ∨ (f.broadcast = true ∧ 9 ≤ c.type ∧ c.type ≤ 0xB))

/-- The frame passes MACsec, or the port does not ask for it. -/
def Device.Secure : Prop := bit (d.get (pagePort p + 0x100)) 12 = true → f.macsecOk = true

variable {d p f c}

theorem Device.get_count64_before (d : Device) {off off' : Nat} (n : Nat) (h : off' < off) : (d.count64 off n).get off' = d.get off' := by
  rw [Device.count64, Device.set64, Device.get_set_other _ _ (by omega), Device.get_set_other _ _ (by omega)]

theorem Device.judge_other (h : d.portMode p ≠ 1) :
    d.judge p f c = (false, if d.portMode p = 2 then d.count (pagePort p + 0x158) else d) := by
  by_cases host : d.portMode p = 2
  · rw [Device.judge, if_pos host, if_pos host]
  · rw [Device.judge, if_neg host, if_pos h, if_neg host]

/-- The counters of a port are none of the mesh page's words. -/
theorem Device.node_frameCounted : (d.frameCounted p c).node = d.node := by
  have before : pageMesh + 0x104 < pagePort p := by rw [pageMesh, pagePort]; omega
  simp only [Device.node, Device.frameCounted, Device.get_count64_before _ _ (Nat.lt_add_right _ before)]

variable (mesh : d.portMode p = 1)
include mesh

theorem Device.judge_mesh : d.judge p f c =
    if !f.fcsOk then (false, d.count (pagePort p + 0x148))
    else if bit (d.get (pagePort p + 0x100)) 12 && !f.macsecOk then
      (false, (d.count (pagePort p + 0x15C)).portEvent p 6 stOk c.type f.src.toNat f.seq.toNat)
    else if f.express != c.express || !(f.toOwn || (f.broadcast && decide (9 ≤ c.type) && decide (c.type ≤ 0xB))) then
      (false, d.stranger p f c.type)
    else if f.broadcast || decide (f.dst.toNat = (d.frameCounted p c).node) then (true, d.frameCounted p c)
    else (false, (d.frameCounted p c).forward p f c) := by
  rw [Device.judge, if_neg (by rw [mesh]; decide), if_neg (not_not.mpr mesh)]
  rfl

theorem Device.judge_damaged (fcs : f.fcsOk = false) : d.judge p f c = (false, d.count (pagePort p + 0x148)) := by
  rw [Device.judge_mesh mesh, if_pos (by simp [fcs])]

theorem Device.judge_insecure (fcs : f.fcsOk = true) (mac : f.macsecOk = false) (asks : bit (d.get (pagePort p + 0x100)) 12 = true) :
    d.judge p f c = (false, (d.count (pagePort p + 0x15C)).portEvent p 6 stOk c.type f.src.toNat f.seq.toNat) := by
  rw [Device.judge_mesh mesh, if_neg (by simp [fcs]), if_pos (by simp [mac, asks])]

variable (fcs : f.fcsOk = true) (secure : d.Secure p f)
include fcs secure

theorem Device.judge_stranger
    (strange : f.express ≠ c.express ∨ (f.toOwn = false ∧ (f.broadcast = false ∨ c.type < 9 ∨ 0xB < c.type))) :
    d.judge p f c = (false, d.stranger p f c.type) := by
  rw [Device.judge_mesh mesh, if_neg (by simp [fcs]), if_neg (by simpa [Device.Secure] using secure), if_pos]
  rcases strange with class_ | ⟨own, none | low | high⟩
  · simp [class_]
  · simp [own, none]
  · simp [own, show ¬9 ≤ c.type by omega]
  · simp [own, show ¬c.type ≤ 0xB by omega]

theorem Device.judge_taken (takes : Device.Takes f c) : d.judge p f c =
    if f.broadcast = true ∨ f.dst.toNat = d.node then (true, d.frameCounted p c) else (false, (d.frameCounted p c).forward p f c) := by
  obtain ⟨class_, own | ⟨broadcast, low, high⟩⟩ := takes <;>
  · rw [Device.judge_mesh mesh, if_neg (by simp [fcs]), if_neg (by simpa [Device.Secure] using secure), if_neg (by simp [*]),
      Device.node_frameCounted]
    exact if_congr (by simp) rfl rfl

end Judge

/-- A mesh port takes what passes all its checks and is for this module. -/
theorem Device.judge_fst_iff {d : Device} {p : Nat} {f : MeshHdr} {c : Cell} (mesh : d.portMode p = 1) : (d.judge p f c).1 = true ↔
    (f.fcsOk = true ∧ d.Secure p f ∧ Device.Takes f c) ∧ (f.broadcast = true ∨ f.dst.toNat = d.node) := by
  cases fcs : f.fcsOk
  · rw [Device.judge_damaged mesh fcs]; simp
  by_cases secure : d.Secure p f
  · by_cases takes : Device.Takes f c
    · rw [Device.judge_taken mesh fcs secure takes]
      split <;> simp [*]
    · have strange : f.express ≠ c.express ∨ (f.toOwn = false ∧ (f.broadcast = false ∨ c.type < 9 ∨ 0xB < c.type)) := by
        rw [Device.Takes] at takes
        grind
      rw [Device.judge_stranger mesh fcs secure strange]
      simp [takes]
  · obtain ⟨asks, mac⟩ := Classical.not_imp.mp secure
    rw [Device.judge_insecure mesh fcs (Bool.eq_false_iff.mpr mac) asks]
    simp [secure]

/-! ### A frame sent on (R428, R429) -/

section Forward
variable {d : Device} {p : Nat} {f : MeshHdr} {c : Cell}

theorem Device.forward_spent (h : f.hops.toNat = 0) : d.forward p f c = d.count (pagePort p + 0x168) := if_pos h

theorem Device.forward_unroutable (more : f.hops.toNat ≠ 0) (some : bits (d.get (pageMesh + 0x100)) 21 16 ≠ 0)
    (beyond : bits (d.get (pageMesh + 0x100)) 21 16 * 16 ≤ f.dst.toNat) : d.forward p f c = d.count (pagePort p + 0x16C) := by
  rw [Device.forward, if_neg more]
  exact if_pos ⟨some, by omega⟩

theorem Device.forward_sent (more : f.hops.toNat ≠ 0)
    (known : bits (d.get (pageMesh + 0x100)) 21 16 = 0 ∨ f.dst.toNat < bits (d.get (pageMesh + 0x100)) 21 16 * 16) : d.forward p f c =
      (d.count (pageMesh + 0x118)).sendOn (d.portTo f.dst.toNat c.bulkOdd) f.src.toNat f.dst.toNat (f.hops.toNat - 1) f.heat.toNat false c := by
  rw [Device.forward, if_neg more]
  exact if_neg (by omega)

end Forward

/-- Settles O36: a port takes a frame as its FEC leaves it and as its checks, one after another, decide. -/
theorem frameChecks : Obligations.FrameChecks := by
  refine ⟨fun d p f type => ⟨Device.fecSeen_clean, fun lost => Device.fecSeen_lost lost rfl⟩, fun e p f c => ?_,
    fun e p f c => Device.judge_other, fun d p f c => ⟨Device.forward_spent, Device.forward_unroutable, Device.forward_sent⟩⟩
  intro d mesh counted reaches
  refine ⟨Device.judge_fst_iff mesh, fun mine => ?_, fun reach alone far => ?_, Device.judge_damaged mesh, Device.judge_insecure mesh,
    Device.judge_stranger mesh⟩
  · obtain ⟨⟨fcs, secure, takes⟩, here⟩ := (Device.judge_fst_iff mesh).mp mine
    exact congrArg Prod.snd ((Device.judge_taken mesh fcs secure takes).trans (if_pos here))
  · obtain ⟨fcs, secure, takes⟩ := reach
    exact (Device.judge_taken mesh fcs secure takes).trans (if_neg (by simp [alone, far]))

end Sys2Proof.Machine
end

section
/-! SUPPORT. Writes that reach their page or are refused (R535, R541, R542), captures (R540) and events (R539). -/

namespace Sys2Proof.Machine

/-! ### Bits of a word -/

/-- A word less the bits it shares with a mask keeps exactly its other bits. -/
theorem testBit_sub_land (x v i : Nat) : (x - Nat.land x v).testBit i = (x.testBit i && !(v.testBit i)) := by
  have below : x &&& v ≤ x := Nat.and_le_left
  have low : ((x &&& v) % 2 = 1) ↔ (x % 2 = 1 ∧ v % 2 = 1) := by
    simp
  change (x - (x &&& v)).testBit i = _
  induction i generalizing x v with
  | zero =>
    simp only [Nat.testBit_zero]
    by_cases hx : x % 2 = 1 <;> by_cases hv : v % 2 = 1 <;> simp only [hx, hv, and_true, and_false, iff_true, iff_false] at low <;>
      simp [hx, hv] <;> omega
  | succ i ih =>
    have half : (x - (x &&& v)) / 2 = x / 2 - (x / 2 &&& v / 2) := by rw [← Nat.and_div_two]; omega
    rw [Nat.testBit_add_one, half, ih _ _ Nat.and_le_left, Nat.testBit_add_one, Nat.testBit_add_one]
    simp

/-- A bit that is not set is set by adding its power of two. -/
theorem testBit_add_two_pow {x b : Nat} (h : x.testBit b = false) (i : Nat) : (x + 2 ^ b).testBit i = (x.testBit i || decide (i = b)) := by
  have rest : (x ||| 2 ^ b) - Nat.land (x ||| 2 ^ b) (2 ^ b) = x := Nat.eq_of_testBit_eq fun j => by
    rw [testBit_sub_land, Nat.testBit_or, Nat.testBit_two_pow]
    by_cases hj : b = j
    · subst hj; simp [h]
    · simp [hj]
  have top : Nat.land (x ||| 2 ^ b) (2 ^ b) = 2 ^ b := Nat.eq_of_testBit_eq fun j => by
    change ((x ||| 2 ^ b) &&& 2 ^ b).testBit j = _
    rw [Nat.testBit_and, Nat.testBit_or]
    cases x.testBit j <;> simp
  have above : 2 ^ b ≤ x ||| 2 ^ b := Nat.right_le_or
  rw [show x + 2 ^ b = x ||| 2 ^ b by omega, Nat.testBit_or, Nat.testBit_two_pow]
  simp [eq_comm]

/-- The bits of a register below 32 are those of the number written. -/
theorem Device.bit_get_set (d : Device) (off v : Nat) {i : Nat} (h : i < 32) : bit ((d.set off v).get off) i = v.testBit i := by
  rw [Device.get_set_same, bit_eq_testBit, Nat.testBit_mod_two_pow, decide_eq_true h, Bool.true_and]

/-! ### Pages (R534, R535, R541, R542) -/

section Pages
variable {d : Device} {off v width agent g k : Nat}

/-- The page is present, and not the BHT page of a module that is no bridge. -/
def Device.Reaches (d : Device) (page : Nat) : Prop := d.pageHere page = true ∧ (page = pageBht → d.enumBit 12 = true)

theorem Device.badAccess_misaligned (h : width ≠ 4 ∨ off % 4 ≠ 0) : d.badAccess off v width agent = some (d.logAccess 1 off v agent) :=
  if_pos (by simpa using h)

theorem Device.badAccess_absent (hw : width = 4) (h4 : off % 4 = 0) (absent : d.pageHere (pageOf off) = false) :
    d.badAccess off v width agent = some (d.logAccess 2 off v agent) :=
  (if_neg (by simp [hw, h4])).trans (if_pos (by simp [absent]))

theorem Device.badAccess_closed (hw : width = 4) (h4 : off % 4 = 0) (here : d.pageHere (pageOf off) = true) (bht : pageOf off = pageBht)
    (closed : d.enumBit 12 = false) : d.badAccess off v width agent = some (d.logAccess 7 off v agent) :=
  (if_neg (by simp [hw, h4])).trans ((if_neg (by simp [here])).trans (if_pos ⟨bht, by rw [Device.enumBit] at closed; simp [closed]⟩))

theorem Device.badAccess_reaches (hw : width = 4) (h4 : off % 4 = 0) (reach : d.Reaches (pageOf off)) :
    d.badAccess off v width agent = none := by
  obtain ⟨here, bridge⟩ := reach
  exact (if_neg (by simp [hw, h4])).trans ((if_neg (by simp [here])).trans
    (if_neg fun ⟨bht, closed⟩ => by have := bridge bht; rw [Device.enumBit] at this; simp [this] at closed))

variable {f : Device → Device}

theorem Device.onPage_refused {e : Device} (h : d.badAccess off v 4 agent = some e) : d.onPage off v agent f = e := by
  rw [Device.onPage, h]

theorem Device.onPage_reaches (h : d.badAccess off v 4 agent = none) : d.onPage off v agent f = f (d.wakePage off) := by
  rw [Device.onPage, h]

/-- A word of a page, by its offset in it. -/
theorem pageOf_add (hg : pageOf g = g) (hk : k < 0x1000) : pageOf (g + k) = g := by
  simp only [pageOf] at hg ⊢
  omega

theorem pageOf_pageOf : pageOf (pageOf off) = pageOf off := by
  simp only [pageOf]
  omega

/-- Every word of a page wakes the page's die. -/
theorem Device.wakePage_add (hg : pageOf g = g) (hk : k < 0x1000) : d.wakePage (g + k) = d.wakePage g := by
  have same : offDie (g + k) = offDie g := by
    simp only [pageOf, offDie, bits, Nat.shiftRight_eq_div_pow] at hg ⊢
    omega
  rw [Device.wakePage, Device.wakePage, same]

@[simp] theorem Device.get_wakePage (d : Device) (off o : Nat) : (d.wakePage off).get o = d.get o := by
  simp only [Device.wakePage, Device.wakeDie]
  split
  · split <;> rfl
  · rfl

section OfPage
theorem page_word_aligned (hg : pageOf g = g) (h4 : k % 4 = 0) : (g + k) % 4 = 0 := by
  rw [pageOf] at hg
  omega

variable (hg : pageOf g = g) (hk : k < 0x1000) (h4 : k % 4 = 0)
include hg hk h4

theorem Device.onPage_word_absent (absent : d.pageHere g = false) : d.onPage (g + k) v agent f = d.logAccess 2 (g + k) v agent :=
  Device.onPage_refused (Device.badAccess_absent rfl (page_word_aligned hg h4) (by rw [pageOf_add hg hk, absent]))

theorem Device.onPage_word_closed (here : d.pageHere g = true) (bht : g = pageBht) (closed : d.enumBit 12 = false) :
    d.onPage (g + k) v agent f = d.logAccess 7 (g + k) v agent :=
  Device.onPage_refused (Device.badAccess_closed rfl (page_word_aligned hg h4) (by rw [pageOf_add hg hk, here])
    (by rw [pageOf_add hg hk, bht]) closed)

theorem Device.onPage_word (reach : d.Reaches g) : d.onPage (g + k) v agent f = f (d.wakePage g) := by
  rw [Device.onPage_reaches (Device.badAccess_reaches rfl (page_word_aligned hg h4) (by rwa [pageOf_add hg hk])),
    Device.wakePage_add hg hk]

end OfPage
end Pages

/-! ### Captures (R540) -/

section Captures
variable {d : Device} {page : Nat} {words : List Nat}

theorem padTo_getElem? {i n : Nat} {l : List Nat} (hl : l.length ≤ n) (hi : i < n) : (padTo n 0 l)[i]? = some (l.getD i 0) := by
  rw [padTo_of_le hl]
  by_cases h : i < l.length
  · rw [List.getElem?_append_left h, List.getElem?_eq_getElem h, List.getD_eq_getElem _ _ h]
  · rw [List.getElem?_append_right (by omega), List.getElem?_replicate_of_lt (by omega), List.getD_eq_default _ _ (by omega)]

theorem Device.capture_empty (h : bit (d.get (page + 0x1C)) 0 = false) : d.capture page words =
    (d.setWords (page + 0x20) (padTo 8 0 words)).set (page + 0x1C) (withBits (d.get (page + 0x1C)) 0 0 1) := if_neg (by simp [h])

theorem Device.capture_full (h : bit (d.get (page + 0x1C)) 0 = true) : d.capture page words =
    d.set (page + 0x1C) (withBits (d.get (page + 0x1C)) 15 8 (Nat.min (bits (d.get (page + 0x1C)) 15 8 + 1) 0xFF)) := if_pos h

theorem testBit_withBits_zero (w : Nat) : (withBits w 0 0 1).testBit 0 = true := by
  rw [← bit_eq_testBit, bit_eq_bits, bits_withBits]
  rfl

end Captures

/-- Settles O55: an empty capture is filled, a full one keeps its words, and CAP_CLEAR writes the words of its page alone. -/
theorem captureHoldsTheFirstError : Obligations.CaptureHoldsTheFirstError := by
  refine ⟨fun d page words small short => ⟨fun empty => ?empty, fun full => ?full⟩, fun s page agent => ?clear⟩
  case empty =>
    rw [Device.capture_empty empty]
    refine ⟨fun i hi => ?_, ?_⟩
    · have word : words.getD i 0 < 2 ^ 32 := by
        by_cases h : i < words.length
        · exact List.getD_eq_getElem words 0 h ▸ small _ (List.getElem_mem h)
        · rw [List.getD_eq_default _ _ (by omega)]; decide
      rw [Device.get_set_other _ _ (by omega), Device.get_setWords _ (padTo_getElem? short hi), Nat.mod_eq_of_lt word]
    · rw [Device.bit_get_set _ _ _ (by decide), testBit_withBits_zero]
  case full =>
    rw [Device.capture_full full]
    refine ⟨fun i hi => Device.get_set_other _ _ (by omega), ?_⟩
    rw [Device.bit_get_set _ _ _ (by decide), ← bit_eq_testBit, bit_withBits_below _ _ _ (by decide), full]
  case clear =>
    intro d g ha here bridge
    have cleared : opCapClear g agent.toNat d =
        ((d.wakePage g).setWords (g + 0x20) (List.replicate 8 0)).set (g + 0x1C) 0 :=
      Device.onPage_word pageOf_pageOf (by decide) (by decide) ⟨here, bridge⟩
    refine ⟨_, s.onDev_written ha cleared, rfl, fun i hi => ?_, ?_, ?_, fun off away => ?_⟩
    · have zero : (List.replicate 8 0)[i]? = some 0 := List.getElem?_replicate_of_lt hi
      exact (Device.get_set_other _ _ (by omega)).trans (Device.get_setWords _ zero)
    · exact congrArg (bits · 15 8) (Device.get_set_same _ _ _)
    · exact congrArg (bit · 0) (Device.get_set_same _ _ _)
    · have outside : off < g + 0x1C ∨ g + 0x40 ≤ off := by
        have := @pageOf_pageOf page.toNat
        change pageOf g = g at this
        simp only [pageOf] at this away
        omega
      refine (Device.get_set_other _ _ (by omega)).trans (Eq.trans ?_ (d.get_wakePage g off))
      rcases outside with below | above
      · exact Device.get_setWords_below _ (by omega)
      · exact Device.get_setWords_above _ (by simpa using above)

/-! ### Events (R539) -/

section Events
variable {d : Device} {page b : Nat}

theorem Device.raise_again (h : bit (d.get (page + 0x10)) b = true) : d.raise page b = d := if_pos h

theorem Device.raise_first (h : bit (d.get (page + 0x10)) b = false) {e : Device}
    (he : d.set (page + 0x10) (d.get (page + 0x10) + 2 ^ b) = e) :
    d.raise page b = if bit (d.get (page + 0x14)) b then e.notifyEvent page b else e := by
  have enable : d.get (page + 0x14) = e.get (page + 0x14) := by rw [← he, Device.get_set_other _ _ (by omega)]
  rw [Device.raise, if_neg (by simp [h]), enable, ← he]

theorem Device.length_sent_send_if (c : Bool) (d : Device) (o : Out) :
    (if c = true then d.send o else d).sent.length = d.sent.length + flag c := by
  cases c <;> simp [flag, Device.send]

/-- The destinations of a route, one after another. -/
theorem length_filter_range_five (f : Nat → Bool) :
    ((List.range 5).filter f).length = flag (f 0) + flag (f 1) + flag (f 2) + flag (f 3) + flag (f 4) := by
  rw [← List.countP_eq_length_filter]
  simp only [List.range, List.range.loop, List.countP_cons, List.countP_nil, flag]
  omega

theorem Device.length_sent_notifyEvent : (d.notifyEvent page b).sent.length =
    d.sent.length + ((List.range 5).filter (fun i => bit (d.get (page + 0x18)) i)).length := by
  have ibi (c : Bool) (e : Device) (n : Nat) (o : Out) :
      (if c = true then (e.count n).send o else e).sent.length = e.sent.length + flag c := by
    cases c <;> simp [flag, Device.send]
  rw [length_filter_range_five, Device.notifyEvent]
  simp only [ibi, Device.length_sent_send_if]
  omega

end Events

/-- Settles O56: an event by the state of its bit, a notification by its route, and EVT_CLEAR by its mask. -/
theorem eventBits : Obligations.EventBits := by
  refine ⟨fun d page b hb => ⟨fun i hi => ?set, Device.raise_again, fun clear off => ?disabled, fun clear on => ?enabled⟩,
    fun d page b => ⟨fun off away => Device.get_notifyEvent _ _ away, Device.length_sent_notifyEvent⟩, fun s page mask agent => ?clear⟩
  case set =>
    rw [Device.bit_get_set _ _ _ hi]
    simp only [bit_eq_testBit]
    split
    · next set => by_cases h : i = b <;> simp [h, set]
    · next clear => exact testBit_add_two_pow (Bool.eq_false_iff.mpr clear) i
  case disabled => exact (Device.raise_first clear rfl).trans (if_neg (by simp [off]))
  case enabled => exact (Device.raise_first clear rfl).trans (if_pos on)
  case clear =>
    intro d g ha here bridge
    have cleared : opEvtClear g mask.toNat agent.toNat d =
        (d.wakePage g).set (g + 0x10) (d.get (g + 0x10) - Nat.land (d.get (g + 0x10)) mask.toNat) := by
      rw [opEvtClear, Device.onPage_word pageOf_pageOf (by decide) (by decide) ⟨here, bridge⟩, Device.get_wakePage]
    refine ⟨_, s.onDev_written ha cleared, rfl, fun i hi => ?_, fun off away => ?_⟩
    · refine (Device.bit_get_set _ _ _ hi).trans ?_
      rw [testBit_sub_land, bit_eq_testBit, bit_eq_testBit]
    · exact (Device.get_set_other _ _ away).trans (d.get_wakePage g off)

end Sys2Proof.Machine
end

section
/-! SUPPORT. Who may write a register (R536), and what a write does to staged images, locks, counters, block resets and live registers (R521,
R535, R538, R541, R544 to R546, R549, R557). -/

namespace Sys2Proof.Machine

/-! ### Writes of agents (R536) -/

/-- A processor's register write is its operation on the module. -/
theorem State.onPart_written (s : State) {agent : Nat} {f : Part → Part} {p : Part} (ha : isProcessor agent = true)
    (h : f s.part = p) : s.onPart (fun p => p.written agent f) = .next (s.withPart p) :=
  s.onPart_next ((Part.written_processor _ f ha).trans h)

/-- Another agent's register write leaves the state as it was. -/
theorem State.onPart_written_other (s : State) {agent : Nat} (f : Part → Part) (ha : isProcessor agent = false) :
    s.onPart (fun p => p.written agent f) = .next s :=
  s.onPart_same (Part.written_other _ f ha)

theorem State.onDev_written_other (s : State) {agent : Nat} (f : Device → Device) (ha : isProcessor agent = false) :
    s.onDev (fun d => d.written agent f) = .next s :=
  s.onDev_same (Device.written_other _ f ha)

/-- Settles O60: every command that writes a register is written by its agent, on the module or on the device. -/
theorem onlyProcessorsWrite : Obligations.OnlyProcessorsWrite := by
  intro c s a ha hw
  cases c with
  | billetFetch => cases hw; exact s.onPart_written_other (opBilletFetch a.toNat) ha
  | sysReset => cases hw; exact s.onPart_written_other opSysReset ha
  | registerWrite off v width => cases hw; exact s.onPart_written_other (·.writeReg off.toNat v.toNat width a.toNat) ha
  | extend => cases hw; exact s.onPart_written_other (opExtend a.toNat) ha
  | quote => cases hw; exact s.onPart_written_other (opQuote a.toNat) ha
  | dbgUnlock => cases hw; exact s.onPart_written_other opDbgUnlock ha
  | _ => cases hw <;> exact s.onDev_written_other _ ha

/-! ### Staged images (R546, R549) -/

section Staged
variable {d e : Device} {off v agent : Nat} (reach : d.badAccess off v 4 agent = none) (he : d.wakePage off = e)
include reach he

theorem opStagedImageWrite_unlisted (h : ∀ w ∈ stagedWords (pageOf off), w.1 + 0x800 ≠ offByte off) :
    opStagedImageWrite off v agent d = e.logAccess 3 off v agent := by
  rw [opStagedImageWrite, Device.onPage_reaches reach, he]
  exact if_pos (by simpa using h)

variable (listed : ∃ w ∈ stagedWords (pageOf off), w.1 + 0x800 = offByte off)
include listed

theorem opStagedImageWrite_held (held : e.pageHeld (pageOf off) = true) :
    opStagedImageWrite off v agent d = e.logAccess 5 off v agent := by
  rw [opStagedImageWrite, Device.onPage_reaches reach, he]
  exact (if_neg (by simpa using listed)).trans (if_pos held)

theorem opStagedImageWrite_staged (free : e.pageHeld (pageOf off) = false) :
    opStagedImageWrite off v agent d = e.stageWord (pageOf off) (offByte off - 0x800) v := by
  rw [opStagedImageWrite, Device.onPage_reaches reach, he]
  exact (if_neg (by simpa using listed)).trans (if_neg (by simp [free]))

end Staged

/-! ### The words that every page has (R538, R544, R545) -/

/-- The writes of a page that is absent or closed are refused alike. -/
theorem page_ops_refused {d : Device} {g kind agent : Nat} (key : Nat) (refused : ∀ k v f, k < 0x1000 → k % 4 = 0 →
    d.onPage (g + k) v agent f = d.logAccess kind (g + k) v agent) :
    opStageDiscard g agent d = d.logAccess kind (g + 0x40) 1 agent ∧ opLockSet g agent d = d.logAccess kind (g + 0x54) 1 agent ∧
    opCntClr g agent d = d.logAccess kind (g + 0x8) 1 agent ∧ opBlkReset g key agent d = d.logAccess kind (g + 0x50) key agent :=
  ⟨refused _ _ _ (by decide) (by decide), refused _ _ _ (by decide) (by decide), refused _ _ _ (by decide) (by decide),
    refused _ _ _ (by decide) (by decide)⟩

section Common
variable {d : Device} {g : Nat} (hg : pageOf g = g)
include hg

variable {e : Device} (agent : Nat) (reach : d.Reaches g) (he : d.wakePage g = e)
include reach he

theorem opStageDiscard_eq : opStageDiscard g agent d =
    if e.pageHeld g then e.logAccess 5 (g + 0x40) 1 agent else e.discardStage g := by
  rw [opStageDiscard, Device.onPage_word hg (by decide) (by decide) reach, he]

theorem opLockSet_eq : opLockSet g agent d = if hasLock g then e.set (g + 0x54) 2 else e := by
  rw [opLockSet, Device.onPage_word hg (by decide) (by decide) reach, he]

theorem opCntClr_eq : opCntClr g agent d = if counterOffs g = [] then e.logAccess 3 (g + 0x8) 1 agent
    else (counterOffs g).foldl (fun (d : Device) o => d.set (g + o) 0) e := by
  rw [opCntClr, Device.onPage_word hg (by decide) (by decide) reach, he]

theorem opBlkReset_eq (key : Nat) {k : PageKind} (hk : pageKind g = some k) : opBlkReset g key agent d =
    if (pageInfo k).blkReset && key == idType k g * 0x10000 + 0xA5C3 then
      e.onCommits (fun c => { c with resets := c.resets ++ [(g, e.now + 64)] })
    else e.logAccess 6 (g + 0x50) key agent := by
  rw [opBlkReset, Device.onPage_word hg (by decide) (by decide) reach, he, hk]

end Common

/-! ### Live registers (R536 to R538) -/

/-- Replacing all 32 bits of a register writes it. -/
theorem Device.writeBits_all (d : Device) (off v : Nat) : d.writeBits off v 0xFFFFFFFF = d.set off v := by
  have low (x : Nat) : Nat.land x 0xFFFFFFFF = x % 2 ^ 32 := Nat.and_two_pow_sub_one_eq_mod x 32
  have same : BitVec.ofNat 32 (d.get off - Nat.land (d.get off) 0xFFFFFFFF + Nat.land v 0xFFFFFFFF) = BitVec.ofNat 32 v := by
    apply BitVec.eq_of_toNat_eq
    rw [low, low, BitVec.toNat_ofNat, BitVec.toNat_ofNat]
    omega
  rw [Device.writeBits, Device.set, same]
  rfl

section Live
variable {e : Device} {off v agent : Nat} {k : PageKind} {r : Reg}

theorem Device.writeLive_unlisted (h : regRow k (offByte off) = none) : e.writeLive off v agent k = e.logAccess 3 off v agent := by
  rw [Device.writeLive, h]

theorem Device.writeLive_read_only (h : regRow k (offByte off) = some r) (other : off ≠ pageCom + 0x140) (rw_ : r.rw = 0) (rwl : r.rwl = 0) :
    e.writeLive off v agent k = e.logAccess 3 off v agent := by
  rw [Device.writeLive, h]
  exact (if_neg other).trans (if_pos ⟨rw_, rwl⟩)

/-- A register of RW bits alone, on a page whose registers have no behaviour of their own, takes the word. -/
theorem Device.writeLive_plain (hk : pageKind off = some k) (h : regRow k (offByte off) = some r) (rw_ : r.rw = 0xFFFFFFFF) (rwl : r.rwl = 0)
    (commit : k ≠ .commit) (sync : k ≠ .sync) (monitor : k ≠ .monitor) : e.writeLive off v agent k = e.set off v := by
  have elsewhere {o : Nat} {j : PageKind} (ho : pageKind o = some j) (hj : k ≠ j) : off ≠ o := fun same =>
    hj (Option.some.inj (hk.symm.trans (same ▸ ho)))
  have log : off ≠ pageCom + 0x140 := elsewhere (by decide) commit
  have command : off ≠ pageSync + 0x14C := elsewhere (by decide) sync
  have view : off ≠ pageSync + 0x160 := elsewhere (by decide) sync
  have lead : off ≠ pageCom + 0x120 := elsewhere (by decide) commit
  rw [Device.writeLive, h]
  simp only [if_neg log, rw_, rwl, if_neg command, if_neg view, lead, false_and, if_false, monitor, Device.writeBits_all,
    Device.writeLocked, if_true, and_true, Nat.reduceEqDiff]

end Live

/-! ### Register writes by their offset (R538, R539, R541, R542) -/

section WriteReg
variable {p : Part} {off v width agent : Nat}

theorem Part.writeReg_refused {e : Device} (h : p.dev.badAccess off v width agent = some e) :
    p.writeReg off v width agent = { p with dev := e } := by rw [Part.writeReg, h]

variable {k : PageKind} (reach : p.dev.badAccess off v width agent = none) (hk : pageKind off = some k)
include reach hk

theorem Part.writeReg_private (h : 0xF00 ≤ offByte off) : p.writeReg off v width agent = p.onDev (·.wakePage off) := by
  rw [Part.writeReg, reach, hk]
  exact if_pos h

theorem Part.writeReg_enable (h : offByte off = 0x14) : p.writeReg off v width agent =
    p.onDev (fun d => (d.wakePage off).set off (Nat.land v (pageInfo k).evt)) := by
  rw [Part.writeReg, reach, hk]
  simp only [h]
  rfl

theorem Part.writeReg_route (h : offByte off = 0x18) : p.writeReg off v width agent =
    p.onDev (fun d => (d.wakePage off).set off (v % 64)) := by
  rw [Part.writeReg, reach, hk]
  simp only [h]
  rfl

theorem Part.writeReg_live (low : 0x100 ≤ offByte off) (high : offByte off < 0x700) : p.writeReg off v width agent =
    p.onDev (fun d => (d.wakePage off).writeLive off v agent k) := by
  have past {o : Nat} (ho : o < 0x100) : offByte off ≠ o := by omega
  rw [Part.writeReg, reach, hk]
  simp only [if_neg (show ¬0xF00 ≤ offByte off by omega), if_neg (show ¬0x900 ≤ offByte off by omega),
    if_neg (past (show 8 < 0x100 by decide)), if_neg (past (show 0x10 < 0x100 by decide)), if_neg (past (show 0x14 < 0x100 by decide)),
    if_neg (past (show 0x18 < 0x100 by decide)), if_neg (past (show 0x1C < 0x100 by decide)), if_neg (past (show 0x40 < 0x100 by decide)),
    if_neg (past (show 0x50 < 0x100 by decide)), if_neg (past (show 0x54 < 0x100 by decide)), if_pos (And.intro low high)]
  rfl

end WriteReg

/-! ### Block resets that act (R521) -/

section BlockReset
variable {d : Device} {page : Nat}

theorem opBlockReset_none (h : d.commits.resets.find? (fun r => r.1 == page) = none) : opBlockReset page d = d := by
  rw [opBlockReset, h]

theorem opBlockReset_some {r : Nat × Nat} (h : d.commits.resets.find? (fun r => r.1 == page) = some r) : opBlockReset page d =
    ((d.reach r.2).onCommits (fun c => { c with resets := dropFirst (· == r) c.resets })).resetPage page := by
  rw [opBlockReset, h]

end BlockReset

/-- Settles O57: a write is refused or reaches its page, and there does what the word of the page does. -/
theorem pageWrites : Obligations.PageWrites := by
  refine ⟨fun s off v width agent ha => ?register, fun s off v agent ha => ?staged, fun s page key agent ha => ?common,
    fun s page => ⟨fun h => s.onDev_same (opBlockReset_none h), fun r h => s.onDev_next (opBlockReset_some h)⟩, fun s agent ha => ?log⟩
  case register =>
    intro d run o
    have write {p : Part} (h : s.part.writeReg off.toNat v.toNat width agent.toNat = p) : run = .next (s.withPart p) :=
      s.onPart_written ha h
    refine ⟨fun wrong => ?_, fun hw h4 absent => ?_, fun hw h4 here bht closed => ?_, fun k hw h4 here bridge hk => ?_⟩
    · exact write (Part.writeReg_refused (Device.badAccess_misaligned wrong))
    · exact write (Part.writeReg_refused (Device.badAccess_absent hw h4 absent))
    · exact write (Part.writeReg_refused (Device.badAccess_closed hw h4 here bht closed))
    · have reach : s.part.dev.badAccess off.toNat v.toNat width agent.toNat = none := Device.badAccess_reaches hw h4 ⟨here, bridge⟩
      have live {e : Device} (low : 0x100 ≤ o) (high : o < 0x700)
          (h : (s.part.dev.wakePage off.toNat).writeLive off.toNat v.toNat agent.toNat k = e) : run = .next (s.withDev e) := by
        rw [← h]
        exact write (Part.writeReg_live reach hk low high)
      refine ⟨fun private_ => ?_, fun enable => ?_, fun route => ?_, fun low high none => ?_, fun r low high row other hrw hrwl => ?_,
        fun r low high row hrw hrwl commit sync monitor => ?_⟩
      · exact write (Part.writeReg_private reach hk private_)
      · exact write (Part.writeReg_enable reach hk enable)
      · exact write (Part.writeReg_route reach hk route)
      · exact live low high (Device.writeLive_unlisted none)
      · exact live low high (Device.writeLive_read_only row other hrw hrwl)
      · exact live low high (Device.writeLive_plain hk row hrw hrwl commit sync monitor)
  case staged =>
    refine ⟨fun wrong => ?_, fun h4 absent => ?_, fun h4 here bht closed => ?_, fun h4 here bridge => ?_⟩
    · exact s.onDev_written ha (Device.onPage_refused (Device.badAccess_misaligned (.inr wrong)))
    · exact s.onDev_written ha (Device.onPage_refused (Device.badAccess_absent rfl h4 absent))
    · exact s.onDev_written ha (Device.onPage_refused (Device.badAccess_closed rfl h4 here bht closed))
    · have reach : s.part.dev.badAccess off.toNat v.toNat 4 agent.toNat = none := Device.badAccess_reaches rfl h4 ⟨here, bridge⟩
      refine ⟨fun listed => ⟨fun held => ?_, fun free => ?_⟩, fun unlisted => ?_⟩
      · exact s.onDev_written ha (opStagedImageWrite_held reach rfl listed held)
      · exact s.onDev_written ha (opStagedImageWrite_staged reach rfl listed free)
      · exact s.onDev_written ha (opStagedImageWrite_unlisted reach rfl unlisted)
  case common =>
    intro d g e refused
    have hg : pageOf g = g := pageOf_pageOf
    have refuse {kind : Nat} (h : ∀ k v f, k < 0x1000 → k % 4 = 0 →
        d.onPage (g + k) v agent.toNat f = d.logAccess kind (g + k) v agent.toNat) : refused kind := by
      obtain ⟨discard, lock, clear, reset⟩ := page_ops_refused key.toNat h
      exact ⟨s.onDev_written ha discard, s.onDev_written ha lock, s.onDev_written ha clear, s.onDev_written ha reset⟩
    refine ⟨fun absent => ?_, fun here bht closed => ?_, fun here bridge => ?_⟩
    · exact refuse fun k v f hk h4 => Device.onPage_word_absent hg hk h4 absent
    · exact refuse fun k v f hk h4 => Device.onPage_word_closed hg hk h4 here bht closed
    · have reach : d.Reaches g := ⟨here, bridge⟩
      refine ⟨fun held => ?_, fun free => ?_, fun lock => ?_, fun lock => ?_, fun some => ?_, fun none => ?_,
        fun k hk => ⟨fun right acts => ?_, fun wrong => ?_⟩⟩
      · exact s.onDev_written ha ((opStageDiscard_eq hg _ reach rfl).trans (if_pos held))
      · exact s.onDev_written ha ((opStageDiscard_eq hg _ reach rfl).trans (if_neg (Bool.eq_false_iff.mp free)))
      · exact s.onDev_written ha ((opLockSet_eq hg _ reach rfl).trans (if_pos lock))
      · exact s.onDev_written ha ((opLockSet_eq hg _ reach rfl).trans (if_neg (by simp [lock])))
      · exact s.onDev_written ha ((opCntClr_eq hg _ reach rfl).trans (if_neg some))
      · exact s.onDev_written ha ((opCntClr_eq hg _ reach rfl).trans (if_pos none))
      · exact s.onDev_written ha ((opBlkReset_eq hg _ reach rfl _ hk).trans (if_pos (by simp [right, acts])))
      · exact s.onDev_written ha ((opBlkReset_eq hg _ reach rfl _ hk).trans (if_neg (by rcases wrong with h | h <;> simp [h])))
  case log =>
    refine ⟨_, s.onDev_written ha rfl, rfl, fun i hi => ?_, fun off outside => ?_⟩
    · exact Device.get_setWords _ (List.getElem?_replicate_of_lt hi : (List.replicate 6 0)[i]? = some 0)
    · rcases outside with below | above
      · exact Device.get_setWords_below _ below
      · exact Device.get_setWords_above _ (by simpa using above)

end Sys2Proof.Machine
end

section
/-! SUPPORT. Which packets of a BHT session are taken, how a handshake begins and ends, and what closing leaves (R445 to R450, R462). -/

namespace Sys2Proof.Machine

/-! ### Sessions closed (R449, R462) -/

/-- Closing sessions changes the BHT engine only. -/
theorem Device.closeSession_foldl_eq (l : List (Nat × BhtSession)) (d : Device) :
    ∃ b, l.foldl (fun d e => d.closeSession e.1) d = d.onBht (fun _ => b) := by
  induction l generalizing d with
  | nil => exact ⟨d.bht, rfl⟩
  | cons e l ih =>
    obtain ⟨b, hb⟩ := ih (d.closeSession e.1)
    exact ⟨b, hb⟩

theorem Device.closeSessions_eq (d : Device) (f : BhtSession → Bool) : ∃ b, d.closeSessions f = d.onBht (fun _ => b) :=
  closeSession_foldl_eq _ d

theorem Device.session_closeSession (d : Device) (s n : Nat) :
    (d.closeSession s).session n = if s = n then none else d.session n := by
  split
  next same => exact same ▸ smapFind_erase_same _ s
  next other => exact smapFind_erase_other _ (Ne.symm other)

/-- A session is gone when it stands among those closed, and as it was otherwise. -/
theorem Device.session_closeSession_foldl (l : List (Nat × BhtSession)) (d : Device) (n : Nat) :
    (l.foldl (fun d e => d.closeSession e.1) d).session n = if ∃ e ∈ l, e.1 = n then none else d.session n := by
  induction l generalizing d with
  | nil => simp
  | cons e l ih =>
    rw [List.foldl_cons, ih, session_closeSession]
    by_cases later : ∃ e ∈ l, e.1 = n <;> by_cases now : e.1 = n <;> simp [later, now]

theorem smapFind_mem {α : Type} {m : SMap α} {i : Nat} {v : α} (h : smapFind m i = some v) : (i, v) ∈ m := by
  induction m with
  | nil => cases h
  | cons e m ih =>
    obtain ⟨k, w⟩ := e
    rw [smapFind] at h
    split at h
    next same => cases h; exact same ▸ List.mem_cons_self
    next => exact List.mem_cons_of_mem _ (ih h)

/-- What is left after every open session is closed is not open. -/
theorem Device.closeSessions_all_not_open {d : Device} {n : Nat} {x : BhtSession} (h : (d.closeSessions (fun _ => true)).session n = some x) :
    x.isOpen = false := by
  rw [closeSessions, session_closeSession_foldl] at h
  split at h
  next => cases h
  next stays =>
    by_contra isOpen
    exact stays ⟨(n, x), List.mem_filter.mpr ⟨smapFind_mem h, by simpa using isOpen⟩, rfl⟩

/-- A session none of whose entries is open stays. -/
theorem Device.closeSessions_keeps_handshake {d : Device} {n : Nat} (f : BhtSession → Bool)
    (h : ∀ y, (n, y) ∈ d.bht.sessions → y.isOpen = false) : (d.closeSessions f).session n = d.session n := by
  rw [closeSessions, session_closeSession_foldl]
  refine if_neg ?_
  rintro ⟨⟨m, y⟩, mem, rfl⟩
  obtain ⟨listed, picked⟩ := List.mem_filter.mp mem
  simp [h y listed] at picked

/-! ### Packets (R450) -/

theorem Device.authDrop_sessions (d : Device) (s pn : Nat) : (d.authDrop s pn).bht.sessions = d.bht.sessions :=
  iteInduction (motive := fun e : Device => e.bht.sessions = d.bht.sessions) (fun _ => rfl) (fun _ => by simp [bhtEvent, onBht])

section Packets
variable {d : Device} {k : BhtPacket} {finish : Bool} {x : BhtSession}

theorem Device.takePacket_off (off : d.bhtOn = false) : d.takePacket k finish = (false, d) := by simp [takePacket, off]

theorem Device.takePacket_unknown (on : d.bhtOn = true) (h : d.session k.session = none) :
    d.takePacket k finish = (false, d.authDrop k.session k.pn) := by
  simp [takePacket, on, h]

variable (on : d.bhtOn = true) (h : d.session k.session = some x)
include on h

theorem Device.takePacket_unauthentic (bad : k.tagOk = false ∨ x.isOpen = false) :
    d.takePacket k false = (false, d.authDrop k.session k.pn) := by
  simp [takePacket, on, h, bad]

variable (tag : k.tagOk = true) (isOpen : x.isOpen = true)
include tag isOpen

theorem Device.takePacket_replayed (again : x.replayed k.pn = true) : d.takePacket k false = (false, d.count (pageBht + 0x140)) := by
  simp [takePacket, on, h, tag, isOpen, again]

variable (fresh : x.replayed k.pn = false)
include fresh

theorem Device.takePacket_last (beyond : 2 ^ 62 < k.pn) : d.takePacket k false = (false, d.closeSession k.session) := by
  simp only [takePacket, on, h, tag, isOpen, fresh, beyond, Bool.not_true, Bool.false_or, Bool.false_and, Bool.false_eq_true, if_false,
    if_true]

theorem Device.takePacket_marked (within : k.pn ≤ 2 ^ 62) (ce : k.ce = true) :
    d.takePacket k false = (true, (d.setSession k.session { x.see k.pn with
      heard := d.now, eceUntil := some (d.now + x.srtt) }).count (pageBht + 0x14C)) := by
  have notBeyond : ¬2 ^ 62 < k.pn := Nat.not_lt.mpr within
  simp only [takePacket, on, h, tag, isOpen, fresh, notBeyond, ce, Bool.not_true, Bool.false_or, Bool.false_and, Bool.false_eq_true, if_false,
    if_true]
  rfl

theorem Device.takePacket_unmarked (within : k.pn ≤ 2 ^ 62) (ce : k.ce = false) :
    d.takePacket k false = (true, d.setSession k.session { x.see k.pn with heard := d.now }) := by
  have notBeyond : ¬2 ^ 62 < k.pn := Nat.not_lt.mpr within
  simp only [takePacket, on, h, tag, isOpen, fresh, notBeyond, ce, Bool.not_true, Bool.false_or, Bool.false_and, Bool.false_eq_true, if_false]

end Packets

/-- A packet number replays when it lies more than 1,024 below the highest or was seen. -/
theorem BhtSession.replayed_iff (x : BhtSession) (pn : Nat) : x.replayed pn = true ↔ pn + 1024 < x.pnHigh ∨ pn ∈ x.pnSeen := by
  simp [replayed]

/-- A packet number that is not too far below the highest is kept when it is taken. -/
theorem BhtSession.mem_see {x : BhtSession} {pn : Nat} (h : x.pnHigh ≤ pn + 1024) : pn ∈ (x.see pn).pnSeen := by
  refine List.mem_filter.mpr ⟨List.mem_cons_self, decide_eq_true ?_⟩
  exact Nat.max_le.mpr ⟨h, by omega⟩

theorem Device.session_setSession (d : Device) (n : Nat) (x : BhtSession) : (d.setSession n x).session n = some x := smapFind_set_same _ n x

/-! ### Handshakes begun (R448) -/

section Init
variable {d : Device} {role source second nonce : Nat} {cookie : Option Nat} {key : List Byte}

theorem opBhtInit_off (off : d.bhtOn = false) : opBhtInit role source cookie second key nonce d = d := by simp [opBhtInit, off]

variable (on : d.bhtOn = true)
include on

theorem opBhtInit_no_role (bad : isRole role = false) : opBhtInit role source cookie second key nonce d = d.authDrop 0 0 := by
  simp [opBhtInit, on, bad]

variable (valid : isRole role = true)
include valid

theorem opBhtInit_retry (h : cookie.map (leBytes 32) ≠ some (d.cookie source second)) :
    opBhtInit role source cookie second key nonce d = d.send (.bhtRetry source (d.cookie source second)) := by
  simp [opBhtInit, on, valid, h]

variable (good : cookie.map (leBytes 32) = some (d.cookie source second)) {signed : Nat}
  (hs : (if d.bht.signed.1 = second then d.bht.signed.2 else 0) = signed)
include good hs

theorem opBhtInit_full
    (full : bits (d.get (pageBht + 0x124)) 23 16 ≤ signed ∨ 16 ≤ (d.bht.sessions.filter (fun e => !e.2.isOpen)).length) :
    opBhtInit role source cookie second key nonce d = d.count (pageBht + 0x144) := by
  simp [opBhtInit, on, valid, good, hs, full]

variable (room : ¬(bits (d.get (pageBht + 0x124)) 23 16 ≤ signed ∨ 16 ≤ (d.bht.sessions.filter (fun e => !e.2.isOpen)).length))
include room

theorem opBhtInit_no_number (none : d.freeSession = none) : opBhtInit role source cookie second key nonce d = d := by
  simp [opBhtInit, on, valid, good, hs, room, none]

/-- The handshake opens with a free number, its keys and salts derived, and is answered by ACCEPT. -/
theorem opBhtInit_accept {n : Nat} (free : d.freeSession = some n) :
    opBhtInit role source cookie second key nonce d =
      (let t := leBytes 32 (Config.transcript d.free (key ++ leBytes 32 nonce)).toNat
       let keys := hkdf256 (leBytes 32 nonce ++ leBytes 32 (Config.moduleNonce d.free).toNat)
         (leBytes 32 (Config.sharedSecret d.free key).toNat) (asciiBytes "BHT1" ++ t) 72
       ((d.drawn.setSession n { source := source, keys := keys, role := role, since := d.now, heard := d.now, transcript := t }).onBht
         (fun b => { b with signed := (second, signed + 1) })).send (.bhtAccept n t
           ((d.rom.idCert :: d.rom.idChain) ++ [Config.ciphertext d.free key])
           ((List.range 16224).map (Config.signature d.free d.sec.identity t)))) := by
  simp only [opBhtInit, on, valid, good, hs, free, Bool.not_true, Bool.false_eq_true, if_false, ne_eq, not_true]
  exact if_neg (by simpa using room)

end Init

/-! ### Handshakes ended and sessions closed (R449, R572) -/

section Finish
variable {d e : Device} {k : BhtPacket} {proof : Nat} {x : BhtSession}

theorem opBhtFinish_not_taken (h : (d.takePacket k true).1 = false) : opBhtFinish k proof d = (d.takePacket k true).2 := by
  simp [opBhtFinish, h]

variable (taken : (d.takePacket k true).1 = true) (he : (d.takePacket k true).2 = e) (h : e.session k.session = some x)
include taken he h

theorem opBhtFinish_open (isOpen : x.isOpen = true) : opBhtFinish k proof d = e := by
  simp [opBhtFinish, taken, he, h, isOpen]

theorem opBhtFinish_proved (shut : x.isOpen = false) (proved : e.roleProof x = some (leBytes 32 proof)) :
    opBhtFinish k proof d = ((e.setSession k.session { x with isOpen := true, order := e.bht.opened }).onBht
      (fun b => { b with opened := b.opened + 1 })).count (pageBht + 0x134) := by
  simp [opBhtFinish, taken, he, h, shut, proved]

theorem opBhtFinish_unproved (shut : x.isOpen = false) (unproved : e.roleProof x ≠ some (leBytes 32 proof)) :
    opBhtFinish k proof d = e.failHandshake k.session k.pn := by
  simp [opBhtFinish, taken, he, h, shut, unproved]

end Finish

section Close
variable {d : Device} {k : BhtPacket} {n : Nat} {x : BhtSession}

theorem opBhtClose_taken (h : (d.takePacket k false).1 = true) : opBhtClose k d = (d.takePacket k false).2.closeSession k.session := if_pos h

theorem opBhtClose_not_taken (h : (d.takePacket k false).1 = false) : opBhtClose k d = (d.takePacket k false).2 :=
  if_neg (Bool.eq_false_iff.mp h)

theorem opHandshakeTimeout_none (h : d.session n = none) : opHandshakeTimeout n d = d := by simp [opHandshakeTimeout, h]

theorem opHandshakeTimeout_open (h : d.session n = some x) (isOpen : x.isOpen = true) : opHandshakeTimeout n d = d := by
  simp [opHandshakeTimeout, h, isOpen]

theorem opHandshakeTimeout_fails (h : d.session n = some x) (shut : x.isOpen = false) :
    opHandshakeTimeout n d = (d.reach (x.since + 1000000000)).failHandshake n 0 := by
  simp [opHandshakeTimeout, h, shut]

theorem opSessionIdle_none (h : d.session n = none) : opSessionIdle n d = d := by simp [opSessionIdle, h]

theorem opSessionIdle_handshake (h : d.session n = some x) (shut : x.isOpen = false) : opSessionIdle n d = d := by
  simp [opSessionIdle, h, shut]

theorem opSessionIdle_closes (h : d.session n = some x) (isOpen : x.isOpen = true) :
    opSessionIdle n d = (d.reach (x.heard + 60000000000)).closeSession n := by
  simp [opSessionIdle, h, isOpen]

theorem opCloseAll_bridge (agent : Nat) (h : d.enumBit 12 = true) : opCloseAll agent d = d.closeSessions (fun _ => true) := if_pos h

theorem opCloseAll_other (agent : Nat) (h : d.enumBit 12 = false) : opCloseAll agent d = d.refuseCtrl pageBht 2 agent :=
  if_neg (Bool.eq_false_iff.mp h)

end Close

/-- Settles O43: each command is its operation on the device, whose cases are the lemmas above. -/
theorem bhtPacketsAndHandshakes : Obligations.BhtPacketsAndHandshakes := by
  refine ⟨fun d k => ⟨Device.takePacket_off, Device.takePacket_unknown, fun x on h => ⟨Device.takePacket_unauthentic on h,
      fun tag isOpen again => Device.takePacket_replayed on h tag isOpen ((x.replayed_iff k.pn).mpr again),
      fun tag isOpen near unseen => ?fresh⟩, d.authDrop_sessions k.session k.pn⟩,
    fun s role source cookie second key nonce => ?init, fun s k proof => ?finish, fun s k => ?close, fun s n => ?timeouts,
    fun s agent => ?all⟩
  case fresh =>
    have fresh : x.replayed k.pn = false := by
      rw [Bool.eq_false_iff, ne_eq, x.replayed_iff]
      exact fun again => again.elim (Nat.not_lt.mpr near) unseen
    have seen : k.pn ∈ (x.see k.pn).pnSeen := BhtSession.mem_see near
    refine ⟨Device.takePacket_last on h tag isOpen fresh, fun within => ?_⟩
    cases ce : k.ce with
    | true =>
      rw [Device.takePacket_marked on h tag isOpen fresh within ce]
      exact ⟨rfl, _, Device.session_setSession _ _ _, rfl, rfl, seen, (BhtSession.replayed_iff _ _).mpr (.inr seen), rfl, rfl, rfl, rfl,
        fun _ => rfl, nofun⟩
    | false =>
      rw [Device.takePacket_unmarked on h tag isOpen fresh within ce]
      exact ⟨rfl, _, Device.session_setSession _ _ _, rfl, rfl, seen, (BhtSession.replayed_iff _ _).mpr (.inr seen), rfl, rfl, rfl, rfl,
        nofun, fun _ => rfl⟩
  case init =>
    intro d run good signed full
    have cookies : (cookie.map (·.toNat)).map (leBytes 32) = cookie.map (fun c => leBytes 32 c.toNat) := Option.map_map ..
    exact ⟨fun off => s.onDev_same (opBhtInit_off off), fun on bad => s.onDev_next (opBhtInit_no_role on bad),
      fun on valid other => s.onDev_next (opBhtInit_retry on valid (cookies ▸ other)),
      fun on valid same full => s.onDev_next (opBhtInit_full on valid (cookies.trans same) rfl full),
      fun on valid same room none => s.onDev_same (opBhtInit_no_number on valid (cookies.trans same) rfl room none),
      fun n on valid same room free => s.onDev_next (opBhtInit_accept on valid (cookies.trans same) rfl room free)⟩
  case finish =>
    exact ⟨fun no => s.onDev_next (opBhtFinish_not_taken no), fun x taken h => ⟨fun isOpen => s.onDev_next (opBhtFinish_open taken rfl h isOpen),
      fun shut proved => s.onDev_next (opBhtFinish_proved taken rfl h shut proved),
      fun shut unproved => s.onDev_next (opBhtFinish_unproved taken rfl h shut unproved)⟩⟩
  case close => exact ⟨fun taken => s.onDev_next (opBhtClose_taken taken), fun no => s.onDev_next (opBhtClose_not_taken no)⟩
  case timeouts =>
    exact ⟨fun none => ⟨s.onDev_same (opHandshakeTimeout_none none), s.onDev_same (opSessionIdle_none none)⟩,
      fun x h => ⟨fun shut => ⟨s.onDev_next (opHandshakeTimeout_fails h shut), s.onDev_same (opSessionIdle_handshake h shut)⟩,
        fun isOpen => ⟨s.onDev_next (opSessionIdle_closes h isOpen), s.onDev_same (opHandshakeTimeout_open h isOpen)⟩⟩⟩
  case all =>
    exact ⟨rfl, s.onDev_written_other _, fun ha other => s.onDev_written ha (opCloseAll_other _ other),
      fun ha bridge => ⟨_, s.onDev_written ha (opCloseAll_bridge _ bridge), rfl, fun n x => Device.closeSessions_all_not_open,
        fun n x h shut => (Device.closeSessions_keeps_handshake _ shut).trans h⟩⟩

end Sys2Proof.Machine
end

section
/-! SUPPORT. The security processor's work in each of its cases: fuses, measurements, quotes, the debug unlock and tenant keys (R559,
R562, R563, R565, R571, R573 to R575). -/

namespace Sys2Proof.Machine

/-! ### Fuses and measurements (R562, R563) -/

theorem opFuseBlown_idle {d : Device} (h : d.work.blowing = false) : opFuseBlown d = d := by simp [opFuseBlown, h]

/-- A fuse that blows counts, and the next one blows while the SVN is above the count. -/
theorem opFuseBlown_counts {d : Device} (h : d.work.blowing = true) : (opFuseBlown d).rom.rbCount = d.rom.rbCount + 1 ∧
    (opFuseBlown d).work.blowing = decide (d.rom.rbCount + 1 < d.fwSvn) := by
  by_cases last : d.fwSvn ≤ d.rom.rbCount + 1
  · have blown : opFuseBlown d = (Device.onWork { d with rom := { d.rom with rbCount := d.rom.rbCount + 1 } }
        (fun w => { w with blowing := false })).secEvent 3 0 :=
      (if_neg (by simp [h])).trans (if_pos last)
    rw [blown, decide_eq_false (Nat.not_lt.mpr last)]
    exact ⟨congrArg Flash.rbCount (Device.eventSt_rom ..), congrArg SecWork.blowing (Device.eventSt_work ..)⟩
  · have blown : opFuseBlown d = { d with rom := { d.rom with rbCount := d.rom.rbCount + 1 } } :=
      (if_neg (by simp [h])).trans (if_neg last)
    rw [blown, decide_eq_true (Nat.lt_of_not_le last)]
    exact ⟨rfl, h⟩

theorem opExtend_other {p : Part} (agent : Nat) (h : p.dev.get (pageSec + 0x110) % 8 ≠ 7) :
    opExtend agent p = p.onDev (·.refuseCtrl pageSec 2 agent) := if_pos h

theorem opExtend_mr7 {p : Part} (agent : Nat) (h : p.dev.get (pageSec + 0x110) % 8 = 7) :
    opExtend agent p = (p.touch (p.dev.secAddr 0x138) 32).onDev
      (·.extendMr 7 ((p.touch (p.dev.secAddr 0x138) 32).mem.read (p.dev.secAddr 0x138) 32)) := if_neg (not_not_intro h)

/-! ### Quotes (R565) -/

theorem opQuote_busy {p : Part} (agent : Nat) (h : bit (p.dev.get (pageSec + 0x100)) 4 = true) :
    opQuote agent p = p.onDev (·.refuseCtrl pageSec 4 agent) := if_pos h

/-- A quote is composed of what is read once its tables and regions have been touched. -/
theorem opQuote_composed {p q : Part} (agent : Nat) (h : bit (p.dev.get (pageSec + 0x100)) 4 = false)
    (hq : p.touchAll [(p.dev.secAddr 0x140, 32), (p.dev.get64 (pageBlt + 0x104) % 2 ^ 40 + 0x60, 32), (p.dev.adpEntry 0, 65536),
      (p.dev.tenSrv (p.dev.get (pageSec + 0x150) % 256), 16)] = q) :
    opQuote agent p = q.onDev (fun d => (d.setBits (pageSec + 0x100) 4 4 1).onWork (fun w => { w with
      quote := some (q.dev.secAddr 0x148, q.quoteBytes), quotes := w.quotes + 1 })) := by
  subst hq
  exact if_neg (Bool.eq_false_iff.mp h)

theorem opQuoteDone_none {p : Part} (h : p.dev.work.quote = none) : opQuoteDone p = p := by simp [opQuoteDone, h]

theorem opQuoteDone_delivered {p : Part} {a : Nat} {q : List Byte} (h : p.dev.work.quote = some (a, q)) :
    opQuoteDone p =
      (p.put a (q ++ (List.range 17088).map (Config.signature p.dev.free p.dev.sec.attestation q)) false (agentId p.dev.node 2 0)).onDev (fun d =>
        let e := (d.drawn.setBits (pageSec + 0x100) 4 4 0).onWork (fun w => { w with quote := none })
        ((e.set (pageSec + 0x154) (q.length + 17088)).count (pageSec + 0x18C)).secEvent 0 e.work.quotes) := by
  rw [opQuoteDone, h]

/-! ### Debug unlock (R573, R574) -/

section Challenge
variable {d : Device}

theorem opDbgChal_exhausted (agent : Nat) (h : 3 ≤ d.work.tries) : opDbgChal agent d = d.refuseCtrl pageSec 8 agent := if_pos h

/-- The words of a challenge. -/
def challengeWords (c : Nat) : List Nat := (List.range 8).map (fun i => c / 2 ^ (32 * i) % 2 ^ 32)

theorem opDbgChal_given (agent : Nat) (h : d.work.tries < 3) :
    opDbgChal agent d = (d.drawn.setWords (pageSec + 0x160) (challengeWords (Config.challenge d.free).toNat)).onWork (fun w => { w with
      challenge := some d.now, challenges := w.challenges + 1 }) := by
  have now : (d.drawn.setWords (pageSec + 0x160) (challengeWords (Config.challenge d.free).toNat)).now = d.now := Device.setWords_tick ..
  rw [← now]
  exact if_neg (Nat.not_le.mpr h)

theorem Device.get_setWords_challenge (d : Device) (off c : Nat) {i : Nat} (hi : i < 8) :
    (d.setWords off (challengeWords c)).get (off + 4 * i) = c / 2 ^ (32 * i) % 2 ^ 32 := by
  have word : (challengeWords c)[i]? = some (c / 2 ^ (32 * i) % 2 ^ 32) := by simp [challengeWords, hi]
  rw [Device.get_setWords _ word, Nat.mod_mod]

theorem opChallengeExpire_none (h : d.work.challenge = none) : opChallengeExpire d = d := by simp [opChallengeExpire, h]

theorem opChallengeExpire_ends {t : Nat} (h : d.work.challenge = some t) :
    opChallengeExpire d = (d.reach (t + 600000000000)).onWork (fun w => { w with challenge := none }) := by
  simp [opChallengeExpire, h]

end Challenge

/-- The device with every session closed and every key erased. -/
def Device.keysErased (d : Device) : Device := { d.closeSessions (fun _ => true) with sec := { d.sec with keys := [] } }

/-- The device with debug access opened by a response. -/
def Device.debugOpened (d : Device) (digest : List Byte) : Device :=
  (((d.onHist (fun h => { h with returned := true })).extendMr 2 digest).setBits (pageSec + 0x100) 2 2 1).secEvent 1 d.work.challenges

section Unlock
variable {p q : Part} (hq : p.touch (p.dev.secAddr 0x180) 29792 = q)
include hq

theorem opDbgUnlock_failed (h : q.unlocks = false) :
    opDbgUnlock p = (q.onDev (·.onWork (fun w => { w with challenge := none }))).onDev (fun d =>
      ((d.onWork (fun w => { w with tries := w.tries + 1 })).count (pageSec + 0x188)).secEvent 2 d.work.challenges) := by
  subst hq
  exact if_neg (Bool.eq_false_iff.mp h)

theorem opDbgUnlock_accepted (h : q.unlocks = true) :
    opDbgUnlock p = (((q.onDev (·.onWork (fun w => { w with challenge := none }))).onDev Device.keysErased).onMem
      (·.clear 0 (0x6000000000 / 64))).onDev (·.debugOpened (sha256 q.response)) := by
  subst hq
  exact if_pos h

end Unlock

section Opened
variable (d : Device) (digest : List Byte)

theorem Device.keysErased_work : d.keysErased.work = d.work := by
  obtain ⟨b, closed⟩ := d.closeSessions_eq (fun _ => true)
  rw [keysErased, closed]
  rfl

/-- No session is open once the keys are erased. -/
theorem Device.keysErased_not_open {n : Nat} {x : BhtSession} (h : d.keysErased.session n = some x) : x.isOpen = false :=
  closeSessions_all_not_open (d := d) h

theorem Device.debugOpened_keys : (d.debugOpened digest).sec.keys = d.sec.keys := by
  rw [debugOpened, secEvent, eventSt_sec]
  rfl

theorem Device.debugOpened_hist : (d.debugOpened digest).hist.returned = true := congrArg History.returned (eventSt_hist ..)

theorem Device.debugOpened_work : (d.debugOpened digest).work = d.work := eventSt_work ..

theorem Device.debugOpened_session (n : Nat) : (d.debugOpened digest).session n = d.session n :=
  congrArg (fun b : BhtState => smapFind b.sessions n) (eventSt_bht ..)

theorem Device.debugOpened_unlocked : (d.debugOpened digest).unlocked = true := by
  have word : (d.debugOpened digest).get (pageSec + 0x100) =
      (((d.onHist (fun h => { h with returned := true })).extendMr 2 digest).setBits (pageSec + 0x100) 2 2 1).get (pageSec + 0x100) :=
    get_eventSt _ _ _ _ (by decide) (by decide)
  rw [unlocked, word]
  exact bit_get_setBits _ (by decide)

end Opened

/-! ### Tenant keys (R571, R575) -/

section Keys
variable {d : Device} {k : Nat}

theorem opKeyErase_none (agent : Nat) (h : d.keyName = none) : opKeyErase agent d = d.refuseCtrl pageTen 4 agent := by
  simp [opKeyErase, h]

theorem opKeyErase_named (agent : Nat) (h : d.keyName = some k) :
    opKeyErase agent d = { d with sec := { d.sec with keys := smapErase d.sec.keys k } } := by
  simp [opKeyErase, h]

/-- The device with KDATA cleared. -/
def Device.kdataCleared (d : Device) : Device := d.setWords (pageTen + 0x504) (List.replicate 8 0)

theorem Device.get_kdataCleared (d : Device) {i : Nat} (hi : i < 8) : d.kdataCleared.get (pageTen + 0x504 + 4 * i) = 0 :=
  get_setWords _ (List.getElem?_replicate_of_lt hi)

theorem Device.unlocked_kdataCleared (d : Device) : d.kdataCleared.unlocked = d.unlocked :=
  congrArg (bit · 2) (get_setWords_below _ (by decide))

/-- KDATA stands before KEY_STAT. -/
theorem Device.get_kdata_set_keyStat (d : Device) (v : Nat) {i : Nat} (hi : i < 8) :
    (d.set (pageTen + 0x524) v).get (pageTen + 0x504 + 4 * i) = d.get (pageTen + 0x504 + 4 * i) :=
  get_set_other _ _ (by omega)

theorem opKeyLoad_none (agent : Nat) (h : d.keyName = none) : opKeyLoad agent d = d.refuseCtrl pageTen 2 agent := by
  simp [opKeyLoad, h]

theorem opKeyLoad_unlocked (agent : Nat) (h : d.keyName = some k) (u : d.unlocked = true) :
    opKeyLoad agent d = d.kdataCleared.keyStat stTenant := by
  rw [opKeyLoad, h]
  exact if_pos (d.unlocked_kdataCleared.trans u)

theorem opKeyLoad_begun (agent : Nat) (h : d.keyName = some k) (u : d.unlocked = false) :
    opKeyLoad agent d = (d.kdataCleared.set (pageTen + 0x524) 0).onWork (fun w => { w with
      keyLoad := some (k, (List.range 8).flatMap (fun i => leBytes 4 (d.get (pageTen + 0x504 + 4 * i)))) }) := by
  rw [opKeyLoad, h]
  exact if_neg (Bool.eq_false_iff.mp (d.unlocked_kdataCleared.trans u))

theorem opKeyLoadDone_none (h : d.work.keyLoad = none) : opKeyLoadDone d = d := by simp [opKeyLoadDone, h]

variable {key : List Byte} (h : d.work.keyLoad = some (k, key))
include h

theorem opKeyLoadDone_unlocked (u : d.unlocked = true) :
    opKeyLoadDone d = (d.onWork (fun w => { w with keyLoad := none })).keyStat stTenant := by
  rw [opKeyLoadDone, h]
  exact if_pos u

/-- The key is installed; the sessions of its tenant or role that close with it are of the BHT engine alone. -/
theorem opKeyLoadDone_installed (u : d.unlocked = false) : ∃ b, opKeyLoadDone d =
    ((({ d.onWork (fun w => { w with keyLoad := none }) with sec := { d.sec with keys := smapSet d.sec.keys k key } } : Device).onBht
      (fun _ => b)).keyStat stOk).eventSt pageTen 0 stOk [k % 256, 0] := by
  rw [opKeyLoadDone, h]
  by_cases access : k < 256
  · obtain ⟨b, closed⟩ := ({ d.onWork (fun w => { w with keyLoad := none }) with
      sec := { d.sec with keys := smapSet d.sec.keys k key } } : Device).closeSessions_eq (fun x => x.role == k)
    exact ⟨b, (if_neg (Bool.eq_false_iff.mp u)).trans
      (congrArg (fun d : Device => (d.keyStat stOk).eventSt pageTen 0 stOk [k % 256, 0]) ((if_pos access).trans closed))⟩
  · exact ⟨d.bht, (if_neg (Bool.eq_false_iff.mp u)).trans
      (congrArg (fun d : Device => (d.keyStat stOk).eventSt pageTen 0 stOk [k % 256, 0]) (if_neg access))⟩

end Keys

/-- Settles O58: each command is its operation on the module or the device, whose cases are the lemmas above. -/
theorem securityProcessor : Obligations.SecurityProcessor := by
  refine ⟨fun s agent ha => ?asked, fun s => ?ends, fun s agent ha => ?load, fun s => ?loaded⟩
  case asked =>
    refine ⟨s.onDev_written ha rfl, fun h => s.onPart_written ha (opExtend_other _ h), fun h => s.onPart_written ha (opExtend_mr7 _ h),
      fun h => s.onPart_written ha (opQuote_busy _ h), fun h => s.onPart_written ha (opQuote_composed _ h rfl),
      fun h => s.onDev_written ha (opDbgChal_exhausted _ h), fun h => ?_, fun h => s.onPart_written ha (opDbgUnlock_failed rfl h),
      fun h => ?_⟩
    · exact ⟨_, s.onDev_written ha (opDbgChal_given _ h), rfl, rfl, congrArg (·.challenges + 1) (Device.setWords_work ..),
        fun i hi => Device.get_setWords_challenge _ _ _ hi⟩
    · refine ⟨_, s.onPart_written ha (opDbgUnlock_accepted rfl h), Device.debugOpened_keys _ _, Device.debugOpened_unlocked _ _,
        Device.debugOpened_hist _ _, ?_, rfl, fun n x hx => ?_⟩
      · exact congrArg SecWork.challenge ((Device.debugOpened_work _ _).trans (Device.keysErased_work _))
      · exact Device.keysErased_not_open _ ((Device.debugOpened_session _ _ n).symm.trans hx)
  case ends =>
    exact ⟨fun h => s.onDev_same (opFuseBlown_idle h),
      fun h => ⟨_, s.onDev_next rfl, rfl, (opFuseBlown_counts h).1, (opFuseBlown_counts h).2⟩,
      fun h => s.onDev_same (opChallengeExpire_none h), fun t h => s.onDev_next (opChallengeExpire_ends h),
      fun h => s.onPart_same (opQuoteDone_none h), fun a q h => s.onPart_next (opQuoteDone_delivered h)⟩
  case load =>
    intro d
    refine ⟨fun h => ⟨s.onDev_written ha (opKeyLoad_none _ h), s.onDev_written ha (opKeyErase_none _ h)⟩,
      fun k h => ⟨s.onDev_written ha (opKeyErase_named _ h), ?_⟩⟩
    cases u : d.unlocked with
    | true =>
      refine ⟨_, s.onDev_written ha (opKeyLoad_unlocked _ h u), rfl,
        fun i hi => (Device.get_kdata_set_keyStat _ _ hi).trans (d.get_kdataCleared hi), fun _ => ⟨Device.get_set_same _ _ _, ?_⟩, nofun⟩
      exact congrArg SecWork.keyLoad (Device.setWords_work ..)
    | false =>
      exact ⟨_, s.onDev_written ha (opKeyLoad_begun _ h u), rfl,
        fun i hi => (Device.get_kdata_set_keyStat _ _ hi).trans (d.get_kdataCleared hi), nofun, fun _ => ⟨Device.get_set_same _ _ _, rfl⟩⟩
  case loaded =>
    intro d
    refine ⟨fun h => s.onDev_same (opKeyLoadDone_none h), fun k key h => ?_⟩
    cases u : d.unlocked with
    | true => exact ⟨_, s.onDev_next (opKeyLoadDone_unlocked h u), rfl, rfl, fun _ => ⟨rfl, Device.get_set_same _ _ _⟩, nofun⟩
    | false =>
      obtain ⟨b, installed⟩ := opKeyLoadDone_installed h u
      refine ⟨_, s.onDev_next installed, rfl, congrArg SecWork.keyLoad (Device.eventSt_work ..), nofun,
        fun _ => ⟨congrArg Security.keys (Device.eventSt_sec ..), ?_⟩⟩
      exact (Device.get_eventSt _ _ _ _ (by decide) (by decide)).trans (Device.get_set_same _ _ _)

end Sys2Proof.Machine
end

section
/-! SUPPORT. Proof outputs, history dumps and the board management interface in each of their cases (R523, R578, R581, R589, R600, R605,
R606, R608). -/

namespace Sys2Proof.Machine

/-! ### Proof kernels (R578, R581) -/

/-- A maintenance heat runs. -/
def Device.Maintains (d : Device) : Prop := d.planRuns = true ∧ d.heat.kind = 1 ∧ d.now < d.heat.start + d.heat.len

theorem Device.maintains_iff (d : Device) :
    (d.planRuns && d.heat.kind == 1 && decide (d.now < d.heat.start + d.heat.len)) = true ↔ d.Maintains := by
  simp [Maintains, and_assoc]

section Proofs
variable {p q : Part} {i prog : Nat} {stressed held : Bool} {e : ProofEntry}

theorem opProofCompare_none (h : p.dev.work.proof = none) : opProofCompare i p = p := by simp [opProofCompare, h]

variable (h : p.dev.work.proof = some (prog, stressed, held))
include h

theorem opProofCompare_idle (idle : p.dev.Maintains ∨ p.dev.get (pageHis + 0x118) ≤ i) : opProofCompare i p = p := by
  rw [opProofCompare, h]
  refine if_pos ?_
  rw [Bool.or_eq_true, p.dev.maintains_iff, decide_eq_true_iff]
  exact idle

variable (ended : ¬p.dev.Maintains) (listed : i < p.dev.get (pageHis + 0x118))
  (hq : p.touch (p.dev.get64 (pageHis + 0x110) % 2 ^ 40 + 32 * i) 32 = q) (he : q.proofEntry i = e)
include ended listed hq he

/-- After the heat an entry of the table is read, and compared where its programme ran and its temperature held. -/
theorem opProofCompare_entry : opProofCompare i p =
    if e.heat ≠ prog then q
    else if !held then q.onDev (fun d => (d.count (pageHis + 0x138)).hisEvent 4 stOk 4 e.unit)
    else
      let r := ((q.touch e.out e.len).touch e.expected e.len).onDev (·.count (pageHis + 0x130))
      if r.proofMatches e then r
      else r.onDev (fun d => ((d.count (pageHis + 0x134)).hisEvent 1 stOk 4 e.unit).record e.unit 4 stOk pageHis (!stressed)) := by
  subst hq he
  rw [opProofCompare, h]
  refine if_neg ?_
  rw [Bool.or_eq_true, p.dev.maintains_iff, decide_eq_true_iff]
  exact fun idle => idle.elim ended (Nat.not_le.mpr listed)

theorem opProofCompare_other (other : e.heat ≠ prog) : opProofCompare i p = q :=
  (opProofCompare_entry h ended listed hq he).trans (if_pos other)

variable (same : e.heat = prog)
include same

theorem opProofCompare_skipped (cold : held = false) :
    opProofCompare i p = q.onDev (fun d => (d.count (pageHis + 0x138)).hisEvent 4 stOk 4 e.unit) :=
  (opProofCompare_entry h ended listed hq he).trans ((if_neg (not_not_intro same)).trans (if_pos (by rw [cold]; rfl)))

variable (warm : held = true) {r : Part} (hr : ((q.touch e.out e.len).touch e.expected e.len).onDev (·.count (pageHis + 0x130)) = r)
include warm hr

theorem opProofCompare_matches (ok : r.proofMatches e = true) : opProofCompare i p = r := by
  subst hr
  exact (opProofCompare_entry h ended listed hq he).trans ((if_neg (not_not_intro same)).trans
    ((if_neg (by rw [warm]; decide)).trans (if_pos ok)))

theorem opProofCompare_differs (bad : r.proofMatches e = false) : opProofCompare i p = r.onDev (fun d =>
    ((d.count (pageHis + 0x134)).hisEvent 1 stOk 4 e.unit).record e.unit 4 stOk pageHis (!stressed)) := by
  subst hr
  exact (opProofCompare_entry h ended listed hq he).trans ((if_neg (not_not_intro same)).trans
    ((if_neg (by rw [warm]; decide)).trans (if_neg (Bool.eq_false_iff.mp bad))))

end Proofs

/-! ### Dumps (R589) -/

section Dumps
variable {d : Device} {a n : Nat} (agent : Nat) (ha : d.get64 (pageHis + 0x11C) % 2 ^ 40 = a) (hn : d.get (pageHis + 0x128) = n)
include ha hn

/-- A dump begins where it may and is refused where it may not. -/
theorem opDump_eq : opDump agent d =
    if d.planRuns = false ∧ d.work.dump = none ∧ 1 ≤ n ∧ n ≤ 4096 ∧ sramBase ≤ a ∧ a + 4096 * n + 32 ≤ sramBase + 0x4000000 then
      d.onWork (fun w => { w with dump := some (a, d.get (pageHis + 0x124), n) })
    else d.refuseCtrl pageHis 2 agent := by
  subst ha hn
  rw [opDump, ← ite_not]
  refine if_congr ?_ rfl rfl
  simp only [Bool.or_eq_true, decide_eq_true_eq, not_or, Bool.not_eq_true, Option.isSome_eq_false_iff, Option.isNone_iff_eq_none, Nat.not_lt,
    and_assoc, Nat.one_le_iff_ne_zero]

end Dumps

theorem opDumpDone_none {p : Part} (h : p.dev.work.dump = none) : opDumpDone p = p := by simp [opDumpDone, h]

/-- The block is written with its hash behind it, which MR6 is extended with. -/
theorem opDumpDone_written {p : Part} {a ofs n : Nat} {block : List Byte} (h : p.dev.work.dump = some (a, ofs, n))
    (hb : p.dev.dumpBytes ofs n = block) :
    opDumpDone p = (p.put a (block ++ sha256 block) false (agentId p.dev.node 2 0)).onDev (fun d =>
      ((d.drawn.onWork (fun w => { w with dump := none })).extendMr 6 (sha256 block)).hisEvent 3 stOk 0 unitModule) := by
  rw [opDumpDone, h, ← hb]

/-! ### The I3C target (R605, R606, R608) -/

section Target
variable {d : Device} (addr off : Nat)

theorem opEntdaa_taken (m : d.managed = true) (i3c : d.i2cMode = false) : opEntdaa addr d =
    (((d.send (.i3cId d.provisionedId 0x06 0x00)).setBits (pageBrd + 0x104) 0 0 1).setBits (pageBrd + 0x104) 14 8 addr).brdEvent 0 0 :=
  if_neg (by simp [m, i3c])

theorem opEntdaa_ignored (h : d.managed = false ∨ d.i2cMode = true) : opEntdaa addr d = d := if_pos (by simpa using h)

theorem opI3cOffset_silent (h : d.answersBoard = false) : opI3cOffset off d = d := if_neg (Bool.eq_false_iff.mp h)

theorem opI3cOffset_kept (h : d.answersBoard = true) : opI3cOffset off d = d.onWork (fun w => { w with i3cOffset := off }) := if_pos h

theorem opI3cRead_silent (h : d.answersBoard = false) : opI3cRead d = d := by simp [opI3cRead, h]

theorem opI3cRead_refused (h : d.answersBoard = true) (no : offDie d.work.i3cOffset ≠ 8 ∨ d.readReg d.work.i3cOffset = none) :
    opI3cRead d = (d.boardRefused d.work.i3cOffset).send (.i3cWord 0xFFFFFFFF) := by
  have unread : (if offDie d.work.i3cOffset = 8 then d.readReg d.work.i3cOffset else none) = none := by
    split
    next phievo => exact no.resolve_left (not_not_intro phievo)
    next => rfl
  simp [opI3cRead, h, unread]

theorem opI3cRead_answered {x : Nat} (h : d.answersBoard = true) (phievo : offDie d.work.i3cOffset = 8)
    (hx : d.readReg d.work.i3cOffset = some x) : opI3cRead d = (d.afterRead d.work.i3cOffset).send (.i3cWord x) := by
  simp [opI3cRead, h, phievo, hx]

variable {p q : Part} (v : Nat)

theorem opI3cWrite_silent (h : p.dev.answersBoard = false) : opI3cWrite off v p = p := by simp [opI3cWrite, h]

variable (h : p.dev.answersBoard = true) (hq : p.onDev (·.onWork (fun w => { w with i3cOffset := off })) = q)
include h hq

theorem opI3cWrite_board (board : pageOf off = pageBrd) : opI3cWrite off v p = q.writeReg off v 4 q.dev.boardAgent := by
  rw [opI3cWrite, hq]
  exact (if_neg (by simp [h])).trans (if_pos board)

theorem opI3cWrite_refused (other : pageOf off ≠ pageBrd) : opI3cWrite off v p = q.onDev (·.boardRefused off) := by
  rw [opI3cWrite, hq]
  exact (if_neg (by simp [h])).trans (if_neg other)

end Target

/-- Five edges with TMS high reset the TAP from each of its states. -/
theorem tapNext_five {n : Nat} (h : n < 16) : tapNext (tapNext (tapNext (tapNext (tapNext n true) true) true) true) true = 0 := by
  have each : ∀ m : Fin 16, tapNext (tapNext (tapNext (tapNext (tapNext m.val true) true) true) true) true = 0 := by decide
  exact each ⟨n, h⟩

/-- Settles O59: each command is its operation on the module or the device, whose cases are the lemmas above. -/
theorem historyAndBoard : Obligations.HistoryAndBoard := by
  refine ⟨fun s i => ⟨fun none => s.onPart_same (opProofCompare_none none), fun prog stressed held h =>
      ⟨fun idle => s.onPart_same (opProofCompare_idle h idle), fun ended listed => ?proofs⟩⟩,
    fun s agent => ?dump,
    fun s => ⟨fun none => s.onPart_same (opDumpDone_none none), fun a ofs n h => s.onPart_next (opDumpDone_written h rfl)⟩,
    fun s addr off v => ?board, fun s tms tdi => ⟨rfl, rfl⟩, fun n => tapNext_five⟩
  case proofs =>
    exact ⟨fun other => s.onPart_next (opProofCompare_other h ended listed rfl rfl other),
      fun same cold => s.onPart_next (opProofCompare_skipped h ended listed rfl rfl same cold),
      fun same warm ok => s.onPart_next (opProofCompare_matches h ended listed rfl rfl same warm rfl ok),
      fun same warm bad => s.onPart_next (opProofCompare_differs h ended listed rfl rfl same warm rfl bad)⟩
  case dump =>
    intro d a n good
    exact ⟨s.onDev_written_other _, fun ha yes => s.onDev_written ha ((opDump_eq _ rfl rfl).trans (if_pos yes)),
      fun ha no => s.onDev_written ha ((opDump_eq _ rfl rfl).trans (if_neg no))⟩
  case board =>
    refine ⟨fun m i3c => s.onDev_next (opEntdaa_taken _ m i3c), fun h => s.onDev_same (opEntdaa_ignored _ h),
      fun h => ⟨s.onDev_same (opI3cOffset_silent _ h), s.onDev_same (opI3cRead_silent h), s.onPart_same (opI3cWrite_silent _ _ h)⟩,
      fun h => ⟨s.onDev_next (opI3cOffset_kept _ h), fun no => s.onDev_next (opI3cRead_refused h no),
        fun x phievo hx => s.onDev_next (opI3cRead_answered h phievo hx), fun board => ?_, fun other => ?_⟩⟩
    · exact s.onPart_next (opI3cWrite_board _ _ h rfl board)
    · exact s.onPart_next (opI3cWrite_refused _ _ h rfl other)

end Sys2Proof.Machine
end
